-- ==== Sys2Proof/Word.lean ====
section
/-!
DEFINITION. The word types of the PG2-384 and the plainest operations on them (R7, R8).
-/

namespace Sys2Proof

abbrev W8 := BitVec 8
abbrev W16 := BitVec 16
abbrev W32 := BitVec 32
abbrev W64 := BitVec 64
abbrev W128 := BitVec 128
abbrev W256 := BitVec 256
abbrev V1024 := BitVec 1024

/-- The n-bit field of x whose lowest bit is lo (R7). -/
def fld (x lo n : Nat) : Nat := x / 2 ^ lo % 2 ^ n

/-- Bit k of x (R7). -/
def bit (x k : Nat) : Bool := x / 2 ^ k % 2 == 1

/-- A bit as a number. -/
def b2n (b : Bool) : Nat := if b then 1 else 0

end Sys2Proof
end

