-- ==== Sys2Proof/Machine/Formats.lean ====
section
/-!
DEFINITION. Number formats, rounding and conversion (R90 to R111, R406): exact values as rationals, the grids of
every format code, the procedure of R106 and the special cases of R107 and R108.
-/

namespace Sys2Proof.Machine

/-- Flag bits in the order of R51. -/
def fIV : Nat := 1
def fDZ : Nat := 2
def fOF : Nat := 4
def fUF : Nat := 8
def fNX : Nat := 16
def fSAT : Nat := 32

/-- The three rounding modes of R104. -/
inductive RMode where
  | rne | rtz | sr
deriving DecidableEq, Repr

/-- An exact value as an operation reads it: a NaN, a signed infinity, or a signed rational num / den, den positive,
the sign of a zero kept (R92, R106). -/
inductive Num where
  | nan
  | inf (neg : Bool)
  | fin (neg : Bool) (num den : Nat)
deriving DecidableEq, Repr

/-- A pattern and the flags its making sets. -/
structure Res where
  pat   : Nat
  flags : Nat
deriving DecidableEq, Repr

/-- The fields of a floating-point format (R91). -/
structure Flt where
  ebits : Nat
  mbits : Nat
  bias  : Nat
  hasInf : Bool
  hasNan : Bool
deriving DecidableEq, Repr

def fmtBinary32 : Flt := ⟨8, 23, 127, true, true⟩
def fmtBinary16 : Flt := ⟨5, 10, 15, true, true⟩
def fmtBF16 : Flt := ⟨8, 7, 127, true, true⟩
def fmtE4M3 : Flt := ⟨4, 3, 7, false, true⟩
def fmtE5M2 : Flt := ⟨5, 2, 15, true, true⟩
def fmtE3M2 : Flt := ⟨3, 2, 3, false, false⟩
def fmtE2M3 : Flt := ⟨2, 3, 1, false, false⟩
def fmtE2M1 : Flt := ⟨2, 1, 1, false, false⟩

/-- The classes of format (R90). For a fixed-point format: its width, whether it is signed, the number of fraction
bits, and whether the bit A128 governs its lowest value (R96). -/
inductive Fmt where
  | flt (f : Flt)
  | fix (bits : Nat) (signed : Bool) (frac : Nat) (admits : Bool)
  | lns
deriving DecidableEq, Repr

/-- The format of each format code (R90). -/
def fmtOf (code : Nat) : Fmt :=
  match code with
  | 0 => .flt fmtBinary32
  | 1 => .flt fmtBinary16
  | 2 => .flt fmtBF16
  | 3 => .flt fmtE4M3
  | 4 => .flt fmtE5M2
  | 5 => .flt fmtE3M2
  | 6 => .flt fmtE2M3
  | 7 => .flt fmtE2M1
  | 8 => .fix 8 true 6 true
  | 9 => .fix 8 true 0 true
  | 10 => .fix 8 false 0 false
  | 11 => .fix 16 true 0 false
  | 12 => .fix 16 false 0 false
  | 13 => .fix 32 true 0 false
  | 14 => .lns
  | _ => .fix 16 true 12 false

/-- The scalar-only integer types (R90, R117). -/
def fmtInt64 : Fmt := .fix 64 true 0 false
def fmtUint64 : Fmt := .fix 64 false 0 false
def fmtUint32 : Fmt := .fix 32 false 0 false
def fmtInt32 : Fmt := .fix 32 true 0 false

/-- Bits of an element (R90). -/
def fmtBits (code : Nat) : Nat :=
  match code with
  | 0 => 32 | 1 => 16 | 2 => 16 | 3 => 8 | 4 => 8 | 5 => 6 | 6 => 6 | 7 => 4
  | 8 => 8 | 9 => 8 | 10 => 8 | 11 => 16 | 12 => 16 | 13 => 32 | 14 => 16 | _ => 16

/-- Two's complement reading of the low n bits of x. -/
def sgn (n x : Nat) : Int :=
  if x % 2 ^ n < 2 ^ (n - 1) then (x % 2 ^ n : Int) else (x % 2 ^ n : Int) - 2 ^ n

/-- The low n bits of an integer (R11: narrowing). -/
def low (n : Nat) (v : Int) : Nat := (v % (2 ^ n : Int)).toNat

/-! ### Reading a pattern at its value -/

/-- The reading of a floating-point pattern (R91, R92). -/
def readFlt (f : Flt) (x : Nat) : Num :=
  let m := x % 2 ^ f.mbits
  let e := x / 2 ^ f.mbits % 2 ^ f.ebits
  let neg := bit x (f.mbits + f.ebits)
  if f.hasInf && e == 2 ^ f.ebits - 1 then
    if m = 0 then .inf neg else .nan
  else if f.hasNan && !f.hasInf && e == 2 ^ f.ebits - 1 && m == 2 ^ f.mbits - 1 then .nan
  else
    let sig := if e = 0 then m else m + 2 ^ f.mbits
    let k := (if e = 0 then 1 else e)
    -- value sig * 2^(k - bias - mbits)
    if f.bias + f.mbits ≤ k then .fin neg (sig * 2 ^ (k - (f.bias + f.mbits))) 1
    else .fin neg sig (2 ^ (f.bias + f.mbits - k))

/-- The reading of a fixed-point or integer pattern (R96). -/
def readFix (bits : Nat) (signed : Bool) (frac x : Nat) : Num :=
  let k : Int := if signed then sgn bits x else (x % 2 ^ bits : Int)
  .fin (decide (k < 0)) k.natAbs (2 ^ frac)

/-- Position of the highest set bit of num / den: the integer e with 2^e ≤ num / den < 2^(e+1), num positive. -/
def floorLog2 (num den : Nat) : Int :=
  let e : Int := (Nat.log2 num : Int) - (Nat.log2 den : Int)
  -- 2^e ≤ num/den ?
  let ok := if 0 ≤ e then decide (den * 2 ^ e.toNat ≤ num) else decide (den ≤ num * 2 ^ (-e).toNat)
  if ok then e else e - 1

/-- The quotient num / den in units of 2^k, as a numerator and denominator. -/
def inUnits (num den : Nat) (k : Int) : Nat × Nat :=
  if 0 ≤ k then (num, den * 2 ^ k.toNat) else (num * 2 ^ (-k).toNat, den)

/-- Rounding the magnitude num / den to a multiple of the unit; the count of units and whether it was inexact (R104). -/
def roundCount (mode : RMode) (uni num den : Nat) : Nat × Bool :=
  let lo := num / den
  let r := num % den
  if r = 0 then (lo, false)
  else
    match mode with
    | .rtz => (lo, true)
    | .rne =>
      if 2 * r < den then (lo, true)
      else if den < 2 * r then (lo + 1, true)
      else (if lo % 2 = 0 then lo else lo + 1, true)
    | .sr => if uni < r * 2 ^ 32 / den then (lo + 1, true) else (lo, true)

/-- Largest c below 2^n with c^1024 ≤ b: the integer 1,024-th root, found from its top bit down. -/
def root1024 (b : Nat) : Nat → Nat → Nat
  | 0, acc => acc
  | n + 1, acc =>
    let c := acc + 2 ^ n
    if c ^ 1024 ≤ b then root1024 b n c else root1024 b n acc

/-- 2^(f/1024) for f below 1,024, rounded to binary32 by RNE: its 24-bit significand and whether it was inexact
(R108). The root is exact integer arithmetic; a tie cannot occur. -/
def pow2Frac (f : Nat) : Nat × Bool :=
  if f = 0 then (2 ^ 23, false)
  else
    let c := root1024 (2 ^ (f + 23 * 1024)) 24 0
    if (2 * c + 1) ^ 1024 < 2 ^ (f + 24 * 1024) then (c + 1, true) else (c, true)

/-- L of an LNS16 pattern (R97). -/
def lnsL (x : Nat) : Int := sgn 15 x

/-- The zero test of an LNS16 pattern (R97, R102). -/
def lnsZero (x : Nat) : Bool := lnsL x == -16384

/-- The reading of an LNS16 pattern through binary32 (R108), and whether that step was inexact. -/
def readLns (x : Nat) : Num × Bool :=
  let neg := bit x 15
  if lnsZero x then (.fin neg 0 1, false)
  else
    let l := lnsL x
    let i := l / 1024
    let (c, nx) := pow2Frac (l - 1024 * i).toNat
    let k := i - 23
    if 0 ≤ k then (.fin neg (c * 2 ^ k.toNat) 1, nx) else (.fin neg c (2 ^ (-k).toNat), nx)

/-- The reading of an element pattern of a format code, with the inexactness of an LNS16 source. -/
def readFmt (f : Fmt) (x : Nat) : Num × Bool :=
  match f with
  | .flt g => (readFlt g x, false)
  | .fix b s fr _ => (readFix b s fr x, false)
  | .lns => readLns x

def Num.isNan : Num → Bool
  | .nan => true
  | _ => false

def Num.isInf : Num → Bool
  | .inf _ => true
  | _ => false

def Num.isZero : Num → Bool
  | .fin _ n _ => n == 0
  | _ => false

def Num.neg : Num → Bool
  | .nan => false
  | .inf s => s
  | .fin s _ _ => s

/-- The value with its sign replaced. -/
def Num.withSign (s : Bool) : Num → Num
  | .nan => .nan
  | .inf _ => .inf s
  | .fin _ n d => .fin s n d

/-- The value as a signed numerator over its denominator. -/
def Num.snum : Num → Int
  | .fin s n _ => if s then -(n : Int) else n
  | _ => 0

def Num.den : Num → Nat
  | .fin _ _ d => d
  | _ => 1

/-! ### Writing a value into a format -/

/-- The NaN pattern the device writes (R91). -/
def fltNan (f : Flt) : Nat :=
  if f.hasInf then (2 ^ f.ebits - 1) * 2 ^ f.mbits + 2 ^ (f.mbits - 1)
  else if f.hasNan then 2 ^ (f.ebits + f.mbits) - 1
  else 0

/-- The magnitude pattern of the largest finite value (R91). -/
def fltMax (f : Flt) : Nat :=
  if f.hasInf then (2 ^ f.ebits - 1) * 2 ^ f.mbits - 1
  else if f.hasNan then 2 ^ (f.ebits + f.mbits) - 2
  else 2 ^ (f.ebits + f.mbits) - 1

/-- Putting a sign on a magnitude pattern. -/
def fltSign (f : Flt) (neg : Bool) (m : Nat) : Nat := m + b2n neg * 2 ^ (f.ebits + f.mbits)

/-- The overflow pattern and flags of a floating-point destination (R107). -/
def fltOver (f : Flt) (neg : Bool) (mode : RMode) : Res :=
  match mode with
  | .rtz => ⟨fltSign f neg (fltMax f), fNX⟩
  | _ => ⟨fltSign f neg (if f.hasInf then (2 ^ f.ebits - 1) * 2 ^ f.mbits else fltMax f), fOF + fNX⟩

/-- Conversion of a non-zero magnitude to a floating-point format (R104, R106). -/
def toFlt (f : Flt) (mode : RMode) (uni : Nat) (neg : Bool) (num den : Nat) : Res :=
  let emin : Int := 1 - f.bias
  let e := floorLog2 num den
  let k := max e emin - f.mbits
  let (n, d) := inUnits num den k
  let (c, nx) := roundCount mode uni n d
  let mag := c + (k - (emin - f.mbits)).toNat * 2 ^ f.mbits
  if fltMax f < mag then fltOver f neg mode
  else ⟨fltSign f neg mag, if nx then (if e < emin then fNX + fUF else fNX) else 0⟩

/-- The bound of a sign of a fixed-point destination, as a magnitude count (R96, R99). -/
def fixBound (bits : Nat) (signed admits a128 neg : Bool) : Nat :=
  if signed then
    if neg then (if admits && !a128 then 2 ^ (bits - 1) - 1 else 2 ^ (bits - 1)) else 2 ^ (bits - 1) - 1
  else if neg then 0 else 2 ^ bits - 1

/-- The pattern of a signed count. -/
def fixPat (bits : Nat) (neg : Bool) (c : Nat) : Nat :=
  if neg then (2 ^ bits - c % 2 ^ bits) % 2 ^ bits else c % 2 ^ bits

/-- Conversion of a magnitude to a fixed-point or integer format (R106, R107). -/
def toFix (bits : Nat) (signed : Bool) (frac : Nat) (admits a128 : Bool) (mode : RMode) (uni : Nat)
    (neg : Bool) (num den : Nat) : Res :=
  let (c, nx) := roundCount mode uni (num * 2 ^ frac) den
  let b := fixBound bits signed admits a128 neg
  if b < c then ⟨fixPat bits neg b, fSAT⟩
  else ⟨fixPat bits neg c, if nx then fNX else 0⟩

/-- The top n binary digits of log2 of x / 2^p, for x / 2^p in [1, 2), by repeated squaring with p fraction bits. -/
def log2Digits (p : Nat) : Nat → Nat → Nat → Nat
  | 0, _, acc => acc
  | n + 1, x, acc =>
    let y := x * x / 2 ^ p
    if 2 ^ (p + 1) ≤ y then log2Digits p n (y / 2) (2 * acc + 1) else log2Digits p n y (2 * acc)

/-- Is num / den a power of two? -/
def isPow2 (num den : Nat) : Bool :=
  let g := Nat.gcd num den
  decide (2 ^ Nat.log2 (num / g) = num / g ∧ 2 ^ Nat.log2 (den / g) = den / g)

/-- floor(1024 * log2(num / den) * 2^32) for a positive value: L* of R108 with 32 fraction bits. The digits come
from 256 fraction bits of working precision (assumption log 7). -/
def lnsLog (num den : Nat) : Int :=
  let e := floorLog2 num den
  let (n, d) := inUnits num den (e - 256)
  e * 2 ^ 42 + log2Digits 256 42 (n / d) 0

/-- The LNS16 pattern of a sign and L (R97). -/
def lnsPat (neg : Bool) (l : Int) : Nat := low 15 l + b2n neg * 2 ^ 15

/-- Placing a rounded L into LNS16 (R108). -/
def lnsPlace (neg : Bool) (l : Int) (nx : Bool) : Res :=
  if l ≤ -16384 then ⟨lnsPat neg (-16384), fUF + fNX⟩
  else if 16383 < l then ⟨lnsPat neg 16383, fOF + fNX⟩
  else ⟨lnsPat neg l, if nx then fNX else 0⟩

/-- Conversion of a non-zero magnitude to LNS16 (R108). For a value that is no power of two, L* is irrational, so it
is no integer and no tie. -/
def toLns (mode : RMode) (uni : Nat) (neg : Bool) (num den : Nat) : Res :=
  if isPow2 num den then lnsPlace neg (floorLog2 num den * 1024) false
  else
    let t := lnsLog num den
    let lo := t / 2 ^ 32
    let fr := (t - lo * 2 ^ 32).toNat
    match mode with
    | .rtz => lnsPlace neg lo true
    | .rne => lnsPlace neg (if 2 ^ 31 ≤ fr then lo + 1 else lo) true
    | .sr => lnsPlace neg (if uni < fr then lo + 1 else lo) true

/-- The zero of a sign in a format (R107). -/
def zeroOf (f : Fmt) (neg : Bool) : Nat :=
  match f with
  | .flt g => fltSign g neg 0
  | .fix _ _ _ _ => 0
  | .lns => lnsPat neg (-16384)

/-- The NaN case of R107. -/
def nanCase (f : Fmt) : Res :=
  match f with
  | .flt g => if g.hasNan then ⟨fltNan g, 0⟩ else ⟨0, fIV⟩
  | .fix _ _ _ _ => ⟨0, fIV⟩
  | .lns => ⟨0x4000, fIV⟩

/-- The infinity case of R107. -/
def infCase (f : Fmt) (a128 neg : Bool) : Res :=
  match f with
  | .flt g =>
    if g.hasInf then ⟨fltSign g neg ((2 ^ g.ebits - 1) * 2 ^ g.mbits), 0⟩
    else ⟨fltSign g neg (fltMax g), fOF + fNX⟩
  | .fix b s _ ad => ⟨fixPat b neg (fixBound b s ad a128 neg), fIV⟩
  | .lns => ⟨lnsPat neg 16383, fOF + fNX⟩

/-- The conversion procedure of R106. -/
def convertNum (f : Fmt) (mode : RMode) (uni : Nat) (a128 : Bool) (x : Num) : Res :=
  match x with
  | .nan => nanCase f
  | .inf s => infCase f a128 s
  | .fin s n d =>
    if n = 0 then ⟨zeroOf f s, 0⟩
    else
      match f with
      | .flt g => toFlt g mode uni s n d
      | .fix b sg fr ad => toFix b sg fr ad a128 mode uni s n d
      | .lns => toLns mode uni s n d

/-- Conversion of an element pattern between two formats; an LNS16 source passes through binary32, and NX is set if
either step is inexact (R108). Equal formats carry an LNS16 pattern over as it is (assumption log 8). -/
def convertPat (src dst : Fmt) (mode : RMode) (uni : Nat) (a128 : Bool) (x : Nat) : Res :=
  if src = .lns ∧ dst = .lns then ⟨x % 2 ^ 16, 0⟩
  else
    let (v, nx) := readFmt src x
    let r := convertNum dst mode uni a128 v
    if nx && r.flags &&& (fIV + fSAT) == 0 then ⟨r.pat, r.flags ||| fNX⟩ else r

/-- A signed rational as a value, a zero taking the sign given. -/
def numOfInt (zneg : Bool) (n : Int) (d : Nat) : Num :=
  .fin (if n = 0 then zneg else decide (n < 0)) n.natAbs d

/-- The sign of an exact zero sum (R406). -/
def zeroSumSign (signs : List Bool) (allZero : Bool) (mode : RMode) : Bool :=
  if allZero && (signs.all id || signs.all not) then signs.all id
  else match mode with
    | .rtz => true
    | _ => false

/-- The exact sum of a list of summands, with R406's zero and the invalid sum of opposite infinities; the value and
the flags (R110, R111). -/
def sumNums (mode : RMode) (xs : List Num) : Num × Nat :=
  if xs.any Num.isNan then (.nan, 0)
  else
    let infs := xs.filter Num.isInf
    if infs.isEmpty then
      let d := xs.foldl (fun acc x => acc * x.den / Nat.gcd acc x.den) 1
      let n : Int := xs.foldl (fun acc x => acc + x.snum * ((d / x.den : Nat) : Int)) 0
      (numOfInt (zeroSumSign (xs.map Num.neg) (xs.all Num.isZero) mode) n d, 0)
    else if infs.all Num.neg then (.inf true, 0)
    else if infs.any Num.neg then (.nan, fIV)
    else (.inf false, 0)

/-- The exact product of two values (R110: 0 times an infinity is invalid). -/
def mulNum (x y : Num) : Num × Nat :=
  let s := x.neg != y.neg
  if x.isNan || y.isNan then (.nan, 0)
  else if x.isInf || y.isInf then
    if x.isZero || y.isZero then (.nan, fIV) else (.inf s, 0)
  else
    match x, y with
    | .fin _ a b, .fin _ c d => (.fin s (a * c) (b * d), 0)
    | _, _ => (.nan, 0)

/-- Negation, the NaN kept. -/
def negNum (x : Num) : Num := x.withSign (!x.neg)

/-- The exact quotient of two values (R110). -/
def divNum (x y : Num) : Num × Nat :=
  let s := x.neg != y.neg
  if x.isNan || y.isNan then (.nan, 0)
  else if x.isInf then (if y.isInf then (.nan, fIV) else (.inf s, 0))
  else if y.isInf then (.fin s 0 1, 0)
  else if y.isZero then (if x.isZero then (.nan, fIV) else (.inf s, fDZ))
  else
    match x, y with
    | .fin _ a b, .fin _ c d => (.fin s (a * d) (b * c), 0)
    | _, _ => (.nan, 0)

/-- Integer square root, by its bits from the top down. -/
def isqrtGo (b : Nat) : Nat → Nat → Nat
  | 0, acc => acc
  | n + 1, acc =>
    let c := acc + 2 ^ n
    if c * c ≤ b then isqrtGo b n c else isqrtGo b n acc

def isqrt (b : Nat) : Nat := isqrtGo b (Nat.log2 b / 2 + 1) 0

/-- The square root rounded once into binary32 by RNE or RTZ (R127). The root of num / den is taken with 64 spare
bits and a sticky bit, which decides both modes exactly. -/
def sqrtRes (mode : RMode) (x : Num) : Res :=
  match x with
  | .nan => ⟨fltNan fmtBinary32, 0⟩
  | .inf s => if s then ⟨fltNan fmtBinary32, fIV⟩ else ⟨0x7F800000, 0⟩
  | .fin s n d =>
    if n = 0 then ⟨fltSign fmtBinary32 s 0, 0⟩
    else if s then ⟨fltNan fmtBinary32, fIV⟩
    else
      let a := n * d * 2 ^ 640
      let r := isqrt a
      -- sqrt(n/d) = sqrt(a) / (d * 2^320); a sticky half-unit when the root is not exact
      let r2 := 2 * r + (if r * r = a then 0 else 1)
      toFlt fmtBinary32 mode 0 false r2 (d * 2 ^ 321)

/-- Rounding an exact result with its operation's own flags: an invalid result is the format's NaN with IV. -/
def finish (f : Fmt) (mode : RMode) (uni : Nat) (a128 : Bool) (v : Num × Nat) : Res :=
  if v.2 &&& fIV ≠ 0 then
    ⟨(nanCase f).pat, fIV⟩
  else
    let r := convertNum f mode uni a128 v.1
    ⟨r.pat, r.flags ||| v.2⟩

/-- Is x below y, −0 below +0 where zeros count as ordered (R127's FMIN)? Both are neither NaN. -/
def ltNum (zeros : Bool) (x y : Num) : Bool :=
  match x, y with
  | .nan, _ => false
  | _, .nan => false
  | .inf s, .inf t => s && !t
  | .inf s, .fin .. => s
  | .fin .., .inf t => !t
  | .fin s a b, .fin t c d =>
    if a = 0 ∧ c = 0 then zeros && s && !t
    else decide ((Num.fin s a b).snum * (d : Int) < (Num.fin t c d).snum * (b : Int))

def eqNum (x y : Num) : Bool := !x.isNan && !y.isNan && !ltNum false x y && !ltNum false y x

/-- The zero detector of R102 on an element pattern. -/
def isZeroPat (f : Fmt) (x : Nat) : Bool := (readFmt f x).1.isZero

/-- The non-finite detector of R102 on an element pattern. -/
def isNonFinite (f : Fmt) (x : Nat) : Bool :=
  match f with
  | .flt g => match readFlt g x with
    | .fin .. => false
    | _ => true
  | _ => false

end Sys2Proof.Machine
end

