-- ==== Sys2Proof/Machine/Keyed.lean ====
section
/-!
DEFINITION. The keyed generator (R112, R113) and the Gaussian of R114.
-/

namespace Sys2Proof.Machine

/-- One round of keyed_mix on (x0, x1, x2, x3, k0, k1), each below 2^32 (R112). -/
def mixRound (t : Nat × Nat × Nat × Nat × Nat × Nat) : Nat × Nat × Nat × Nat × Nat × Nat :=
  let (x0, x1, x2, x3, k0, k1) := t
  let pa := x0 * 0xD2B74407
  let pb := x2 * 0xC2B2AE35
  (Nat.xor (Nat.xor (pb / 2 ^ 32) x1) k0, pb % 2 ^ 32, Nat.xor (Nat.xor (pa / 2 ^ 32) x3) k1, pa % 2 ^ 32,
    (k0 + 0x9E3779B9) % 2 ^ 32, (k1 + 0x7F4A7C15) % 2 ^ 32)

/-- The 32-bit uniform of a key (R112). -/
def keyedMix (seed stream member index : Nat) : Nat :=
  let t := (mixRound ∘ mixRound ∘ mixRound ∘ mixRound ∘ mixRound ∘ mixRound ∘ mixRound ∘ mixRound)
    (fld index 0 32, member % 2 ^ 16 * 2 ^ 16 + fld index 32 16, stream % 2 ^ 32, 0x6A09E667,
      fld seed 0 32, fld seed 32 32)
  Nat.xor t.1 t.2.2.2.1

/-- The member reserved to rounding (R105). -/
def roundMember : Nat := 0xFFFF

/-- The uniform of a stochastic rounding (R105). -/
def roundUni (seed stream index : Nat) : Nat := keyedMix seed stream roundMember index

/-- The binary32 pattern of (U >> 8) * 2^-24 (R113). -/
def uniBinary32 (u : Nat) : Nat :=
  (convertNum (.flt fmtBinary32) .rne 0 false (.fin false (u / 2 ^ 8) (2 ^ 24))).pat

/-- The Gaussian of a uniform through a table T of 768 entries (R114): the s3.12 pattern, with SAT if it clamps. -/
def gauss (T : Nat → Nat) (u : Nat) : Res :=
  let j := fld u 23 8
  let n : Int := 3 * (2 * (fld u 0 23 : Int) + 1) - 3 * 2 ^ 23          -- s = n / 2^24
  let y0 := sgn 32 (T (3 * j))
  let y1 := sgn 32 (T (3 * j + 1))
  let y2 := sgn 32 (T (3 * j + 2))
  -- P in units of 2^-77
  let p : Int := y1 * 2 ^ 49 + n * (y2 - y0) * 2 ^ 24 + n * n * (y2 - 2 * y1 + y0)
  let c := (roundCount .rne 0 p.natAbs (2 ^ 65)).1
  let neg := decide (p < 0) != bit u 31
  let b := if neg then 32768 else 32767
  if b < c then ⟨fixPat 16 neg b, fSAT⟩ else ⟨fixPat 16 neg c, 0⟩

end Sys2Proof.Machine
end

