-- ==== Sys2Proof/Config.lean ====
section
/-!
DEFINITION. What an implementation fixes and what the spec leaves open. A constant here with no body is a free value:
nothing in Lean can evaluate it or prove a value of it, so a statement about it holds for every value (R12,
assumption log 2).
-/

namespace Sys2Proof

/-- The k-th free choice of a run, drawn by State.draw. -/
opaque Config.freeNat : Nat → Nat

/-- The choices that an implementation makes where a lockstep program may not see one run differ from another (R284, R307): a
fixed function of the command's own progress (assumption log 5). -/
opaque Config.fixedChoice : List Nat → Nat

/-- The set of a translation buffer (0 of a core, 1 of a die) that holds a page of a context (R353; assumption log 16). -/
opaque Config.tlbSet : Nat → Nat → Nat → Nat

/-- The place, below 10, of a stop of a die's mesh that is no cluster: columns 0 to 4 of row 0, then those of row 3 (R350;
assumption log 10). The Ridar port of die d is numbered 20 + d, the controller of device stack k 22 + k, the fabric ports of die
d 30 + d, the walkers of die d 32 + d. -/
opaque Config.stopPlace : Nat → Nat

/-- The flits of a request beside its data (R302; assumption log 10). -/
opaque Config.requestFlits : Nat

/-- The byte at an address of a memory whose contents are indeterminate (R12, R20, R292), for each filling e. -/
opaque Config.freeByte : Nat → Nat → W8

/-- An indeterminate cell of the stationary weight banks (R20), for each filling e. -/
opaque Config.freeWeight : Nat → Nat → W16

/-- SHA-384 over a byte list (R374): a fixed function of its input whose values this spec does not give. -/
opaque Config.sha384 : List W8 → List W8

/-- Verification of an ECDSA P-384 signature: key digest, message digest, signature (R375). -/
opaque Config.ecdsaOk : List W8 → List W8 → List W8 → Bool

/-- The signature of data under a P-384 device key in a measurement response (R377, assumption log 103). -/
opaque Config.spdmSign : List W8 → List W8 → List W8

/-- Verification of an LMS signature: key digest, message digest, signature (R375). -/
opaque Config.lmsOk : List W8 → List W8 → List W8 → Bool

/-- The target-core mask, base offset and size of a multicast window entry (R254): the spec gives the fields and not
their places in the 16 bytes (assumption log 12). -/
opaque Config.mcMask : W128 → Nat
opaque Config.mcBase : W128 → Nat
opaque Config.mcSize : W128 → Nat

/-- The mailbox command and its argument that a value of the command register stands for (R376): the spec gives the
commands and not their codes (assumption log 30). -/
opaque Config.mailCommand : Nat → Nat
opaque Config.mailArgument : Nat → Nat

/-- Where the boot flash holds the image of a type (R374, R377): the spec gives the image and not its place (assumption
log 31). -/
opaque Config.imagePlace : Nat → Nat

end Sys2Proof
end

