-- ==== Sys2Proof/Machine/Cells.lean ====
section
/-!
DEFINITION. Numbered cells held sparsely, and byte memories in canonical form (R8, R348).
-/

namespace Sys2Proof.Machine

/-- Values by number. A number not listed has the value its reader names. -/
abbrev Cells (α : Type) := List (Nat × α)

/-- The value of number k, d where k is not listed. -/
def Cells.get {α : Type} (d : α) (k : Nat) : Cells α → α
  | [] => d
  | (j, w) :: r => if k = j then w else Cells.get d k r

/-- Is number k listed? -/
def Cells.has {α : Type} (k : Nat) : Cells α → Bool
  | [] => false
  | (j, _) :: r => if k = j then true else Cells.has k r

/-- Setting number k, the list kept in rising order. -/
def Cells.put {α : Type} (k : Nat) (v : α) : Cells α → Cells α
  | [] => [(k, v)]
  | (j, w) :: r =>
    if k = j then (k, v) :: r
    else if k < j then (k, v) :: (j, w) :: r
    else (j, w) :: Cells.put k v r

/-- Removing number k. -/
def Cells.del {α : Type} (k : Nat) (c : Cells α) : Cells α := c.filter fun x => x.1 != k

/-- A byte memory: what its unlisted addresses read as (0, or the free bytes of a filling) and its listed bytes. -/
structure Mem where
  fill  : Nat
  cells : List Host.Cell
deriving DecidableEq, Repr

/-- A memory that reads as zero everywhere (R377). -/
def Mem.zero : Mem := ⟨0, []⟩

/-- What an unlisted address reads as: zero after the clearing of boot (R377), or an indeterminate byte (R12). -/
def Mem.dflt (m : Mem) (a : Nat) : W8 := if m.fill = 0 then 0 else Config.freeByte m.fill a

def lookupByte (d : W8) (a : Nat) : List Host.Cell → W8
  | [] => d
  | (b, v) :: r => if a = b then v else if a < b then d else lookupByte d a r

/-- Placing a byte in the list, or taking its entry out where the byte is what an unlisted address reads as. -/
def placeByte (d : W8) (a : Nat) (v : W8) : List Host.Cell → List Host.Cell
  | [] => if v = d then [] else [(a, v)]
  | (b, w) :: r =>
    if a = b then (if v = d then r else (a, v) :: r)
    else if a < b then (if v = d then (b, w) :: r else (a, v) :: (b, w) :: r)
    else (b, w) :: placeByte d a v r

/-- The byte at an address. -/
def Mem.read (m : Mem) (a : Nat) : W8 := lookupByte (m.dflt a) a m.cells

/-- Writing one byte, the canonical form kept. -/
def Mem.write (m : Mem) (a : Nat) (v : W8) : Mem := { m with cells := placeByte (m.dflt a) a v m.cells }

/-- n bytes from address a upward. -/
def Mem.bytes (m : Mem) (a : Nat) : Nat → List W8
  | 0 => []
  | n + 1 => m.read a :: m.bytes (a + 1) n

/-- A byte list as a number, lowest address first (R8). -/
def joinBytes : List W8 → Nat
  | [] => 0
  | b :: r => b.toNat + 256 * joinBytes r

/-- The n low bytes of a number, lowest first (R8). -/
def splitBytes (v : Nat) : Nat → List W8
  | 0 => []
  | n + 1 => BitVec.ofNat 8 v :: splitBytes (v / 256) n

/-- The n-byte little-endian number at address a (R8). -/
def Mem.readN (m : Mem) (a n : Nat) : Nat := joinBytes (m.bytes a n)

/-- Writing a byte list from address a upward. -/
def Mem.writeBytes (m : Mem) (a : Nat) : List W8 → Mem
  | [] => m
  | b :: r => (m.write a b).writeBytes (a + 1) r

/-- Writing the n low bytes of v at address a (R8). -/
def Mem.writeN (m : Mem) (a n v : Nat) : Mem := m.writeBytes a (splitBytes v n)

/-- Are the addresses of a list strictly rising, each above lo where a lower bound is given? -/
def rising : Option Nat → List Host.Cell → Bool
  | _, [] => true
  | none, (b, _) :: r => rising (some b) r
  | some lo, (b, _) :: r => decide (lo < b) && rising (some b) r

/-- The canonical form: addresses strictly rising, and no entry equal to what its address would read as unlisted. -/
abbrev Mem.wf (m : Mem) : Prop := rising none m.cells = true ∧ ∀ c ∈ m.cells, c.2 ≠ m.dflt c.1

end Sys2Proof.Machine
end

