-- ==== Sys2Proof/Machine/Tables.lean ====
section
/-!
DEFINITION. The contents that the Gaussian table (R115) and the log-add table (R175) hold at device reset and at
kernel start: each entry the exact real value of its formula rounded once, worked out from that formula.
-/

namespace Sys2Proof.Machine

def gaussReset0 : List Nat :=
  [0x368CEED0, 0x318E6A05, 0x2F14AFB0, 0x2D636559, 0x2C16BA6A, 0x2B07221F, 0x2A20C01C, 0x295824EA,
   0x28A61BAE, 0x2805CC62, 0x2773CC2F, 0x26ED9A18, 0x267151FF, 0x25FD7D05, 0x2590F2C9, 0x252AC4C7,
   0x24CA301F, 0x246E9377, 0x241767AC, 0x23C43A63, 0x2374A9F3, 0x23286248, 0x22DF1A77, 0x229892D1,
   0x22549368, 0x2212EAD1, 0x21D36D2C, 0x2195F356, 0x215A5A3E, 0x21208258, 0x20E84F27, 0x20B1A6DC]

def gaussReset1 : List Nat :=
  [0x207C7202, 0x20489B32, 0x20160EDE, 0x1FE4BB14, 0x1FB48F58, 0x1F857C78, 0x1F57746B, 0x1F2A6A37,
   0x1EFE51CF, 0x1ED32003, 0x1EA8CA69, 0x1E7F474B, 0x1E568D96, 0x1E2E94CE, 0x1E075500, 0x1DE0C6B7,
   0x1DBAE2EF, 0x1D95A311, 0x1D7100E7, 0x1D4CF696, 0x1D297E96, 0x1D0693AC, 0x1CE430E5, 0x1CC25192,
   0x1CA0F142, 0x1C800BBC, 0x1C5F9CFE, 0x1C3FA139, 0x1C2014CD, 0x1C00F445, 0x1BE23C56, 0x1BC3E9DC]

def gaussReset2 : List Nat :=
  [0x1BA5F9D8, 0x1B88696B, 0x1B6B35D8, 0x1B4E5C80, 0x1B31DAE1, 0x1B15AE93, 0x1AF9D548, 0x1ADE4CC9,
   0x1AC312F8, 0x1AA825CA, 0x1A8D834A, 0x1A732996, 0x1A5916DF, 0x1A3F4966, 0x1A25BF7D, 0x1A0C7787,
   0x19F36FF3, 0x19DAA743, 0x19C21C01, 0x19A9CCC9, 0x1991B83F, 0x1979DD16, 0x19623A0B, 0x194ACDE5,
   0x19339777, 0x191C959C, 0x1905C73A, 0x18EF2B3E, 0x18D8C09F, 0x18C2865D, 0x18AC7B7E, 0x18969F11]

def gaussReset3 : List Nat :=
  [0x1880F02C, 0x186B6DEA, 0x18561770, 0x1840EBE8, 0x182BEA80, 0x18171271, 0x180262F4, 0x17EDDB4B,
   0x17D97ABD, 0x17C54096, 0x17B12C25, 0x179D3CBF, 0x178971C0, 0x1775CA84, 0x1762466F, 0x174EE4E6,
   0x173BA555, 0x17288729, 0x171589D5, 0x1702ACCE, 0x16EFEF8C, 0x16DD518D, 0x16CAD250, 0x16B87156,
   0x16A62E27, 0x1694084B, 0x1681FF4C, 0x167012BA, 0x165E4224, 0x164C8D1E, 0x163AF33E, 0x1629741D]

def gaussReset4 : List Nat :=
  [0x16180F53, 0x1606C480, 0x15F59340, 0x15E47B36, 0x15D37C05, 0x15C29552, 0x15B1C6C4, 0x15A11004,
   0x159070BD, 0x157FE89C, 0x156F7750, 0x155F1C87, 0x154ED7F4, 0x153EA94B, 0x152E9040, 0x151E8C8A,
   0x150E9DE1, 0x14FEC3FD, 0x14EEFE9A, 0x14DF4D73, 0x14CFB047, 0x14C026D3, 0x14B0B0D8, 0x14A14E16,
   0x1491FE51, 0x1482C14B, 0x147396CA, 0x14647E92, 0x1455786B, 0x1446841D, 0x1437A170, 0x1428D02E]

def gaussReset5 : List Nat :=
  [0x141A1022, 0x140B6118, 0x13FCC2DD, 0x13EE353D, 0x13DFB809, 0x13D14B0E, 0x13C2EE1D, 0x13B4A108,
   0x13A6639F, 0x139835B7, 0x138A1721, 0x137C07B2, 0x136E073F, 0x1360159D, 0x135232A4, 0x13445E29,
   0x13369804, 0x1328E00E, 0x131B361F, 0x130D9A11, 0x13000BBE, 0x12F28B02, 0x12E517B6, 0x12D7B1B8,
   0x12CA58E3, 0x12BD0D15, 0x12AFCE2B, 0x12A29C03, 0x1295767C, 0x12885D75, 0x127B50CE, 0x126E5066]

def gaussReset6 : List Nat :=
  [0x12615C1F, 0x125473D9, 0x12479775, 0x123AC6D7, 0x122E01DF, 0x12214872, 0x12149A71, 0x1207F7C1,
   0x11FB6046, 0x11EED3E5, 0x11E25281, 0x11D5DC01, 0x11C97049, 0x11BD0F41, 0x11B0B8CD, 0x11A46CD6,
   0x11982B41, 0x118BF3F7, 0x117FC6DE, 0x1173A3E0, 0x11678AE4, 0x115B7BD3, 0x114F7696, 0x11437B16,
   0x1137893E, 0x112BA0F6, 0x111FC229, 0x1113ECC1, 0x110820A9, 0x10FC5DCD, 0x10F0A417, 0x10E4F373]

def gaussReset7 : List Nat :=
  [0x10D94BCD, 0x10CDAD10, 0x10C2172A, 0x10B68A07, 0x10AB0593, 0x109F89BC, 0x1094166E, 0x1088AB98,
   0x107D4927, 0x1071EF09, 0x10669D2C, 0x105B537F, 0x105011F0, 0x1044D86E, 0x1039A6E8, 0x102E7D4E,
   0x10235B8E, 0x10184199, 0x100D2F5D, 0x100224CC, 0x0FF721D5, 0x0FEC2669, 0x0FE13278, 0x0FD645F4,
   0x0FCB60CC, 0x0FC082F2, 0x0FB5AC57, 0x0FAADCED, 0x0FA014A5, 0x0F955370, 0x0F8A9942, 0x0F7FE60C]

def gaussReset8 : List Nat :=
  [0x0F7539C0, 0x0F6A9450, 0x0F5FF5AF, 0x0F555DD0, 0x0F4ACCA5, 0x0F404221, 0x0F35BE38, 0x0F2B40DD,
   0x0F20CA03, 0x0F16599D, 0x0F0BEF9F, 0x0F018BFE, 0x0EF72EAC, 0x0EECD79E, 0x0EE286C8, 0x0ED83C1F,
   0x0ECDF796, 0x0EC3B922, 0x0EB980B8, 0x0EAF4E4D, 0x0EA521D5, 0x0E9AFB45, 0x0E90DA93, 0x0E86BFB4,
   0x0E7CAA9C, 0x0E729B42, 0x0E68919B, 0x0E5E8D9C, 0x0E548F3C, 0x0E4A9670, 0x0E40A32D, 0x0E36B56B]

def gaussReset9 : List Nat :=
  [0x0E2CCD1F, 0x0E22EA40, 0x0E190CC3, 0x0E0F349F, 0x0E0561CB, 0x0DFB943D, 0x0DF1CBEC, 0x0DE808CF,
   0x0DDE4ADC, 0x0DD4920B, 0x0DCADE52, 0x0DC12FA9, 0x0DB78606, 0x0DADE162, 0x0DA441B4, 0x0D9AA6F2,
   0x0D911114, 0x0D878013, 0x0D7DF3E5, 0x0D746C83, 0x0D6AE9E5, 0x0D616C01, 0x0D57F2D0, 0x0D4E7E4B,
   0x0D450E69, 0x0D3BA323, 0x0D323C70, 0x0D28DA4A, 0x0D1F7CA8, 0x0D162383, 0x0D0CCED3, 0x0D037E92]

def gaussReset10 : List Nat :=
  [0x0CFA32B7, 0x0CF0EB3C, 0x0CE7A819, 0x0CDE6947, 0x0CD52EBF, 0x0CCBF87A, 0x0CC2C671, 0x0CB9989D,
   0x0CB06EF7, 0x0CA74979, 0x0C9E281B, 0x0C950AD8, 0x0C8BF1A8, 0x0C82DC84, 0x0C79CB67, 0x0C70BE4A,
   0x0C67B526, 0x0C5EAFF6, 0x0C55AEB2, 0x0C4CB154, 0x0C43B7D7, 0x0C3AC234, 0x0C31D066, 0x0C28E265,
   0x0C1FF82C, 0x0C1711B5, 0x0C0E2EFA, 0x0C054FF6, 0x0BFC74A2, 0x0BF39CF9, 0x0BEAC8F5, 0x0BE1F890]

def gaussReset11 : List Nat :=
  [0x0BD92BC5, 0x0BD0628D, 0x0BC79CE5, 0x0BBEDAC5, 0x0BB61C29, 0x0BAD610B, 0x0BA4A966, 0x0B9BF534,
   0x0B934471, 0x0B8A9716, 0x0B81ED1F, 0x0B794686, 0x0B70A347, 0x0B68035C, 0x0B5F66C0, 0x0B56CD6F,
   0x0B4E3762, 0x0B45A496, 0x0B3D1505, 0x0B3488AA, 0x0B2BFF82, 0x0B237986, 0x0B1AF6B2, 0x0B127701,
   0x0B09FA6F, 0x0B0180F6, 0x0AF90A93, 0x0AF09741, 0x0AE826FB, 0x0ADFB9BC, 0x0AD74F81, 0x0ACEE844]

def gaussReset12 : List Nat :=
  [0x0AC68401, 0x0ABE22B4, 0x0AB5C459, 0x0AAD68EA, 0x0AA51064, 0x0A9CBAC3, 0x0A946802, 0x0A8C181D,
   0x0A83CB0F, 0x0A7B80D5, 0x0A73396A, 0x0A6AF4CB, 0x0A62B2F3, 0x0A5A73DF, 0x0A523789, 0x0A49FDEE,
   0x0A41C70B, 0x0A3992DB, 0x0A31615A, 0x0A293285, 0x0A210657, 0x0A18DCCC, 0x0A10B5E2, 0x0A089194,
   0x0A006FDE, 0x09F850BC, 0x09F0342B, 0x09E81A28, 0x09E002AE, 0x09D7EDB9, 0x09CFDB47, 0x09C7CB53]

def gaussReset13 : List Nat :=
  [0x09BFBDDB, 0x09B7B2DA, 0x09AFAA4C, 0x09A7A42F, 0x099FA07F, 0x09979F38, 0x098FA057, 0x0987A3D9,
   0x097FA9BA, 0x0977B1F7, 0x096FBC8C, 0x0967C976, 0x095FD8B1, 0x0957EA3B, 0x094FFE11, 0x0948142E,
   0x09402C8F, 0x09384732, 0x09306414, 0x09288330, 0x0920A484, 0x0918C80D, 0x0910EDC7, 0x090915B0,
   0x09013FC4, 0x08F96C00, 0x08F19A62, 0x08E9CAE6, 0x08E1FD89, 0x08DA3248, 0x08D26920, 0x08CAA20E]

def gaussReset14 : List Nat :=
  [0x08C2DD10, 0x08BB1A22, 0x08B35942, 0x08AB9A6C, 0x08A3DD9D, 0x089C22D4, 0x08946A0C, 0x088CB343,
   0x0884FE77, 0x087D4BA4, 0x08759AC8, 0x086DEBDF, 0x08663EE8, 0x085E93DF, 0x0856EAC1, 0x084F438D,
   0x08479E3F, 0x083FFAD4, 0x0838594A, 0x0830B99F, 0x08291BCF, 0x08217FD8, 0x0819E5B7, 0x08124D6A,
   0x080AB6EE, 0x08032241, 0x07FB8F60, 0x07F3FE48, 0x07EC6EF7, 0x07E4E16B, 0x07DD55A0, 0x07D5CB95]

def gaussReset15 : List Nat :=
  [0x07CE4347, 0x07C6BCB4, 0x07BF37D8, 0x07B7B4B2, 0x07B0333F, 0x07A8B37D, 0x07A13569, 0x0799B902,
   0x07923E43, 0x078AC52C, 0x07834DBA, 0x077BD7EA, 0x077463BB, 0x076CF129, 0x07658033, 0x075E10D6,
   0x0756A310, 0x074F36DE, 0x0747CC3F, 0x07406330, 0x0738FBAF, 0x073195BA, 0x072A314E, 0x0722CE69,
   0x071B6D09, 0x07140D2C, 0x070CAED0, 0x070551F2, 0x06FDF691, 0x06F69CA9, 0x06EF443A, 0x06E7ED40]

def gaussReset16 : List Nat :=
  [0x06E097BA, 0x06D943A6, 0x06D1F102, 0x06CA9FCB, 0x06C34FFF, 0x06BC019C, 0x06B4B4A1, 0x06AD690B,
   0x06A61ED8, 0x069ED606, 0x06978E93, 0x0690487D, 0x068903C2, 0x0681C060, 0x067A7E55, 0x06733D9F,
   0x066BFE3D, 0x0664C02B, 0x065D8368, 0x065647F3, 0x064F0DC9, 0x0647D4E8, 0x06409D4E, 0x063966FA,
   0x063231EA, 0x062AFE1B, 0x0623CB8C, 0x061C9A3B, 0x06156A25, 0x060E3B4A, 0x06070DA7, 0x05FFE13B]

def gaussReset17 : List Nat :=
  [0x05F8B602, 0x05F18BFD, 0x05EA6329, 0x05E33B83, 0x05DC150B, 0x05D4EFBE, 0x05CDCB9B, 0x05C6A89F,
   0x05BF86CA, 0x05B86618, 0x05B14689, 0x05AA281B, 0x05A30ACC, 0x059BEE9A, 0x0594D383, 0x058DB986,
   0x0586A0A1, 0x057F88D2, 0x05787217, 0x05715C6F, 0x056A47D8, 0x05633451, 0x055C21D7, 0x05551069,
   0x054E0005, 0x0546F0AA, 0x053FE256, 0x0538D507, 0x0531C8BB, 0x052ABD72, 0x0523B328, 0x051CA9DD]

def gaussReset18 : List Nat :=
  [0x0515A190, 0x050E9A3D, 0x050793E4, 0x05008E83, 0x04F98A19, 0x04F286A4, 0x04EB8421, 0x04E48291,
   0x04DD81F0, 0x04D6823E, 0x04CF8378, 0x04C8859E, 0x04C188AE, 0x04BA8CA6, 0x04B39184, 0x04AC9748,
   0x04A59DEE, 0x049EA577, 0x0497ADE0, 0x0490B728, 0x0489C14D, 0x0482CC4E, 0x047BD829, 0x0474E4DD,
   0x046DF268, 0x046700C9, 0x04600FFE, 0x04592005, 0x045230DE, 0x044B4286, 0x044454FD, 0x043D6840]

def gaussReset19 : List Nat :=
  [0x04367C4F, 0x042F9127, 0x0428A6C7, 0x0421BD2F, 0x041AD45B, 0x0413EC4C, 0x040D04FF, 0x04061E73,
   0x03FF38A6, 0x03F85398, 0x03F16F46, 0x03EA8BB0, 0x03E3A8D3, 0x03DCC6AE, 0x03D5E541, 0x03CF0489,
   0x03C82485, 0x03C14534, 0x03BA6694, 0x03B388A4, 0x03ACAB62, 0x03A5CECD, 0x039EF2E4, 0x039817A6,
   0x03913D10, 0x038A6322, 0x038389DA, 0x037CB137, 0x0375D937, 0x036F01D9, 0x03682B1C, 0x036154FE]

def gaussReset20 : List Nat :=
  [0x035A7F7E, 0x0353AA9A, 0x034CD652, 0x034602A3, 0x033F2F8E, 0x03385D0F, 0x03318B26, 0x032AB9D2,
   0x0323E910, 0x031D18E1, 0x03164942, 0x030F7A32, 0x0308ABB0, 0x0301DDBB, 0x02FB1050, 0x02F44370,
   0x02ED7718, 0x02E6AB48, 0x02DFDFFD, 0x02D91537, 0x02D24AF5, 0x02CB8134, 0x02C4B7F4, 0x02BDEF34,
   0x02B726F2, 0x02B05F2D, 0x02A997E3, 0x02A2D114, 0x029C0ABD, 0x029544DE, 0x028E7F76, 0x0287BA83]

def gaussReset21 : List Nat :=
  [0x0280F604, 0x027A31F8, 0x02736E5D, 0x026CAB32, 0x0265E876, 0x025F2627, 0x02586445, 0x0251A2CE,
   0x024AE1C0, 0x0244211C, 0x023D60DE, 0x0236A107, 0x022FE194, 0x02292285, 0x022263D8, 0x021BA58D,
   0x0214E7A1, 0x020E2A13, 0x02076CE4, 0x0200B010, 0x01F9F397, 0x01F33778, 0x01EC7BB1, 0x01E5C041,
   0x01DF0528, 0x01D84A63, 0x01D18FF2, 0x01CAD5D3, 0x01C41C05, 0x01BD6287, 0x01B6A958, 0x01AFF076]

def gaussReset22 : List Nat :=
  [0x01A937E0, 0x01A27F95, 0x019BC794, 0x01950FDC, 0x018E586B, 0x0187A141, 0x0180EA5B, 0x017A33B9,
   0x01737D5A, 0x016CC73C, 0x0166115E, 0x015F5BBF, 0x0158A65E, 0x0151F13A, 0x014B3C51, 0x014487A2,
   0x013DD32C, 0x01371EEE, 0x01306AE6, 0x0129B714, 0x01230376, 0x011C500C, 0x01159CD3, 0x010EE9CB,
   0x010836F2, 0x01018447, 0x00FAD1CA, 0x00F41F79, 0x00ED6D52, 0x00E6BB55, 0x00E00981, 0x00D957D3]

def gaussReset23 : List Nat :=
  [0x00D2A64C, 0x00CBF4E9, 0x00C543AB, 0x00BE928E, 0x00B7E193, 0x00B130B8, 0x00AA7FFD, 0x00A3CF5F,
   0x009D1EDD, 0x00966E77, 0x008FBE2C, 0x00890DF9, 0x00825DDF, 0x007BADDB, 0x0074FDED, 0x006E4E13,
   0x00679E4C, 0x0060EE98, 0x005A3EF5, 0x00538F61, 0x004CDFDC, 0x00463064, 0x003F80F9, 0x0038D198,
   0x00322242, 0x002B72F4, 0x0024C3AE, 0x001E146E, 0x00176534, 0x0010B5FE, 0x000A06CA, 0x00035799]

/-- The Gaussian table of R115: entry 3j + i is round_rne(inverse normal(1 - (j + (2i + 1)/6)/512), 2^-28). -/
def gaussReset : List Nat :=
  gaussReset0 ++ gaussReset1 ++ gaussReset2 ++ gaussReset3 ++ gaussReset4 ++ gaussReset5 ++
  gaussReset6 ++ gaussReset7 ++ gaussReset8 ++ gaussReset9 ++ gaussReset10 ++ gaussReset11 ++
  gaussReset12 ++ gaussReset13 ++ gaussReset14 ++ gaussReset15 ++ gaussReset16 ++ gaussReset17 ++
  gaussReset18 ++ gaussReset19 ++ gaussReset20 ++ gaussReset21 ++ gaussReset22 ++ gaussReset23

def logAddReset0 : List Nat :=
  [0x4000F8B1, 0x3161FA07, 0x2570FB42, 0x1BF4FC53, 0x149AFD37, 0x0F08FDEC, 0x0AE0FE79, 0x07D2FEE3,
   0x0599FF33, 0x03FEFF6D, 0x02D7FF97, 0x0205FFB5, 0x016EFFCB, 0x0104FFDA, 0x00B8FFE5, 0x0082FFED,
   0x005CFFF3, 0x0041FFF6, 0x002EFFF9, 0x0021FFFB, 0x0017FFFD, 0x0010FFFE, 0x000CFFFE, 0x0008FFFF,
   0x0006FFFF, 0x0004FFFF, 0x00030000, 0x00020000, 0x00010000, 0x00010000, 0x00010000, 0x00010000]

def logAddReset1 : List Nat :=
  [0x8E9F18B1, 0xC0000BDC, 0xD7B806DC, 0xE570044D, 0xEE0A02D1, 0xF3AC01E4, 0xF775014B, 0xFA0A00E5,
   0xFBD4009F, 0xFD12006F, 0xFDF0004E, 0xFE8C0037, 0xFEF90027, 0xFF47001B, 0xFF7D0013, 0xFFA3000E,
   0xFFBF000A, 0xFFD20007, 0xFFDF0005, 0xFFE90003, 0xFFF00002, 0xFFF40002, 0xFFF80001, 0xFFFA0001,
   0xFFFC0001, 0xFFFD0000, 0xFFFE0000, 0xFFFF0000, 0xFFFF0000, 0xFFFF0000, 0xFFFF0000, 0x00000000]

/-- The log-add table of R175, C0 in the high half and C1 in the low half of each entry. -/
def logAddReset : List Nat :=
  logAddReset0 ++ logAddReset1

end Sys2Proof.Machine
end

