-- ==== Sys2Proof/Syntax.lean ====
section
/-!
DEFINITION. The one inductive of the PG2-384's steps: a constructor for every row of spec/opcode_table.json.
Slot words (R65, R87) carry the fields of their row, named as the table names them: registers and immediates as
natural numbers as they stand in the word, single bits as Bool. Micro-operations (R220, R221) carry the fields
their row of R221 lists. Events carry the unit they happen to (p: global partition index, n: logical core,
k: context or kernel, c: command, cl: cluster) or what the outside supplies.
-/

namespace Sys2Proof

/-- What a system-core hart asks of memory (R282). -/
inductive HartOp where
  | load | store | loadReserved | storeConditional
  | amo (op : Nat)
  | fence (predReads predWrites predPeer succReads succWrites : Bool)
  | fenceI
deriving DecidableEq, Repr

/-- One hart access: physical address, size in bytes, value, and the RVWMO annotations (R282, R361). -/
structure HartAccess where
  op   : HartOp
  pa   : Nat
  size : Nat
  v    : Nat
  aq   : Bool
  rl   : Bool
deriving DecidableEq, Repr

/-- The operation of a fabric frame (R365). -/
inductive FrameKind where
  | write | read
  | atomic (op : Nat) (eight : Bool)
  | collective (grp rank row : Nat)
deriving DecidableEq, Repr

/-- One inbound fabric frame (R365, R366): header fields and payload. -/
structure Frame where
  src   : Nat
  dst   : Nat
  group : Nat
  ctx   : Nat
  seq   : Nat
  kind  : FrameKind
  addr  : Nat
  data  : List W8
deriving DecidableEq, Repr

/-- Every step of the part, one constructor per row of spec/opcode_table.json. -/
inductive Instr where
  /-- BUNDLE_ISSUE (R86): A running partition presents its next bundle on a clock. The bundle is checked in the order of the trap classes, then it commits or waits, holding no state. -/
  | bundleIssue (p : Nat)
  /-- COMPACT_GROUP2_ISSUE (R75): Group 2 of a compact bundle issues on the clock after group 1 and commits as one bundle. -/
  | compactGroup2Issue (p : Nat)
  /-- RESULT_LANDING (R26): A slot result, or a register or semaphore write, lands in its destination at issue plus its latency. Several landings on one clock are applied in the order of R28. -/
  | resultLanding (n : Nat)
  /-- SLOT2_PERFORM (R231): A slot-2 load, store or atomic performs at the own slice one clock after issue, in the order of R232. -/
  | slot2Perform (n : Nat)
  /-- TBPWR_TRANSITION_START (R36): A tile-bank power transition starts once the TBPWR write has landed and any pending tile writes to the bank have landed. -/
  | tbpwrTransitionStart (p : Nat) (b : Nat)
  /-- TBPWR_TRANSITION_END (R36): A tile-bank transition ends after its 4, 16 or 64 clocks. BUSY clears and the bank takes its new state. -/
  | tbpwrTransitionEnd (p : Nat) (b : Nat)
  /-- CALL_ENTRY_START (R207): A call-queue entry starts once its issue delay, consumed tags, predecessor and earlier table loads allow. -/
  | callEntryStart (n : Nat)
  /-- ACLR_ENTRY_EXECUTE (R216): An ACLR entry clears its tiles after earlier contributions to them have landed. -/
  | aclrEntryExecute (n : Nat)
  /-- ACDRN_ROW_WRITE (R217): An ACDRN entry converts and writes one accumulator row per clock once earlier landings are done. -/
  | acdrnRowWrite (n : Nat)
  /-- ACDRN_TAG_SET (R208): An ACDRN's produced tag is set 2 clocks after its last write lands. -/
  | acdrnTagSet (n : Nat)
  /-- MICRO_WAIT_EXPIRY (R221): The count of a WAIT micro-operation runs out and the microsequencer goes on. -/
  | microWaitExpiry (n : Nat)
  /-- MICRO_SYNC_RESUME (R221): The last landing of the call releases a waiting SYNC. -/
  | microSyncResume (n : Nat)
  /-- ACCUMULATOR_ROW_LANDING (R222): A row's contributions land in its accumulator row 10 clocks after its band work ends. -/
  | accumulatorRowLanding (n : Nat)
  /-- WEIGHT_BANK_LOAD_DONE (R221): A background weight-bank load or zeroing completes. -/
  | weightBankLoadDone (n : Nat)
  /-- MCALL_COMPLETION (R208): A call's produced tag is set after its last landing and END. Its flags merge and its ACM tiles clear. -/
  | mcallCompletion (n : Nat)
  /-- COMMAND_START (R239): An engine command starts once its consumed tags are set and any release, acquire or budget conditions allow. -/
  | commandStart (p : Nat) (c : Nat)
  /-- COMMAND_COMPLETION (R239): A command completes. Its tag is set if it is still the latest producer, and its flags merge. -/
  | commandCompletion (p : Nat) (c : Nat)
  /-- FAR_ACCESS_ARRIVAL (R270): A far access reaches its owner and is applied in coherence order. -/
  | farAccessArrival (p : Nat) (c : Nat)
  /-- POSTED_WRITE_DRAIN (R271): A write held in a cluster posting buffer reaches its owner. -/
  | postedWriteDrain (cl : Nat)
  /-- MULTICAST_ROW_LANDING (R254): A multicast row lands in every target slice on one clock. -/
  | multicastRowLanding (p : Nat) (c : Nat)
  /-- TABLE_LOAD_LANDING (R265): A table load's entries and tag land 6 clocks after issue. -/
  | tableLoadLanding (n : Nat)
  /-- COLLECTIVE_CONTRIBUTION_LANDING (R367): A member's contribution lands at its rank offset, and the tag is set when all have landed. -/
  | collectiveContributionLanding (p : Nat) (c : Nat)
  /-- CHECKPOINT_COMPLETE (R334): All partitions of a context have arrived; the images are written, the interval flips and the CKPT tags are set. -/
  | checkpointComplete (k : Nat)
  /-- BARRIER_RELEASE (R315): A barrier release reaches a participant after its unit's delay. -/
  | barrierRelease (p : Nat)
  /-- TRAP_TAKE (R318): A partition takes a trap at a boundary and stops its core. -/
  | trapTake (p : Nat)
  /-- LOCKSTEP_CORE_STOP (R321): Another core of a lockstep kernel stops at the trapping CYCLE plus 256. -/
  | lockstepCoreStop (n : Nat)
  /-- CORECTL_RESUME (R328): A RESUME write to CORECTL schedules the stopped core, or every core of a lockstep kernel, to resume. -/
  | corectlResume (n : Nat)
  /-- CORECTL_HENTER (R328): An HENTER write copies the fault record, holds the sequencer state and starts the handler. -/
  | corectlHenter (n : Nat) (v : Nat)
  /-- CORE_RESUME (R323): The core issues again at b', and the snapshot entries land at b' + r. -/
  | coreResume (n : Nat)
  /-- PREEMPTION (R330): The dispatch unit pre-empts a kernel and saves its image to a slot. -/
  | preemption (k : Nat)
  /-- KERNEL_RESUME (R330): A pre-empted kernel is restored onto its clusters and replays its snapshots. -/
  | kernelResume (k : Nat)
  /-- PRIORITY_AGING (R299): A waiting packet or pre-empted kernel gains one priority level after 256 whole periods. -/
  | priorityAging (k : Nat)
  /-- BUDGET_PERIOD_START (R305): A new 4,096-clock period resets the budget counters and releases held requests. -/
  | budgetPeriodStart (k : Nat)
  /-- QNOTIFY_WRITE (R288): A write index lands and makes packets pending, or stops the queue with QERR 6. -/
  | qnotifyWrite (q : Nat) (w : Nat)
  /-- CTXEN_SET (R286): Setting a CTXEN bit activates the context from its record. -/
  | ctxenSet (k : Nat)
  /-- CTXEN_CLEAR (R286): Clearing a CTXEN bit stops dispatch begin for the context. -/
  | ctxenClear (k : Nat)
  /-- CONTEXT_DEACTIVATE (R286): ACT clears once a disabled context holds no kernel. -/
  | contextDeactivate (k : Nat)
  /-- CTXST_WRITE (R287): Writing 1 to ERR or OVR bits of CTXST clears them. -/
  | ctxstWrite (v : Nat)
  /-- CTXSEED_WRITE (R287): A context seed write lands one dispatch-unit clock after the store arrives. -/
  | ctxseedWrite (k : Nat) (v : Nat)
  /-- DISPATCH_BEGIN (R290): A pending packet passes its acquire, advances RDIDX, latches its seed and writes a queued report. -/
  | dispatchBegin (q : Nat)
  /-- KERNEL_START (R292): A placed kernel gets its clusters and images, its slices are delivered, and partition 0 starts. -/
  | kernelStart (k : Nat)
  /-- KERNEL_END (R298): A kernel ends when all of its work is done. Task entries are discarded and clusters are freed. -/
  | kernelEnd (k : Nat)
  /-- TLBINV_WRITE (R338): A TLBINV write starts a translation invalidation and sets BUSY. -/
  | tlbinvWrite (v : Nat)
  /-- TLB_INVALIDATION_DONE (R338): The invalidation completes on every core and BUSY clears. -/
  | tlbInvalidationDone
  /-- PAGE_WALK (R353): A translation miss takes a free walker and walks the page table, or faults. -/
  | pageWalk (p : Nat) (c : Nat)
  /-- CORRECTED_ERROR (R355): ECC corrects an error on a read, writes the word back and counts it. -/
  | correctedError (die : Nat) (cls : Nat)
  /-- SCRUB_ROW (R355): A bank group scrubs one row on an idle clock. -/
  | scrubRow (n : Nat) (bg : Nat)
  /-- UNCORRECTABLE_ERROR (R336): An error beyond correction in context-owned state stops the context and rolls it back, or sets LOST. -/
  | uncorrectableError (die : Nat) (cls : Nat) (k : Nat) (a : Nat)
  /-- UNOWNED_ERROR (R369): An error beyond correction in unowned state is recorded and handled by where it lies. -/
  | unownedError (die : Nat) (cls : Nat) (w : Nat) (a : Nat)
  /-- CLUSTER_CLEAR_DONE (R369): The zeroing of a cluster's memories after an unowned error ends, and the cluster becomes free. -/
  | clusterClearDone (cl : Nat)
  /-- UESTAT_WRITE (R356): Writing 1 to VALID clears and re-arms the error record. -/
  | uestatWrite (die : Nat) (v : Nat)
  /-- CKST_WRITE (R327): Writing 1 to OVF, RBK or LOST of CKST clears them. -/
  | ckstWrite (k : Nat) (v : Nat)
  /-- RETIRE_CORE (R360): Repair OP 1 retires a core position of a free cluster. -/
  | retireCore (cl : Nat) (pos : Nat)
  /-- RETIRE_ROW (R360): Repair OP 2 retires a row of a band of a core. -/
  | retireRow (n : Nat) (b : Nat) (row : Nat)
  /-- RETIRE_CLUSTER (R360): Repair OP 3 retires a whole cluster. -/
  | retireCluster (cl : Nat)
  /-- REPAIR_COMPLETE (R360): After 4,096 clocks the new map holds, BUSY clears and interrupt 8 is raised. -/
  | repairComplete
  /-- FRAME_RECEIVE (R365): A fabric frame arrives. It is checked against the windows and delivered in sequence, held or discarded, then acknowledged. -/
  | frameReceive (f : Frame)
  /-- FRAME_ACK_RECEIVE (R365): A cumulative acknowledgement or refusal frees the replay buffer or faults the command. -/
  | frameAckReceive (fl : Nat) (seq : Nat) (refused : Bool)
  /-- FRAME_RESEND (R365): An unacknowledged frame times out after PEERLAT/2 and is sent again, on another plane after four tries. -/
  | frameResend (fl : Nat)
  /-- PCFG_WRITE (R366): A write that changes a port's protocol or plane takes the port down. -/
  | pcfgWrite (who : Nat) (port : Nat) (v : Nat)
  /-- PORT_RETRAIN (R366): A fabric link retrains and RTC counts it. -/
  | portRetrain (port : Nat)
  /-- RIDAR_FLIT_FAILURE (R357): A timed die-to-die flit misses its bound after retries and is reported as class 5. -/
  | ridarFlitFailure
  /-- MGMT_REQUEST (R370): A management-port request inside an SPDM session reads or writes one register, or is refused. -/
  | mgmtRequest (port : Nat) (session : Bool) (wr : Bool) (pa : Nat) (v : Nat)
  /-- MSEM_ACQUIRE (R372): ACQ grants or renews a lease, or is refused with ERR. -/
  | msemAcquire (who : Nat) (k : Nat) (lease : Nat)
  /-- MSEM_RELEASE (R372): REL from the owner frees the semaphore. -/
  | msemRelease (who : Nat) (k : Nat)
  /-- LEASE_EXPIRY (R372): A lease runs out, the semaphore is freed and interrupt 7 is raised. -/
  | leaseExpiry (k : Nat)
  /-- MAILBOX_WRITE_FLASH_BLOCK (R376): The Amvin mailbox writes a flash block for the holder of semaphore 0. -/
  | mailboxWriteFlashBlock (who : Nat) (blk : Nat)
  /-- MAILBOX_READ_FLASH_BLOCK (R376): The Amvin mailbox reads a flash block. -/
  | mailboxReadFlashBlock (who : Nat) (blk : Nat)
  /-- MAILBOX_READ_MEASUREMENT (R376): The Amvin mailbox returns a measurement. -/
  | mailboxReadMeasurement (who : Nat) (idx : Nat)
  /-- MAILBOX_ADVANCE_COUNTER (R376): Advances the security version counter to the running image's SVN. -/
  | mailboxAdvanceCounter (who : Nat)
  /-- POWER_ON_BOOT (R377): At power-up the ROM and the Amvin firmware verify images, train memory and links, apply repair and release the harts. -/
  | powerOnBoot
  /-- GET_MEASUREMENTS (R377): The SPDM responder reports the boot measurements. -/
  | getMeasurements (port : Nat)
  /-- DEVICE_RESET (R21): Device reset establishes the kernel-start values of every state item. -/
  | deviceReset
  /-- THERMAL_ALARM_BEGIN (R381): The alarm input halves every limit, sets OVR for lockstep contexts and raises interrupt 5. -/
  | thermalAlarmBegin
  /-- THERMAL_ALARM_END (R381): The alarm ends and the limits return to their written values. -/
  | thermalAlarmEnd
  /-- SUPPLY_TRIP (R382): A tray supply trip is handled as an error beyond correction in every context. -/
  | supplyTrip
  /-- GOVERNOR_CLOCK (R378): Each die clock the governor charges each core and evaluates the 64-clock window. -/
  | governorClock
  /-- GLIMIT_WRITE (R379): A limit write from the semaphore-2 holder takes effect next clock, or at the next placement for lockstep clusters. -/
  | glimitWrite (who : Nat) (cl : Nat) (v : Nat)
  /-- IROUTE_WRITE (R363): Writing an interrupt routing entry. Setting EN delivers a held event. -/
  | irouteWrite (i : Nat) (v : Nat)
  /-- HART_MEMORY_ACCESS (R282): A system-core hart load, store, AMO or fence acts under RVWMO as mapped onto the model. -/
  | hartMemoryAccess (h : Nat) (a : HartAccess)
  /-- HART_REGISTER_ACCESS_FAULT (R361): A hart access of wrong size or to an unmapped address takes an access fault. -/
  | hartRegisterAccessFault (h : Nat) (pa : Nat)
  /-- REGISTER_WRITE (R361): A write to a device register with no behaviour of its own stores the value, with reserved fields ignored. -/
  | registerWrite (who : Nat) (pa : Nat) (v : Nat)
  /-- PAGE_WALK_COMPLETION (R353): A page walk's last table read returns, so the translation completes or faults, the walker frees for the next queued walk, and the waiting command begins counting its latency. -/
  | pageWalkCompletion (p : Nat) (c : Nat)
  /-- STORAGE_DMA_ACCESS (R361): A storage DMA request from the PCIe root port reads or writes device memory. -/
  | storageDmaAccess (wr : Bool) (pa : Nat) (v : Nat)
  /-- UNOP (R221): Micro-operation that does nothing for one clock. -/
  | uUnop
  /-- WLD (R224): Loads a weight bank, takes its census and records scale indices, forming stochastic weights when SWE = 1. -/
  | uWld (pa : Nat) (pb : Nat) (bk : Bool) (tr : Bool) (h : Bool)
  /-- WSW (R215): Flips the stream's bank tag. -/
  | uWsw
  /-- WZ (R221): Zeroes a weight bank. -/
  | uWz (bk : Bool)
  /-- STRM (R225): Streams activation rows through the array into accumulator rows. -/
  | uStrm (acc : Nat) (row : Nat) (cnt : Nat) (pa : Nat) (osel : Nat)
  /-- STRMZ (R225): Streams rows, clearing each target row before its first contribution. -/
  | uStrmz (acc : Nat) (row : Nat) (cnt : Nat) (pa : Nat) (osel : Nat)
  /-- UOP_ACLR (R222): Micro-operation that clears a tile after the call's earlier landings. -/
  | uAclr (acc : Nat)
  /-- UOP_DRN (R200): Micro-operation that drains rows to a descriptor. -/
  | uDrn (acc : Nat) (row : Nat) (cnt : Nat) (pa : Nat)
  /-- AST (R226): Stores accumulator rows in exact form. -/
  | uAst (acc : Nat) (row : Nat) (cnt : Nat) (pa : Nat)
  /-- AADDM (R226): Adds exact-form rows from the slice into a tile. -/
  | uAaddm (acc : Nat) (row : Nat) (cnt : Nat) (pa : Nat)
  /-- AADD (R221): Adds one tile's rows into another tile's rows. -/
  | uAadd (acc : Nat) (row : Nat) (cnt : Nat) (pb : Nat)
  /-- ADV (R221): Advances a descriptor offset by an immediate. -/
  | uAdv (pa : Nat) (imm : Nat)
  /-- ADVS (R221): Advances a descriptor offset by immediate times stride. -/
  | uAdvs (pa : Nat) (imm : Nat)
  /-- MOVP (R221): Copies one call-local descriptor to another. -/
  | uMovp (pa : Nat) (pb : Nat)
  /-- IDXL (R221): Loads the index base XB from a parameter register. -/
  | uIdxl (pb : Nat)
  /-- IDXA (R221): Advances the index base XB. -/
  | uIdxa (imm : Nat)
  /-- MEMS (R221): Sets the call's ensemble member. -/
  | uMems (imm : Nat)
  /-- MEMA (R221): Advances the call's ensemble member. -/
  | uMema (imm : Nat)
  /-- LSET (R221): Sets a micro loop counter. -/
  | uLset (lc : Nat) (imm : Nat)
  /-- LDEC (R221): Decrements a loop counter and branches while it is non-zero. -/
  | uLdec (lc : Nat) (tgt : Nat)
  /-- JMP (R221): Jumps to a target micro-word. -/
  | uJmp (tgt : Nat)
  /-- WAIT (R221): Idles the microsequencer for imm clocks. -/
  | uWait (imm : Nat)
  /-- SYNC (R221): Holds the microsequencer until every row and write of the call has landed. -/
  | uSync
  /-- END (R221): Ends the call's microsequencer. -/
  | uEnd
  /-- NOP (R64): A zero slot word does nothing and uses no port. -/
  | nop
  /-- ADD (R121): Slot-0 integer add modulo 2^64. -/
  | add (d : Nat) (a : Nat) (b : Nat) (k : Bool) (m : Bool)
  /-- ADD_Q (R121): Integer add modulo 2^64 in slot 1 or 3. -/
  | addQ (d : Nat) (a : Nat) (b : Nat) (k : Bool) (m : Bool)
  /-- SUB (R121): Slot-0 integer subtract. -/
  | sub (d : Nat) (a : Nat) (b : Nat) (k : Bool) (m : Bool)
  /-- SUB_Q (R121): Integer subtract in slot 1 or 3. -/
  | subQ (d : Nat) (a : Nat) (b : Nat) (k : Bool) (m : Bool)
  /-- AND (R121): Slot-0 bitwise and. -/
  | and (d : Nat) (a : Nat) (b : Nat) (k : Bool) (m : Bool)
  /-- AND_Q (R121): Bitwise and in slot 1 or 3. -/
  | andQ (d : Nat) (a : Nat) (b : Nat) (k : Bool) (m : Bool)
  /-- OR (R121): Slot-0 bitwise or. -/
  | or (d : Nat) (a : Nat) (b : Nat) (k : Bool) (m : Bool)
  /-- OR_Q (R121): Bitwise or in slot 1 or 3. -/
  | orQ (d : Nat) (a : Nat) (b : Nat) (k : Bool) (m : Bool)
  /-- XOR (R121): Slot-0 bitwise exclusive or. -/
  | xor (d : Nat) (a : Nat) (b : Nat) (k : Bool) (m : Bool)
  /-- XOR_Q (R121): Bitwise exclusive or in slot 1 or 3. -/
  | xorQ (d : Nat) (a : Nat) (b : Nat) (k : Bool) (m : Bool)
  /-- ANDN (R121): Slot-0 a and not b. -/
  | andn (d : Nat) (a : Nat) (b : Nat) (k : Bool) (m : Bool)
  /-- ANDN_Q (R121): a and not b in slot 1 or 3. -/
  | andnQ (d : Nat) (a : Nat) (b : Nat) (k : Bool) (m : Bool)
  /-- SHL (R121): Slot-0 left shift by b[5:0]. -/
  | shl (d : Nat) (a : Nat) (b : Nat) (k : Bool) (m : Bool)
  /-- SHL_Q (R121): Left shift by b[5:0] in slot 1 or 3. -/
  | shlQ (d : Nat) (a : Nat) (b : Nat) (k : Bool) (m : Bool)
  /-- SHR (R121): Slot-0 logical right shift. -/
  | shr (d : Nat) (a : Nat) (b : Nat) (k : Bool) (m : Bool)
  /-- SHR_Q (R121): Logical right shift in slot 1 or 3. -/
  | shrQ (d : Nat) (a : Nat) (b : Nat) (k : Bool) (m : Bool)
  /-- SRA (R121): Slot-0 arithmetic right shift. -/
  | sra (d : Nat) (a : Nat) (b : Nat) (k : Bool) (m : Bool)
  /-- SRA_Q (R121): Arithmetic right shift in slot 1 or 3. -/
  | sraQ (d : Nat) (a : Nat) (b : Nat) (k : Bool) (m : Bool)
  /-- MIN (R121): Slot-0 signed minimum. -/
  | min (d : Nat) (a : Nat) (b : Nat) (k : Bool) (m : Bool)
  /-- MIN_Q (R121): Signed minimum in slot 1 or 3. -/
  | minQ (d : Nat) (a : Nat) (b : Nat) (k : Bool) (m : Bool)
  /-- MAX (R121): Slot-0 signed maximum. -/
  | max (d : Nat) (a : Nat) (b : Nat) (k : Bool) (m : Bool)
  /-- MAX_Q (R121): Signed maximum in slot 1 or 3. -/
  | maxQ (d : Nat) (a : Nat) (b : Nat) (k : Bool) (m : Bool)
  /-- MINU (R121): Slot-0 unsigned minimum. -/
  | minu (d : Nat) (a : Nat) (b : Nat) (k : Bool) (m : Bool)
  /-- MINU_Q (R121): Unsigned minimum in slot 1 or 3. -/
  | minuQ (d : Nat) (a : Nat) (b : Nat) (k : Bool) (m : Bool)
  /-- MAXU (R121): Slot-0 unsigned maximum. -/
  | maxu (d : Nat) (a : Nat) (b : Nat) (k : Bool) (m : Bool)
  /-- MAXU_Q (R121): Unsigned maximum in slot 1 or 3. -/
  | maxuQ (d : Nat) (a : Nat) (b : Nat) (k : Bool) (m : Bool)
  /-- ADDSS (R121): Slot-0 saturating signed add, setting SAT when it clamps. -/
  | addss (d : Nat) (a : Nat) (b : Nat) (k : Bool) (m : Bool)
  /-- ADDSS_Q (R121): Saturating signed add in slot 1 or 3. -/
  | addssQ (d : Nat) (a : Nat) (b : Nat) (k : Bool) (m : Bool)
  /-- SUBSS (R121): Slot-0 saturating signed subtract. -/
  | subss (d : Nat) (a : Nat) (b : Nat) (k : Bool) (m : Bool)
  /-- SUBSS_Q (R121): Saturating signed subtract in slot 1 or 3. -/
  | subssQ (d : Nat) (a : Nat) (b : Nat) (k : Bool) (m : Bool)
  /-- MOV (R121): Slot-0 move of a to d. -/
  | mov (d : Nat) (a : Nat) (k : Bool)
  /-- MOV_Q (R121): Move of a to d in slot 1 or 3. -/
  | movQ (d : Nat) (a : Nat) (k : Bool)
  /-- ADDI (R122): Slot-0 add of a sign-extended immediate. -/
  | addi (d : Nat) (a : Nat) (k : Bool) (i : Nat)
  /-- ADDI_Q (R122): Add of a sign-extended immediate in slot 1 or 3. -/
  | addiQ (d : Nat) (a : Nat) (k : Bool) (i : Nat)
  /-- LUI (R123): Slot-0 load of a sign-extended immediate shifted left by sh. -/
  | lui (d : Nat) (s : Nat) (i : Nat)
  /-- LUI_Q (R123): Load of a shifted immediate in slot 1 or 3. -/
  | luiQ (d : Nat) (s : Nat) (i : Nat)
  /-- MUL (R124): Slot-0 low 64 bits of the product. -/
  | mul (d : Nat) (a : Nat) (b : Nat) (k : Bool) (m : Bool)
  /-- MUL_Q (R124): Low 64 bits of the product in slot 1 or 3. -/
  | mulQ (d : Nat) (a : Nat) (b : Nat) (k : Bool) (m : Bool)
  /-- MULH (R124): Slot-0 high half of the signed product. -/
  | mulh (d : Nat) (a : Nat) (b : Nat) (k : Bool) (m : Bool)
  /-- MULH_Q (R124): High half of the signed product in slot 1 or 3. -/
  | mulhQ (d : Nat) (a : Nat) (b : Nat) (k : Bool) (m : Bool)
  /-- MULHU (R124): Slot-0 high half of the unsigned product. -/
  | mulhu (d : Nat) (a : Nat) (b : Nat) (k : Bool) (m : Bool)
  /-- MULHU_Q (R124): High half of the unsigned product in slot 1 or 3. -/
  | mulhuQ (d : Nat) (a : Nat) (b : Nat) (k : Bool) (m : Bool)
  /-- FADD (R127): Slot-0 binary32 add, rounded once. -/
  | fadd (d : Nat) (a : Nat) (b : Nat) (k : Bool) (m : Bool) (r : Bool)
  /-- FADD_Q (R127): binary32 add in slot 1 or 3. -/
  | faddQ (d : Nat) (a : Nat) (b : Nat) (k : Bool) (m : Bool) (r : Bool)
  /-- FSUB (R127): Slot-0 binary32 subtract. -/
  | fsub (d : Nat) (a : Nat) (b : Nat) (k : Bool) (m : Bool) (r : Bool)
  /-- FSUB_Q (R127): binary32 subtract in slot 1 or 3. -/
  | fsubQ (d : Nat) (a : Nat) (b : Nat) (k : Bool) (m : Bool) (r : Bool)
  /-- FMUL (R127): Slot-0 binary32 multiply. -/
  | fmul (d : Nat) (a : Nat) (b : Nat) (k : Bool) (m : Bool) (r : Bool)
  /-- FMUL_Q (R127): binary32 multiply in slot 1 or 3. -/
  | fmulQ (d : Nat) (a : Nat) (b : Nat) (k : Bool) (m : Bool) (r : Bool)
  /-- FDIV (R127): Slot-0 binary32 divide. -/
  | fdiv (d : Nat) (a : Nat) (b : Nat) (k : Bool) (m : Bool) (r : Bool)
  /-- FDIV_Q (R127): binary32 divide in slot 1 or 3. -/
  | fdivQ (d : Nat) (a : Nat) (b : Nat) (k : Bool) (m : Bool) (r : Bool)
  /-- FSQRT (R127): Slot-0 binary32 square root. -/
  | fsqrt (d : Nat) (a : Nat) (k : Bool) (r : Bool)
  /-- FSQRT_Q (R127): binary32 square root in slot 1 or 3. -/
  | fsqrtQ (d : Nat) (a : Nat) (k : Bool) (r : Bool)
  /-- FMIN (R127): Slot-0 binary32 minimum. -/
  | fmin (d : Nat) (a : Nat) (b : Nat) (k : Bool) (m : Bool)
  /-- FMIN_Q (R127): binary32 minimum in slot 1 or 3. -/
  | fminQ (d : Nat) (a : Nat) (b : Nat) (k : Bool) (m : Bool)
  /-- FMAX (R127): Slot-0 binary32 maximum. -/
  | fmax (d : Nat) (a : Nat) (b : Nat) (k : Bool) (m : Bool)
  /-- FMAX_Q (R127): binary32 maximum in slot 1 or 3. -/
  | fmaxQ (d : Nat) (a : Nat) (b : Nat) (k : Bool) (m : Bool)
  /-- FABS (R127): Slot-0 binary32 absolute value. -/
  | fabs (d : Nat) (a : Nat) (k : Bool)
  /-- FABS_Q (R127): binary32 absolute value in slot 1 or 3. -/
  | fabsQ (d : Nat) (a : Nat) (k : Bool)
  /-- FNEG (R127): Slot-0 binary32 negation. -/
  | fneg (d : Nat) (a : Nat) (k : Bool)
  /-- FNEG_Q (R127): binary32 negation in slot 1 or 3. -/
  | fnegQ (d : Nat) (a : Nat) (k : Bool)
  /-- FEQ (R130): Slot-0 binary32 equality compare to a predicate. -/
  | feq (d : Nat) (a : Nat) (b : Nat) (k : Bool) (m : Bool)
  /-- FEQ_Q (R130): binary32 equality compare in slot 1 or 3. -/
  | feqQ (d : Nat) (a : Nat) (b : Nat) (k : Bool) (m : Bool)
  /-- FLT (R130): Slot-0 binary32 less-than compare. -/
  | flt (d : Nat) (a : Nat) (b : Nat) (k : Bool) (m : Bool)
  /-- FLT_Q (R130): binary32 less-than compare in slot 1 or 3. -/
  | fltQ (d : Nat) (a : Nat) (b : Nat) (k : Bool) (m : Bool)
  /-- FLE (R130): Slot-0 binary32 less-or-equal compare. -/
  | fle (d : Nat) (a : Nat) (b : Nat) (k : Bool) (m : Bool)
  /-- FLE_Q (R130): binary32 less-or-equal compare in slot 1 or 3. -/
  | fleQ (d : Nat) (a : Nat) (b : Nat) (k : Bool) (m : Bool)
  /-- FUN (R130): Slot-0 unordered compare. -/
  | funord (d : Nat) (a : Nat) (b : Nat) (k : Bool) (m : Bool)
  /-- FUN_Q (R130): Unordered compare in slot 1 or 3. -/
  | funordQ (d : Nat) (a : Nat) (b : Nat) (k : Bool) (m : Bool)
  /-- CEQ (R129): Slot-0 integer equal compare to a predicate. -/
  | ceq (d : Nat) (a : Nat) (b : Nat) (k : Bool) (m : Bool)
  /-- CEQ_Q (R129): Integer equal compare in slot 1 or 3. -/
  | ceqQ (d : Nat) (a : Nat) (b : Nat) (k : Bool) (m : Bool)
  /-- CNE (R129): Slot-0 integer not-equal compare. -/
  | cne (d : Nat) (a : Nat) (b : Nat) (k : Bool) (m : Bool)
  /-- CNE_Q (R129): Integer not-equal compare in slot 1 or 3. -/
  | cneQ (d : Nat) (a : Nat) (b : Nat) (k : Bool) (m : Bool)
  /-- CLT (R129): Slot-0 signed less-than compare. -/
  | clt (d : Nat) (a : Nat) (b : Nat) (k : Bool) (m : Bool)
  /-- CLT_Q (R129): Signed less-than compare in slot 1 or 3. -/
  | cltQ (d : Nat) (a : Nat) (b : Nat) (k : Bool) (m : Bool)
  /-- CLE (R129): Slot-0 signed less-or-equal compare. -/
  | cle (d : Nat) (a : Nat) (b : Nat) (k : Bool) (m : Bool)
  /-- CLE_Q (R129): Signed less-or-equal compare in slot 1 or 3. -/
  | cleQ (d : Nat) (a : Nat) (b : Nat) (k : Bool) (m : Bool)
  /-- CLTU (R129): Slot-0 unsigned less-than compare. -/
  | cltu (d : Nat) (a : Nat) (b : Nat) (k : Bool) (m : Bool)
  /-- CLTU_Q (R129): Unsigned less-than compare in slot 1 or 3. -/
  | cltuQ (d : Nat) (a : Nat) (b : Nat) (k : Bool) (m : Bool)
  /-- CLEU (R129): Slot-0 unsigned less-or-equal compare. -/
  | cleu (d : Nat) (a : Nat) (b : Nat) (k : Bool) (m : Bool)
  /-- CLEU_Q (R129): Unsigned less-or-equal compare in slot 1 or 3. -/
  | cleuQ (d : Nat) (a : Nat) (b : Nat) (k : Bool) (m : Bool)
  /-- CEQI (R131): Slot-0 compare with an immediate for equality. -/
  | ceqi (p : Nat) (a : Nat) (k : Bool) (i : Nat)
  /-- CEQI_Q (R131): Compare with an immediate for equality in slot 1 or 3. -/
  | ceqiQ (p : Nat) (a : Nat) (k : Bool) (i : Nat)
  /-- CNEI (R131): Slot-0 compare with an immediate for inequality. -/
  | cnei (p : Nat) (a : Nat) (k : Bool) (i : Nat)
  /-- CNEI_Q (R131): Compare with an immediate for inequality in slot 1 or 3. -/
  | cneiQ (p : Nat) (a : Nat) (k : Bool) (i : Nat)
  /-- CLTI (R131): Slot-0 signed less-than compare with an immediate. -/
  | clti (p : Nat) (a : Nat) (k : Bool) (i : Nat)
  /-- CLTI_Q (R131): Signed less-than compare with an immediate in slot 1 or 3. -/
  | cltiQ (p : Nat) (a : Nat) (k : Bool) (i : Nat)
  /-- CLTUI (R131): Slot-0 unsigned less-than compare with an immediate. -/
  | cltui (p : Nat) (a : Nat) (k : Bool) (i : Nat)
  /-- CLTUI_Q (R131): Unsigned less-than compare with an immediate in slot 1 or 3. -/
  | cltuiQ (p : Nat) (a : Nat) (k : Bool) (i : Nat)
  /-- SEL (R133): Slot-0 select of a or b by a predicate, popping both sources. -/
  | sel (d : Nat) (a : Nat) (b : Nat) (k : Bool) (m : Bool) (p : Nat)
  /-- SEL_Q (R133): Select by a predicate in slot 1 or 3. -/
  | selQ (d : Nat) (a : Nat) (b : Nat) (k : Bool) (m : Bool) (p : Nat)
  /-- CLZ (R125): Slot-0 count of leading zero bits. -/
  | clz (d : Nat) (a : Nat) (k : Bool)
  /-- CLZ_Q (R125): Count of leading zero bits in slot 1 or 3. -/
  | clzQ (d : Nat) (a : Nat) (k : Bool)
  /-- CTZ (R125): Slot-0 count of trailing zero bits. -/
  | ctz (d : Nat) (a : Nat) (k : Bool)
  /-- CTZ_Q (R125): Count of trailing zero bits in slot 1 or 3. -/
  | ctzQ (d : Nat) (a : Nat) (k : Bool)
  /-- POPC (R125): Slot-0 population count. -/
  | popc (d : Nat) (a : Nat) (k : Bool)
  /-- POPC_Q (R125): Population count in slot 1 or 3. -/
  | popcQ (d : Nat) (a : Nat) (k : Bool)
  /-- SHLI (R125): Slot-0 left shift by a constant. -/
  | shli (d : Nat) (a : Nat) (n : Nat) (k : Bool) (h : Bool)
  /-- SHLI_Q (R125): Left shift by a constant in slot 1 or 3. -/
  | shliQ (d : Nat) (a : Nat) (n : Nat) (k : Bool) (h : Bool)
  /-- SHRI (R125): Slot-0 logical right shift by a constant. -/
  | shri (d : Nat) (a : Nat) (n : Nat) (k : Bool) (h : Bool)
  /-- SHRI_Q (R125): Logical right shift by a constant in slot 1 or 3. -/
  | shriQ (d : Nat) (a : Nat) (n : Nat) (k : Bool) (h : Bool)
  /-- SRAI (R125): Slot-0 arithmetic right shift by a constant. -/
  | srai (d : Nat) (a : Nat) (n : Nat) (k : Bool) (h : Bool)
  /-- SRAI_Q (R125): Arithmetic right shift by a constant in slot 1 or 3. -/
  | sraiQ (d : Nat) (a : Nat) (n : Nat) (k : Bool) (h : Bool)
  /-- PAND (R132): Slot-0 predicate and. -/
  | pand (d : Nat) (a : Nat) (b : Nat)
  /-- PAND_Q (R132): Predicate and in slot 1 or 3. -/
  | pandQ (d : Nat) (a : Nat) (b : Nat)
  /-- POR (R132): Slot-0 predicate or. -/
  | por (d : Nat) (a : Nat) (b : Nat)
  /-- POR_Q (R132): Predicate or in slot 1 or 3. -/
  | porQ (d : Nat) (a : Nat) (b : Nat)
  /-- PXOR (R132): Slot-0 predicate exclusive or. -/
  | pxor (d : Nat) (a : Nat) (b : Nat)
  /-- PXOR_Q (R132): Predicate exclusive or in slot 1 or 3. -/
  | pxorQ (d : Nat) (a : Nat) (b : Nat)
  /-- PANDN (R132): Slot-0 predicate and-not. -/
  | pandn (d : Nat) (a : Nat) (b : Nat)
  /-- PANDN_Q (R132): Predicate and-not in slot 1 or 3. -/
  | pandnQ (d : Nat) (a : Nat) (b : Nat)
  /-- PNOT (R132): Slot-0 predicate not. -/
  | pnot (d : Nat) (a : Nat)
  /-- PNOT_Q (R132): Predicate not in slot 1 or 3. -/
  | pnotQ (d : Nat) (a : Nat)
  /-- PSET (R132): Slot-0 set of a predicate to 1. -/
  | pset (d : Nat)
  /-- PSET_Q (R132): Set of a predicate to 1 in slot 1 or 3. -/
  | psetQ (d : Nat)
  /-- PCLR (R132): Slot-0 clear of a predicate to 0. -/
  | pclr (d : Nat)
  /-- PCLR_Q (R132): Clear of a predicate to 0 in slot 1 or 3. -/
  | pclrQ (d : Nat)
  /-- CVTIF (R128): Slot-0 conversion from INT64 to binary32. -/
  | cvtif (d : Nat) (a : Nat) (k : Bool) (r : Bool)
  /-- CVTIF_Q (R128): Conversion from INT64 to binary32 in slot 1 or 3. -/
  | cvtifQ (d : Nat) (a : Nat) (k : Bool) (r : Bool)
  /-- CVTUF (R128): Slot-0 conversion from UINT64 to binary32. -/
  | cvtuf (d : Nat) (a : Nat) (k : Bool) (r : Bool)
  /-- CVTUF_Q (R128): Conversion from UINT64 to binary32 in slot 1 or 3. -/
  | cvtufQ (d : Nat) (a : Nat) (k : Bool) (r : Bool)
  /-- CVTWF (R128): Slot-0 conversion from INT32 to binary32. -/
  | cvtwf (d : Nat) (a : Nat) (k : Bool) (r : Bool)
  /-- CVTWF_Q (R128): Conversion from INT32 to binary32 in slot 1 or 3. -/
  | cvtwfQ (d : Nat) (a : Nat) (k : Bool) (r : Bool)
  /-- CVTFI (R128): Slot-0 conversion from binary32 to INT64. -/
  | cvtfi (d : Nat) (a : Nat) (k : Bool) (r : Bool)
  /-- CVTFI_Q (R128): Conversion from binary32 to INT64 in slot 1 or 3. -/
  | cvtfiQ (d : Nat) (a : Nat) (k : Bool) (r : Bool)
  /-- CVTFU (R128): Slot-0 conversion from binary32 to UINT64. -/
  | cvtfu (d : Nat) (a : Nat) (k : Bool) (r : Bool)
  /-- CVTFU_Q (R128): Conversion from binary32 to UINT64 in slot 1 or 3. -/
  | cvtfuQ (d : Nat) (a : Nat) (k : Bool) (r : Bool)
  /-- CVTFW (R128): Slot-0 conversion from binary32 to INT32. -/
  | cvtfw (d : Nat) (a : Nat) (k : Bool) (r : Bool)
  /-- CVTFW_Q (R128): Conversion from binary32 to INT32 in slot 1 or 3. -/
  | cvtfwQ (d : Nat) (a : Nat) (k : Bool) (r : Bool)
  /-- CVTFWU (R128): Slot-0 conversion from binary32 to UINT32. -/
  | cvtfwu (d : Nat) (a : Nat) (k : Bool) (r : Bool)
  /-- CVTFWU_Q (R128): Conversion from binary32 to UINT32 in slot 1 or 3. -/
  | cvtfwuQ (d : Nat) (a : Nat) (k : Bool) (r : Bool)
  /-- ADDX (R126): Slot-0 56-bit address add of b shifted by sc. -/
  | addx (d : Nat) (a : Nat) (b : Nat) (k : Bool) (m : Bool) (s : Nat)
  /-- ADDX_Q (R126): 56-bit address add in slot 1 or 3. -/
  | addxQ (d : Nat) (a : Nat) (b : Nat) (k : Bool) (m : Bool) (s : Nat)
  /-- SUBX (R126): Slot-0 56-bit address subtract. -/
  | subx (d : Nat) (a : Nat) (b : Nat) (k : Bool) (m : Bool) (s : Nat)
  /-- SUBX_Q (R126): 56-bit address subtract in slot 1 or 3. -/
  | subxQ (d : Nat) (a : Nat) (b : Nat) (k : Bool) (m : Bool) (s : Nat)
  /-- BRT (R135): Branch when the predicate reads 1. -/
  | brt (p : Nat) (d : Nat)
  /-- BRF (R135): Branch when the predicate reads 0. -/
  | brf (p : Nat) (d : Nat)
  /-- J (R135): Unconditional jump by a displacement. -/
  | jump (d : Nat)
  /-- CALL (R135): Call that pushes the link to s31 and jumps. -/
  | call (d : Nat)
  /-- CALLT (R135): Call taken when the predicate reads 1. -/
  | callt (p : Nat) (d : Nat)
  /-- CALLF (R135): Call taken when the predicate reads 0. -/
  | callf (p : Nat) (d : Nat)
  /-- JR (R136): Indirect jump within the active half; RET is JR s31. -/
  | jr (a : Nat) (k : Bool)
  /-- JRL (R136): Indirect jump that pushes the link to d. -/
  | jrl (d : Nat) (a : Nat) (k : Bool)
  /-- BRSW (R137): Switches the active instruction half and jumps to the target in the new half. -/
  | brsw (d : Nat)
  /-- BRSWT (R137): Half switch taken when the predicate reads 1. -/
  | brswt (p : Nat) (d : Nat)
  /-- BRSWF (R137): Half switch taken when the predicate reads 0. -/
  | brswf (p : Nat) (d : Nat)
  /-- LOOP (R138): Opens a hardware loop with an immediate count, or skips the body when the count is 0. -/
  | loop (c : Nat) (d : Nat)
  /-- LOOP_Q (R138): Opens a hardware loop whose count comes from a scalar queue. -/
  | loopQ (k : Bool) (q : Nat) (d : Nat)
  /-- LPOP (R141): Removes the top loop level. -/
  | lpop
  /-- LCNT (R141): Pushes the remaining count of the top loop level. -/
  | lcnt (d : Nat)
  /-- LCLR (R141): Empties the loop stack. -/
  | lclr
  /-- PBLK (R83): Opens a predicate block that guards the next 1 to 8 bundles. -/
  | pblk (p : Nat) (t : Nat) (l : Nat)
  /-- QCNT (R143): Pushes the landed count of a scalar queue. -/
  | qcnt (d : Nat) (a : Nat)
  /-- QCNT_V (R143): Pushes the landed count of vector queue v0–v31. -/
  | qcntV (d : Nat) (a : Nat)
  /-- QCNT_VN (R143): Pushes the landed count of vector queue v32–v63. -/
  | qcntVn (d : Nat) (a : Nat)
  /-- QCLR (R144): Clears the landed entries of a scalar queue at commit. -/
  | qclr (a : Nat)
  /-- QCLR_V (R144): Clears vector queue v0–v31. -/
  | qclrV (a : Nat)
  /-- QCLR_VN (R144): Clears vector queue v32–v63. -/
  | qclrVn (a : Nat)
  /-- PFORK (R145): Partition 0 starts the named idle partitions at a target. -/
  | pfork (m : Nat) (i : Nat)
  /-- PJOIN (R145): Adds 1 to a core semaphore and sets the partition idle. -/
  | pjoin (s : Nat)
  /-- SEMPOST (R146): Adds n to a core semaphore, with an overflow check at issue. -/
  | sempost (s : Nat) (n : Nat)
  /-- SEMWAIT (R146): Commits and subtracts n once the semaphore holds at least n; otherwise it is presented again. -/
  | semwait (s : Nat) (n : Nat)
  /-- BARW (R148): Arrives at a barrier unit of the scope and holds the partition until the release. -/
  | barw (c : Nat) (u : Nat)
  /-- RDCYC (R149): Pushes CYCLE and records it, or returns the recorded value in replay. -/
  | rdcyc (d : Nat)
  /-- RDFRZ (R149): Pushes FRZCNT, recorded. -/
  | rdfrz (d : Nat)
  /-- RDID (R149): Pushes COREID, recorded. -/
  | rdid (d : Nat)
  /-- RDPIX (R149): Pushes the global partition index, recorded. -/
  | rdpix (d : Nat)
  /-- CRGET (R150): Pushes a control register as it stands at issue. -/
  | crget (d : Nat) (c : Nat)
  /-- CRSET (R150): Writes a control register, landing one clock later. -/
  | crset (a : Nat) (k : Bool) (c : Nat)
  /-- IFENCE (R152): Discards the instruction read-ahead; the next bundle issues four clocks later. -/
  | ifence
  /-- TRAP (R153): Commits its bundle and takes the software trap with a code at the next boundary. -/
  | trap (c : Nat)
  /-- ERET (R329): Leaves handler state once the handler's work has completed, restores the held sequencer state and resumes the core. -/
  | eret
  /-- HALT (R155): Sets the partition halted after its bundle commits. -/
  | halt
  /-- VADD (R162): Element-wise modular integer add. -/
  | vadd (d : Nat) (a : Nat) (b : Nat) (k : Bool) (m : Bool) (t : Nat)
  /-- VSUB (R162): Element-wise modular integer subtract. -/
  | vsub (d : Nat) (a : Nat) (b : Nat) (k : Bool) (m : Bool) (t : Nat)
  /-- VMUL (R162): Element-wise low product. -/
  | vmul (d : Nat) (a : Nat) (b : Nat) (k : Bool) (m : Bool) (t : Nat)
  /-- VMIN (R162): Element-wise integer minimum. -/
  | vmin (d : Nat) (a : Nat) (b : Nat) (k : Bool) (m : Bool) (t : Nat)
  /-- VMAX (R162): Element-wise integer maximum. -/
  | vmax (d : Nat) (a : Nat) (b : Nat) (k : Bool) (m : Bool) (t : Nat)
  /-- VADDS (R162): Element-wise saturating add. -/
  | vadds (d : Nat) (a : Nat) (b : Nat) (k : Bool) (m : Bool) (t : Nat)
  /-- VSUBS (R162): Element-wise saturating subtract. -/
  | vsubs (d : Nat) (a : Nat) (b : Nat) (k : Bool) (m : Bool) (t : Nat)
  /-- VMULHI (R162): Element-wise high half of the product. -/
  | vmulhi (d : Nat) (a : Nat) (b : Nat) (k : Bool) (m : Bool) (t : Nat)
  /-- VSPLATI (R163): Splats an immediate into every element. -/
  | vsplati (d : Nat) (v : Nat) (z : Nat)
  /-- VADDI (R163): Adds an immediate to every element. -/
  | vaddi (d : Nat) (a : Nat) (k : Bool) (v : Nat) (z : Nat)
  /-- VSHLI (R163): Shifts every element left by an immediate. -/
  | vshli (d : Nat) (a : Nat) (k : Bool) (v : Nat) (z : Nat)
  /-- VSRAI (R163): Shifts every element right arithmetically by an immediate. -/
  | vsrai (d : Nat) (a : Nat) (k : Bool) (v : Nat) (z : Nat)
  /-- VFADD (R165): Element-wise floating-point add. -/
  | vfadd (d : Nat) (a : Nat) (b : Nat) (k : Bool) (m : Bool) (t : Nat)
  /-- VFSUB (R165): Element-wise floating-point subtract. -/
  | vfsub (d : Nat) (a : Nat) (b : Nat) (k : Bool) (m : Bool) (t : Nat)
  /-- VFMUL (R165): Element-wise floating-point multiply. -/
  | vfmul (d : Nat) (a : Nat) (b : Nat) (k : Bool) (m : Bool) (t : Nat)
  /-- VFMA (R165): Fused multiply-add that pops its addend from the destination queue. -/
  | vfma (d : Nat) (a : Nat) (b : Nat) (k : Bool) (m : Bool) (t : Nat)
  /-- VFMIN (R165): Element-wise floating-point minimum. -/
  | vfmin (d : Nat) (a : Nat) (b : Nat) (k : Bool) (m : Bool) (t : Nat)
  /-- VFMAX (R165): Element-wise floating-point maximum. -/
  | vfmax (d : Nat) (a : Nat) (b : Nat) (k : Bool) (m : Bool) (t : Nat)
  /-- VFABS (R165): Element-wise absolute value. -/
  | vfabs (d : Nat) (a : Nat) (k : Bool) (t : Nat)
  /-- VFNEG (R165): Element-wise negation. -/
  | vfneg (d : Nat) (a : Nat) (k : Bool) (t : Nat)
  /-- VAND (R164): Bitwise and of entries. -/
  | vand (d : Nat) (a : Nat) (b : Nat) (k : Bool) (m : Bool)
  /-- VOR (R164): Bitwise or of entries. -/
  | vor (d : Nat) (a : Nat) (b : Nat) (k : Bool) (m : Bool)
  /-- VXOR (R164): Bitwise exclusive or of entries. -/
  | vxor (d : Nat) (a : Nat) (b : Nat) (k : Bool) (m : Bool)
  /-- VANDN (R164): Bitwise and-not of entries. -/
  | vandn (d : Nat) (a : Nat) (b : Nat) (k : Bool) (m : Bool)
  /-- VSHL (R164): Element-wise left shift. -/
  | vshl (d : Nat) (a : Nat) (b : Nat) (k : Bool) (m : Bool) (z : Nat)
  /-- VSHR (R164): Element-wise logical right shift. -/
  | vshr (d : Nat) (a : Nat) (b : Nat) (k : Bool) (m : Bool) (z : Nat)
  /-- VSRA (R164): Element-wise arithmetic right shift. -/
  | vsra (d : Nat) (a : Nat) (b : Nat) (k : Bool) (m : Bool) (z : Nat)
  /-- VNOT (R164): Bitwise not of an entry. -/
  | vnot (d : Nat) (a : Nat) (k : Bool)
  /-- VCMP (R166): Element-wise compare that writes a lane mask. -/
  | vcmp (d : Nat) (a : Nat) (b : Nat) (k : Bool) (m : Bool) (c : Nat) (t : Nat)
  /-- MAND (R167): And of two lane masks. -/
  | mand (d : Nat) (a : Nat) (b : Nat)
  /-- MOR (R167): Or of two lane masks. -/
  | mor (d : Nat) (a : Nat) (b : Nat)
  /-- MXOR (R167): Exclusive or of two lane masks. -/
  | mxor (d : Nat) (a : Nat) (b : Nat)
  /-- MANDN (R167): And-not of two lane masks. -/
  | mandn (d : Nat) (a : Nat) (b : Nat)
  /-- MNOT (R167): Not of a lane mask. -/
  | mnot (d : Nat) (a : Nat)
  /-- MSET (R167): Sets a lane mask to all ones. -/
  | mset (d : Nat)
  /-- MCLR (R167): Clears a lane mask. -/
  | mclr (d : Nat)
  /-- MCNT (R167): Pushes the number of one bits of a mask to a scalar queue. -/
  | mcnt (d : Nat) (a : Nat)
  /-- VPERM (R168): Index-form permutation of elements. -/
  | vperm (d : Nat) (a : Nat) (b : Nat) (k : Bool) (m : Bool) (z : Nat)
  /-- VPERMT (R168): Template-form permutation by the PERM selectors of a control-word table entry. -/
  | vpermt (d : Nat) (a : Nat) (b : Nat) (k : Bool) (m : Bool)
  /-- VRED (R169): Tree reduction of groups of 2^g elements by sum, max or min. -/
  | vred (d : Nat) (a : Nat) (g : Nat) (k : Bool) (o : Nat) (t : Nat)
  /-- VMAXE (R170): Writes the largest element exponent into the scale latch three clocks after issue. -/
  | vmaxe (a : Nat) (k : Bool) (c : Bool) (t : Nat)
  /-- VCVT (R172): Element-wise format conversion. -/
  | vcvt (d : Nat) (a : Nat) (s : Nat) (k : Bool) (f : Nat)
  /-- VQNT (R171): Quantises under the scale latch read at issue. -/
  | vqnt (d : Nat) (a : Nat) (k : Bool) (s : Bool) (f : Nat)
  /-- VCVTSR (R173): Conversion with keyed stochastic rounding. -/
  | vcvtsr (d : Nat) (a : Nat) (b : Nat) (k : Bool) (m : Bool) (s : Nat) (f : Nat)
  /-- VLMUL (R174): LNS16 multiply. -/
  | vlmul (d : Nat) (a : Nat) (b : Nat) (k : Bool) (m : Bool)
  /-- VLDIV (R174): LNS16 divide. -/
  | vldiv (d : Nat) (a : Nat) (b : Nat) (k : Bool) (m : Bool)
  /-- VLSQRT (R174): LNS16 square root. -/
  | vlsqrt (d : Nat) (a : Nat) (k : Bool)
  /-- VLNEG (R174): LNS16 negation. -/
  | vlneg (d : Nat) (a : Nat) (k : Bool)
  /-- VLABS (R174): LNS16 absolute value. -/
  | vlabs (d : Nat) (a : Nat) (k : Bool)
  /-- VLADD (R175): Log-domain add through the log-add table. -/
  | vladd (d : Nat) (a : Nat) (b : Nat) (k : Bool) (m : Bool)
  /-- VLSUB (R175): Log-domain subtract through the log-add table. -/
  | vlsub (d : Nat) (a : Nat) (b : Nat) (k : Bool) (m : Bool)
  /-- VCBX (R176): Expands codebook indices through a bank. -/
  | vcbx (d : Nat) (a : Nat) (b : Nat) (k : Bool) (t : Nat)
  /-- VCBN (R177): Finds the nearest codebook entry for each element. -/
  | vcbn (d : Nat) (a : Nat) (b : Nat) (k : Bool) (t : Nat)
  /-- VRNG (R178): Draws raw, uniform or Gaussian values from the keyed generator. -/
  | vrng (d : Nat) (a : Nat) (k : Bool) (f : Nat)
  /-- VTWR (R179): Raw write of a tile row. -/
  | vtwr (d : Nat) (a : Nat) (b : Nat) (k : Bool) (m : Bool)
  /-- VTWR_CVT (R179): Converting write of a tile row from binary32. -/
  | vtwrCvt (d : Nat) (a : Nat) (b : Nat) (k : Bool) (m : Bool) (f : Nat)
  /-- VTRD (R179): Raw read of a tile row. -/
  | vtrd (d : Nat) (a : Nat) (b : Nat) (m : Bool)
  /-- VTRD_CVT (R179): Read of a tile row converted to binary32. -/
  | vtrdCvt (d : Nat) (a : Nat) (b : Nat) (m : Bool) (f : Nat)
  /-- VTCR (R179): Raw read of a tile column. -/
  | vtcr (d : Nat) (a : Nat) (b : Nat) (m : Bool) (z : Nat)
  /-- VTCR_CVT (R179): Read of a tile column converted to binary32. -/
  | vtcrCvt (d : Nat) (a : Nat) (b : Nat) (m : Bool) (f : Nat)
  /-- VCT8 (R181): Contracts lines of eight binary32 nodes with an 8x8 operator from a tile. -/
  | vct8 (d : Nat) (a : Nat) (b : Nat) (k : Bool) (f : Nat)
  /-- VACRD (R182): Reads and converts one accumulator row. -/
  | vacrd (d : Nat) (a : Nat) (b : Nat) (m : Bool) (f : Nat)
  /-- VSPLAT (R183): Splats a scalar into every element. -/
  | vsplat (d : Nat) (a : Nat) (k : Bool) (z : Nat)
  /-- VEXT (R183): Extracts one element into a scalar queue. -/
  | vext (d : Nat) (a : Nat) (b : Nat) (k : Bool) (m : Bool) (z : Nat)
  /-- VSEL (R183): Selects byte lanes by a mask. -/
  | vsel (d : Nat) (a : Nat) (b : Nat) (k : Bool) (m : Bool) (j : Nat)
  /-- VMOV (R183): Moves an entry between vector queues. -/
  | vmov (d : Nat) (a : Nat) (k : Bool)
  /-- LDS (R234): Scalar load from the own slice. -/
  | lds (x : Bool) (d : Nat) (m : Bool) (b : Nat) (i : Nat) (z : Nat)
  /-- STS (R234): Scalar store to the own slice. -/
  | sts (d : Nat) (m : Bool) (b : Nat) (k : Bool) (i : Nat) (z : Nat)
  /-- LDV (R234): 128-byte load into a vector queue. -/
  | ldv (d : Nat) (m : Bool) (b : Nat) (i : Nat)
  /-- STV (R234): 128-byte store from a vector queue. -/
  | stv (d : Nat) (m : Bool) (b : Nat) (k : Bool) (i : Nat)
  /-- LDT (R234): Load of a tile row from the slice. -/
  | ldt (t : Nat) (m : Bool) (b : Nat) (i : Nat) (r : Nat)
  /-- STT (R234): Store of a tile row to the slice. -/
  | stt (t : Nat) (m : Bool) (b : Nat) (i : Nat) (r : Nat)
  /-- NATOM (R234): Near atomic read-modify-write that returns the old value. -/
  | natom (q : Nat) (m : Bool) (b : Nat) (k : Bool) (i : Nat) (z : Bool) (o : Nat)
  /-- NCAS (R234): Near 4-byte compare-and-swap. -/
  | ncas (q : Nat) (m : Bool) (b : Nat) (i : Nat)
  /-- MCALL (R202): Checks and enters a matrix microroutine call in the call queue and clears its produced tag. -/
  | mcall (p : Nat) (a : Nat) (b : Nat) (r : Nat)
  /-- MPSET (R212): Writes a matrix parameter register. -/
  | mpset (n : Nat) (a : Nat) (k : Bool)
  /-- MPGET (R212): Pushes a matrix parameter register. -/
  | mpget (d : Nat) (n : Nat)
  /-- MPADD (R212): Adds to a matrix parameter register. -/
  | mpadd (n : Nat) (a : Nat) (k : Bool)
  /-- PCWSET (R213): Writes the precision control word. -/
  | pcwset (a : Nat) (k : Bool)
  /-- PCWMEM (R213): Writes the ensemble member field of the PCW. -/
  | pcwmem (a : Nat) (k : Bool)
  /-- SCLD (R214): Writes four scale-table entries from a scalar, landing after 4 clocks. -/
  | scld (g : Nat) (a : Nat) (k : Bool)
  /-- SCLDI (R214): Writes one scale-table entry from an immediate. -/
  | scldi (x : Nat) (v : Nat)
  /-- WSWAP (R215): Enters a call-queue entry that flips the weight-bank tag. -/
  | wswap
  /-- ACLR (R216): Enters a call-queue entry that clears one accumulator tile. -/
  | aclr (t : Nat)
  /-- ACLR_ALL (R216): Enters a call-queue entry that clears every accumulator tile. -/
  | aclrAll
  /-- ACDRN (R217): Enters a call-queue entry that drains accumulator rows to the slice. -/
  | acdrn (p : Nat) (a : Nat) (b : Nat) (w : Bool) (q : Nat)
  /-- GSSET (R218): Writes the Gaussian stream register. -/
  | gsset (a : Nat) (k : Bool)
  /-- FLD (R242): Far load, plain or acquire at a scope. -/
  | fld (p : Nat) (a : Nat) (b : Nat) (f : Nat) (q : Nat)
  /-- FST (R242): Far store, plain or release at a scope. -/
  | fst (p : Nat) (a : Nat) (b : Nat) (f : Nat) (q : Nat)
  /-- FATOM (R242): Far atomic at the owner, including CAS. -/
  | fatom (p : Nat) (a : Nat) (b : Nat) (f : Nat) (q : Nat)
  /-- COPY (R243): Copy with a transform, driven by a transfer descriptor. -/
  | copy (p : Nat) (a : Nat) (b : Nat) (q : Nat)
  /-- GATH (R253): Gathers indexed global rows into the slice. -/
  | gath (p : Nat) (a : Nat) (b : Nat) (q : Nat)
  /-- SCAT (R253): Scatters slice rows to indexed global rows. -/
  | scat (p : Nat) (a : Nat) (b : Nat) (q : Nat)
  /-- MCST (R254): Multicast store into a cluster window. -/
  | mcst (p : Nat) (a : Nat) (b : Nat) (q : Nat)
  /-- CGATH (R255): Collective gather of every member's contribution. -/
  | cgath (p : Nat) (a : Nat) (b : Nat) (q : Nat)
  /-- TWANY (R256): Commits when any masked tag is set. -/
  | twany (a : Nat) (k : Bool)
  /-- TWALL (R256): Commits when every masked tag is set. -/
  | twall (a : Nat) (k : Bool)
  /-- TFIND (R256): Pushes the lowest set tag within a mask. -/
  | tfind (d : Nat) (a : Nat) (k : Bool)
  /-- TCLR (R256): Clears the masked tags one clock later. -/
  | tclr (a : Nat) (k : Bool)
  /-- DRN (R258): Drain whose tag is set once the earlier far commands have performed at the scope. -/
  | drn (p : Nat) (a : Nat) (b : Nat) (f : Nat)
  /-- TXB (R259): Opens a transaction. -/
  | txb (p : Nat) (a : Nat) (b : Nat)
  /-- TXC (R261): Commits or discards the transaction and writes its status. -/
  | txc (p : Nat) (a : Nat) (b : Nat) (q : Nat)
  /-- TXA (R259): Abandons the transaction with code 4. -/
  | txa (p : Nat) (a : Nat) (b : Nat)
  /-- SPAWN (R263): Appends a task descriptor to the cluster task queue. -/
  | spawn (p : Nat) (a : Nat) (b : Nat) (q : Nat)
  /-- TAKE (R263): Takes one task entry by rotation, or writes 32 zero bytes. -/
  | take (p : Nat) (a : Nat) (b : Nat) (q : Nat)
  /-- JOIN (R263): Decrements a join counter and spawns the continuation at zero. -/
  | join (p : Nat) (a : Nat) (b : Nat) (q : Nat)
  /-- CKPT (R264): Drains at DEV scope and arrives at the context's checkpoint. -/
  | ckpt (p : Nat) (a : Nat) (b : Nat)
  /-- CBLD (R265): Loads 16 codebook entries from a slice row. -/
  | cbld (p : Nat) (a : Nat) (b : Nat) (q : Nat)
  /-- CWTLD (R265): Loads 4 control-word table entries. -/
  | cwtld (p : Nat) (a : Nat) (b : Nat) (q : Nat)
  /-- MPSLD (R265): Loads 8 micro-words of the microprogram store. -/
  | mpsld (p : Nat) (a : Nat) (b : Nat) (q : Nat)
  /-- GTLD (R265): Loads 32 Gaussian-table entries. -/
  | gtld (p : Nat) (a : Nat) (b : Nat) (q : Nat)
  /-- LATLD (R265): Loads 32 log-add table entries. -/
  | latld (p : Nat) (a : Nat) (b : Nat) (q : Nat)
  /-- OVLD (R266): Copies code from global memory into the instruction scratchpad, with an optional CRC. -/
  | ovld (p : Nat) (a : Nat) (b : Nat) (q : Nat)
  /-- CBSEL (R267): Flips the active half of a split codebook bank. -/
  | cbsel (n : Nat)
deriving DecidableEq, Repr

end Sys2Proof
end

