-- ==== Sys2Proof/Machine/State.lean ====
section
/-!
DEFINITION. The state of the part: everything the spec names, as plain data (R20), and its value after reset.
Partitions are numbered by global partition index 4n + q, cores by logical index n (R4).
-/

namespace Sys2Proof.Machine

/-- The run states of a partition (R25). -/
inductive RunState where
  | idle | running | halted
deriving DecidableEq, Repr

/-- One level of the loop stack (R23). -/
structure LoopLevel where
  remaining : Nat
  start     : Nat
  stop      : Nat
deriving DecidableEq, Repr

/-- Predicate-block state (R24, R83): bundles still guarded, the pattern of those bundles from bit 0, and the
predicate. -/
structure PBlk where
  rem  : Nat
  pat  : Nat
  pred : Nat
deriving DecidableEq, Repr

/-- The three states of a tile bank (R34). -/
inductive BankState where
  | off | retention | on
deriving DecidableEq, Repr

/-- A tile-power bank (R34, R36): its request, its state, the transition in progress (target and clocks left), whether
a requested lowering waits for tile writes, its dirty bit, and whether its contents began with the kernel's start (0), with a
restore from the kernel's slot (1), or with one from a checkpoint (2) (R333). -/
structure TBank where
  req     : BankState
  state   : BankState
  target  : BankState
  left    : Nat
  pending : Bool
  dirty   : Bool
  origin  : Nat
deriving DecidableEq, Repr

/-- What a result does when it lands: the kinds of R324. -/
inductive LandAct where
  | spush (q : Nat) (v : W64)
  | vpush (q : Nat) (v : V1024)
  | tileRow (t row : Nat) (en : V1024) (v : V1024)
  | pred (k : Nat) (v : Bool)
  | mask (k : Nat) (v : W128)
  | creg (c : Nat) (en : Nat) (v : W64)
  | sema (k n : Nat)
  | table (tbl bank first : Nat) (rows : List Nat) (tag : Nat) (cmd : Nat)
  | cbsel (k : Nat)
  | mparam (k : Nat) (v : W64)
  | tagClear (m : W64)
deriving DecidableEq, Repr

/-- A result in flight (R26): the core clock it lands on, and its place in the order of R28. -/
structure Landing where
  due    : Nat
  issued : Nat
  gpi    : Nat
  slot   : Nat
  flags  : Nat
  act    : LandAct
deriving DecidableEq, Repr

/-- A captured result (R322, R324): REM and AGE in place of clocks, and whether a handler's bundle put it in flight
(R329). -/
structure SnapEntry where
  rem   : Nat
  age   : Nat
  slot  : Nat
  flags : Nat
  act   : LandAct
  nest  : Bool
deriving DecidableEq, Repr

/-- The header values that apply to one slot (R68 to R72) or one template reference (R77). -/
structure Mod where
  headed   : Bool
  ext      : Nat
  width    : Nat
  rm       : Option RMode
  cf       : Option Nat
  perm     : Nat
  template : Bool
deriving DecidableEq, Repr

/-- A slot whose check failed at issue: the slot, the cause code of R319, and words 2's VALUE and AUX of R325. -/
structure Mark where
  slot  : Nat
  cause : Nat
  value : Nat
  aux   : Nat
deriving DecidableEq, Repr

/-- A pending group 2 of a compact bundle (R75, R83, R326): its bundle, whether slots 1 to 3 execute, and the mask of
the slots that group 1 committed. -/
structure Group2 where
  word  : W128
  guard : Bool
  done  : Nat
deriving DecidableEq, Repr

/-! ### Matrix unit (06) -/

/-- A cell of the accumulator file (R195): its 80-bit integer X and its sticky bit S. -/
structure AccCell where
  x : Int
  s : Bool
deriving DecidableEq, Repr

/-- HOLD and EA of an accumulator tile (R41, R205). -/
structure AccTag where
  hold : Bool
  ea   : Nat
deriving DecidableEq, Repr

/-- The census of one band of a weight bank (R191): its top and lowest retained plane and their number. -/
structure Census where
  hi : Nat
  lo : Nat
  n  : Nat
deriving DecidableEq, Repr

/-- A stationary weight bank (R184, R224): what its unlisted blocks hold (zero, or the free cells of a filling), its
blocks by 256 * band + column, each 16 words in the form of R332 (planes in [7:0], sign latch in [8], scale index in
[12:9]), the block exponents of compatibility mode (R197), the census of its bands, and the plane limit of the call that
loaded it (R191). -/
structure WBank where
  fill   : Nat
  blocks : Cells (List W16)
  exps   : Cells Int
  census : Cells Census
  plim   : Nat
deriving DecidableEq, Repr

/-- A bank of zeros (R221). -/
def WBank.zero : WBank := ⟨0, [], [], [], 0⟩

/-- The codebook configuration a call captures of one bank (R204). -/
structure CapBank where
  k     : Nat
  whole : Bool
  act   : Bool
  etype : Nat
  elen  : Nat
  valid : Nat
deriving DecidableEq, Repr

/-- The kinds of call-queue entry (R206): an ACLR names its tiles by a mask, an ACDRN holds its argument words. -/
inductive CallKind where
  | mcall (routine : Nat)
  | wswap
  | aclr (tiles : Nat)
  | acdrn (w xb : Nat)
deriving DecidableEq, Repr

/-- How far a call-queue entry has come (R207, R208). -/
inductive CallStage where
  | queued | running | ended
deriving DecidableEq, Repr

/-- A fault met after commit (R318): its cause code, and VALUE and AUX of R325. -/
structure LateFault where
  cause : Nat
  value : Nat
  aux   : Nat
deriving DecidableEq, Repr

/-- A call-queue entry with its call-local state (R206, R223): what its fault record names, what it captured at issue
(R204) with the two bank groups that an MCALL reserves (R209), the place of its stream, and its clocks: those the microsequencer is still held, the first clock after its last
landing and that after its end, in the core's long-operation clocks; stepped says that it has had its step of this
clock. -/
structure Call where
  id     : Nat
  kind   : CallKind
  gpi    : Nat
  bno    : Nat
  pc     : Nat
  half   : Bool
  grp    : Nat
  tag    : Option Nat
  needs  : List Nat
  age    : Nat
  stage  : CallStage
  pcw    : W64
  gstrm  : W32
  mps    : Cells W64
  agrp   : Nat
  bgrp   : Nat
  sctab  : Cells W16
  cbs    : List CapBank
  awm    : Nat
  acm    : Nat
  word   : Nat
  row    : Nat
  xb     : Nat
  mem    : Nat
  loops  : Cells Nat
  btag   : Bool
  flags  : Nat
  rows   : Nat
  moved  : Nat
  busy   : Nat
  primed : Bool
  waiting : Bool
  syncing : Bool
  stepped : Bool
  bands  : List Nat
  land   : Nat
  ended  : Nat
  held   : Bool
  fault  : Option LateFault
deriving DecidableEq, Repr

/-- What a matrix-unit result does when it lands (R222): the additions into one row, cleared first or not, each column
with its integers in order and its sticky bit; or a tile cleared. -/
inductive MatAct where
  | addRow (tile row : Nat) (clear : Bool) (ea : Nat) (cols : List (List Int × Bool))
  | clearTile (tile : Nat)
deriving DecidableEq, Repr

/-- A matrix-unit result in flight: its clock and its call. -/
structure MatLanding where
  due   : Nat
  call  : Nat
  act   : MatAct
deriving DecidableEq, Repr

/-- A background weight-bank load or zeroing (R221): when it completes, its call, its bank and the bank's new
contents. -/
structure BankLoad where
  due  : Nat
  call : Nat
  bank : Nat
  new  : WBank
deriving DecidableEq, Repr

/-- A slot-2 access that performs on the clock after its issue (R231). -/
inductive Near where
  | load (q size : Nat) (signed : Bool) (a : Nat)
  | store (a size v : Nat)
  | loadV (q a : Nat)
  | loadT (t row a : Nat)
  | atomic (q size op a : Nat) (x : Nat)
  | cas (q a : Nat) (x : Nat)
deriving DecidableEq, Repr

structure NearAccess where
  gpi    : Nat
  slot   : Nat
  issued : Nat
  acc    : Near
deriving DecidableEq, Repr

/-! ### Engine commands (07) -/

/-- Where a global address leads (R236): a core's slice, device memory, or a fabric peer. -/
inductive Owner where
  | slice (n : Nat)
  | hbm
  | peer (dst : Nat)
deriving DecidableEq, Repr

/-- A translation of one virtual page (R337): its owner, its physical base, its size 2^bits and whether it is writable;
or the level and reason of a fault (R325). -/
inductive Xlate where
  | page (o : Owner) (pa bits : Nat) (w : Bool)
  | bad (level reason : Nat)
deriving DecidableEq, Repr

/-- An entry of a translation buffer (R338, R353): its context, an address of its page and the translation; its set and way,
and the clock of its last use. -/
structure TlbEntry where
  ctx  : Nat
  base : Nat
  x    : Xlate
  set  : Nat
  way  : Nat
  used : Nat
deriving DecidableEq, Repr

/-- A page walk (R353): its die, its command and page, the clocks left to it, or none while it waits for a walker, and, where a
budget holds it, the period from which it may go on (R303). -/
structure Walk where
  die  : Nat
  gpi  : Nat
  cmd  : Nat
  va   : Nat
  left : Option Nat
  due  : Nat
deriving DecidableEq, Repr

/-- The engine commands of R238; .table is a table load of R265. -/
inductive EngKind where
  | fld | fst | fatom | copy | gath | scat | mcst | cgath | drn | txb | txc | txa | spawn | take | join | ckpt
  | table | ovld
deriving DecidableEq, Repr

/-- An engine command from its issue to its completion (R238 to R240, R332): its kind and FN field, what its fault
record names (R325, R326), its tags (R239), its argument words, and the number of the transaction it was issued in (R262); the issue
clocks since, whether it has started, has looked up its pages and is counting its time, the clocks since it began to
count and those left; the commands and posted writes it waits for before its start or its drain ends (R274, R277); what
it read at its start, the bytes it has read and not yet converted, those converted and not yet written, the tiles on their way through its
codec with the clock of its own on which each leaves it (R345), the writes it still owes beside its destination (scales of R245, by
row; rows that a peer refused, R366), the positions
its reads and writes have reached, the rows completed, the checksum so far, a count of its own last steps, and its
flags; its translations and the pages it waits for (R353), the state of its access to a peer (0 none, 1 sent,
2 acknowledged), the contributions landed (R367), and its place in the record ring (R308). -/
structure Cmd where
  id      : Nat
  kind    : EngKind
  fn      : Nat
  gpi     : Nat
  bno     : Nat
  pc      : Nat
  half    : Bool
  grp     : Nat
  tag     : Nat
  needs   : List Nat
  words   : List Nat
  intx    : Option Nat
  age     : Nat
  started : Bool
  looked  : Bool
  counting : Bool
  ran     : Nat
  left    : Nat
  gate    : Option (List Nat)
  desc    : List Nat
  data    : List W8
  out     : List W8
  codec   : List (Nat × List W8)
  owed    : List (Nat × List W8)
  rd      : Nat
  wr      : Nat
  rows    : Nat
  crc     : Nat
  aux     : Nat
  flags   : Nat
  pages   : Cells Xlate
  waits   : List Nat
  sent    : Nat
  landed  : List Nat
  place   : Nat
  held    : Bool
  fault   : Option LateFault
deriving DecidableEq, Repr

/-- A byte held in a transaction's write buffer (R260). -/
structure TxByte where
  owner : Owner
  addr  : Nat
  val   : W8
deriving DecidableEq, Repr

/-- A tile that a transaction has marked at its owner (R260): tile number, the virtual address it was first touched
through, whether it was written, and the clock of the touch. -/
structure TxMark where
  owner : Owner
  tile  : Nat
  va    : Nat
  wr    : Bool
  clock : Nat
deriving DecidableEq, Repr

/-- A partition's transaction (R259 to R262): its number, its doom code (0 while not doomed) and address, its buffer and marks, the
largest latency class among its accesses (R237), whether its writes are being applied (R261), and whether TXA has
abandoned it, its marks still held (R260). -/
structure Tx where
  no    : Nat
  code  : Nat
  va    : Nat
  buf   : List TxByte
  marks : List TxMark
  far   : Nat
  applying : Bool
  gone  : Bool
deriving DecidableEq, Repr

/-- A write held in a cluster's posting buffer (R271): whether a frame carries it to a peer (R365), whether it goes to its
owner on this clock, its command, the virtual address it was made through, and whether it ends a row. -/
structure Posted where
  id    : Nat
  sent  : Bool
  go    : Bool
  gpi   : Nat
  cmd   : Nat
  va    : Nat
  last  : Bool
  owner : Owner
  addr  : Nat
  data  : List W8
deriving DecidableEq, Repr

/-! ### Partition (01) -/

/-- A partition waiting in BARW (R148): scope, unit, the clocks of its own since its arrival, and the clocks left once
its release is under way (R315). -/
structure BarWait where
  scope : Nat
  unit  : Nat
  own   : Nat
  left  : Option Nat
deriving DecidableEq, Repr

/-- The sequencer state of a partition that HENTER holds (R328), with the waits it stands in. -/
structure SeqState where
  pc     : Nat
  half   : Bool
  loops  : List LoopLevel
  pblk   : PBlk
  run    : RunState
  group2 : Option Group2
  hold   : Nat
  barw   : Option BarWait
  ckpt   : Bool
deriving DecidableEq, Repr

/-- What a trap about to be taken records (R318, R325, R326). -/
structure TrapInfo where
  cause : Nat
  grp2  : Bool
  fmask : Nat
  cmask : Nat
  long  : Bool
  ctag  : Nat
  tcode : Nat
  pc    : Nat
  half  : Bool
  value : Nat
  aux   : Nat
  rows  : Nat
  moved : Nat
  uword : Nat
  urow  : Nat
deriving DecidableEq, Repr

/-- Everything of one partition (R20). -/
structure Part where
  run    : RunState
  half   : Bool
  pc     : Nat
  loops  : List LoopLevel
  pblk   : PBlk
  group2 : Option Group2
  sq     : Cells (List W64)
  vq     : Cells (List V1024)
  tiles  : Cells V1024
  banks  : Cells TBank
  preds  : BitVec 8
  masks  : Cells W128
  tags   : W64
  owners : Cells Nat
  flags  : BitVec 6
  slatch : W8
  pcw    : W64
  mps    : Cells W64
  gstrm  : W32
  hold   : Nat
  stale  : List (Nat × W128)
  barw   : Option BarWait
  ckpt   : Bool
  cmds   : List Cmd
  tx     : Option Tx
  late   : List (LateFault × Nat)
  ripe   : Nat
  frec   : Cells W64
  snap   : List SnapEntry
  held   : Option SeqState
  bno    : Nat
  setNow : W64
  orNow  : BitVec 6
  trapNow : Option TrapInfo
deriving DecidableEq, Repr

/-- A bank that is off and idle. -/
def TBank.idle : TBank := ⟨.off, .off, .off, 0, false, false, 0⟩

/-- A partition as device reset and kernel start leave it (R20, R21): q is its index in its core. The active half and
the program counter have no reset value of their own; 0 stands there (DESIGN CHOICE, assumption log 3), as does off
for every tile-bank request. -/
def Part.initial (q : Nat) : Part where
  run := if q = 0 then .running else .idle
  half := false
  pc := 0
  loops := []
  pblk := ⟨0, 0, 0⟩
  group2 := none
  sq := []
  vq := []
  tiles := []
  banks := []
  preds := 0
  masks := []
  tags := 0
  owners := []
  flags := 0
  slatch := 0x7F
  pcw := 0
  mps := []
  gstrm := 0
  hold := 0
  stale := []
  barw := none
  ckpt := false
  cmds := []
  tx := none
  late := []
  ripe := 0
  frec := []
  snap := []
  held := none
  bno := 0
  setNow := 0
  orNow := 0
  trapNow := none

/-! ### Core -/

/-- How a core is stopped (R321, R328): the clock count CYCLE at its boundary, the clocks left to a resumption under
way, whether a checkpoint or a pre-emption stops it, the partition in handler state, whether the handler runs, the
first number of the commands and calls that it issues (R329), whether its long operations are at rest (R321, R330), and
whether a completed checkpoint sets its CKPT tags at b' (R334). -/
structure Stop where
  cyc     : Nat
  resume  : Option Nat
  quiet   : Bool
  handler : Option Nat
  active  : Bool
  from_   : Nat
  rest    : Bool
  ckpt    : Bool
deriving DecidableEq, Repr

/-- A write that step 3 of R232 applies to a slice on this clock: the issuing partition and command, whether it is a multicast
row (R279), and its bytes. -/
structure FarWrite where
  gpi  : Nat
  id   : Nat
  mc   : Bool
  addr : Nat
  data : List W8
deriving DecidableEq, Repr

/-- A 128-byte row of a slice that a command uses on this clock (R340). -/
structure RowUse where
  gpi : Nat
  id  : Nat
  row : Nat
deriving DecidableEq, Repr

/-- A request held at its core (R303): its command, its side of it (0 the source, 1 the destination, 2 a write owed), its bytes,
and the period from which it may pass; 0 where it waits for room in a buffer (R352, R365). -/
structure Hold where
  gpi  : Nat
  id   : Nat
  side : Nat
  n    : Nat
  due  : Nat
deriving DecidableEq, Repr

/-- CORECTL fields that hold a value (R328). -/
structure CoreCtl where
  q     : Nat
  hhalf : Bool
  hpc   : Nat
  hrofs : Nat
  err   : Bool
deriving DecidableEq, Repr

/-- Everything of one core (R20). Of the model's own: semaNow, what SEMWAITs of this clock have subtracted (R146); poised, the
core waits at the CYCLE value at which its lockstep kernel is to stop for the others to reach it (R300; assumption log 23);
past, the slice and the side banks as the expander read them on the last clocks of the running call, the youngest first, since it
delivers 4 clocks later (R341, R345); farNow, the writes of step 3 of R232 on this clock, which enter the slice when every access of the
clock is made; rowsNow and tilesNow, the rows, and the group's expanders (2g) and compressors (2g + 1), that engines use on
this clock (R340, R345); holds, the requests held at the core, the oldest first (R303); and cbOrigin,
of each codebook bank whether its contents began with the kernel's start (0), with a restore from its slot (1), or with one from a
checkpoint (2) (R333). -/
structure Core where
  kernel : Option Nat
  lock   : Bool
  imem   : Mem
  slice  : Mem
  side   : Mem
  tick   : Nat
  cycle  : Nat
  frz    : Nat
  begun  : Bool
  kseed  : W64
  sema   : Cells Nat
  semaNow : Cells Nat
  cbcfg  : Cells W64
  cbook  : Cells W64
  cbDirty : BitVec 8
  sctab  : Cells W16
  cwt    : Cells W256
  mpst   : Cells W128
  gtab   : Cells W32
  latab  : Cells W32
  acc    : Cells (List AccCell)
  accTag : Cells AccTag
  accView : Cells AccTag
  wbanks : Cells WBank
  btag   : Bool
  calls  : List Call
  lclk   : Nat
  matPend : List MatLanding
  loads  : List BankLoad
  accReady : Cells Nat
  addDone : Cells Nat
  bankFree : Cells Nat
  bankDone : Cells Nat
  lastEnd : Nat
  pend   : List Landing
  near   : List NearAccess
  stop   : Option Stop
  stopAt : Option Nat
  stopReq : Bool
  poised : Bool
  ctl    : CoreCtl
  frozen : Bool
  charge : Nat
  window : List Nat
  tlb    : List TlbEntry
  outrow : Cells Nat
  past   : List (Mem × Mem)
  farNow : List FarWrite
  rowsNow : List RowUse
  tilesNow : List Nat
  holds  : List Hold
  cbOrigin : Cells Nat
deriving DecidableEq, Repr

/-- A core as device reset leaves it. Its memories read as zero after the clearing of boot (R377). OUTROW is 16 in every
band: no row repaired (PRESUMED, assumption log 4). -/
def Core.initial : Core where
  kernel := none
  lock := false
  imem := Mem.zero
  slice := Mem.zero
  side := Mem.zero
  tick := 0
  cycle := 0
  frz := 0
  begun := false
  kseed := 0
  sema := []
  semaNow := []
  cbcfg := []
  cbook := []
  cbDirty := 0
  sctab := []
  cwt := []
  mpst := []
  gtab := []
  latab := []
  acc := []
  accTag := []
  accView := []
  wbanks := []
  btag := false
  calls := []
  lclk := 0
  matPend := []
  loads := []
  accReady := []
  addDone := []
  bankFree := []
  bankDone := []
  lastEnd := 0
  pend := []
  near := []
  stop := none
  stopAt := none
  stopReq := false
  poised := false
  ctl := ⟨0, false, 0, 0, false⟩
  frozen := false
  charge := 0
  window := []
  tlb := []
  outrow := []
  past := []
  farNow := []
  rowsNow := []
  tilesNow := []
  holds := []
  cbOrigin := []

/-! ### The bundle in progress and the device -/

/-- A raw slot word of the bundle being issued: its slot, its word, the further words that must decode for a template
(R78), the header values that apply, its width code (R68, R77), and the vector and scalar ports allotted to it or, of a
template, stated for it. -/
structure RawSlot where
  slot  : Nat
  word  : Nat
  also  : List Nat
  mod   : Mod
  wcode : Nat
  vp    : Nat
  sp    : Nat
deriving DecidableEq, Repr

/-- The bundle or issue group in progress: the model's own field, empty between bundles (assumption log 1). Its slot
words still to decode, the bundle's own bits, the slots committed before it, the queue entries its reads have taken (scalar queue q at q, vector queue v at 32 + v), the
queues it clears, the results it will put in flight, the slots that fail a check, whether it waits, the transfer
slot 0 takes, and what it does to its partition after it commits. -/
structure Cursor where
  core   : Nat
  gpi    : Nat
  slot   : Nat
  mod    : Mod
  staged : List RawSlot
  word   : W128
  group  : Nat
  done   : Nat
  guard  : Bool
  covered : Bool
  others : Nat
  taken  : Cells Nat
  clears : List Nat
  out    : List Landing
  marks  : List Mark
  wait   : Bool
  next   : Option Nat
  newHalf : Bool
  hold   : Nat
  trap   : Option Nat
  ends   : Option RunState
  resume : Bool
deriving DecidableEq, Repr

/-- The header values of the plain form: no extension, and the width that R71 gives a lone vector operation. -/
def Mod.plain : Mod := ⟨false, 0, 1024, none, none, 0, false⟩

/-- No bundle in progress. -/
def Cursor.empty : Cursor where
  core := 0
  gpi := 0
  slot := 0
  mod := Mod.plain
  staged := []
  word := 0
  group := 0
  done := 0
  guard := true
  covered := false
  others := 0
  taken := []
  clears := []
  out := []
  marks := []
  wait := false
  next := none
  newHalf := false
  hold := 0
  trap := none
  ends := none
  resume := false

/-- One step still to run on this clock: the core it concerns and the step. -/
structure Turn where
  core : Nat
  op   : Instr
deriving DecidableEq, Repr

/-! ### Clusters, kernels, contexts (09, 10) -/

/-- A barrier unit (R313, R315): its participants, the arrivals of the current phase, and the phase bit. -/
structure BarUnit where
  parts   : List Nat
  arrived : List Nat
  phase   : Bool
deriving DecidableEq, Repr

/-- Everything of one cluster. The task queue (R310) is its entries with their slots, oldest first, and the index the
next entry takes. -/
structure Cluster where
  posted   : List Posted
  tqTail   : Nat
  tq       : List (Nat × W256)
  bars     : Cells BarUnit
  mcwin    : Cells W128
  glimit   : Nat
  limit    : Nat
  kernel   : Option Nat
  clearing : Option Nat
  out      : Nat
  dead     : Bool
deriving DecidableEq, Repr

/-- A cluster as device reset leaves it: GLIMIT 7,680 (R379); OUT 16 and DEAD 0, the map of a part with no repair
(PRESUMED, assumption log 4). -/
def Cluster.initial : Cluster where
  posted := []
  tqTail := 0
  tq := []
  bars := []
  mcwin := []
  glimit := 7680
  limit := 7680
  kernel := none
  clearing := none
  out := 16
  dead := false

/-- What a save image or a checkpoint image holds of a kernel (R331, R332): its clusters' queues and barrier units, its
cores, its partitions, and its die and device barrier units. -/
structure Image where
  clusters : Cells Cluster
  cores    : Cells Core
  parts    : Cells Part
  units    : Cells BarUnit
deriving DecidableEq, Repr

/-- Where a packet past its dispatch begin stands (R290, R300): a marker passes from there straight to its end. -/
inductive KStage where
  | waiting | running | stopping | preempted | ending | marker
deriving DecidableEq, Repr

/-- A packet past dispatch begin and the kernel it becomes (R289 to R301). The die units stand under 64 * die + unit and
the device units under 128 + unit. owes says that an ended kernel's completion word is still to be added to
(R290); aim is the CYCLE value at which a lockstep kernel's cores are to stop for a pre-emption (R300). -/
structure Kernel where
  queue   : Nat
  index   : Nat
  ctx     : Nat
  packet  : List Nat
  desc    : List Nat
  stage   : KStage
  prio    : Nat
  since   : Nat
  periods : Nat
  placed  : Nat
  clusters : List Nat
  seed    : W64
  units   : Cells BarUnit
  slot    : Option Nat
  image   : Option Image
  dropped : Nat
  report  : Nat
  owes    : Bool
  aim     : Option Nat
deriving DecidableEq, Repr

/-- A user queue as the dispatch unit knows it beyond its entry in memory (R288): the write index last landed, and the
packets that have begun dispatch and not completed. -/
structure UQueue where
  widx : Option W64
  live : List Nat
deriving DecidableEq, Repr

/-- A row of a contribution to a fabric collective on its way to one member (R367): context, group, the sender's rank,
the member's partition, the row, the sender's BYTES, and the row's bytes; of one that a frame brought, the peer and the frame's
sequence number, for the acknowledgement follows its landing (R365). -/
structure Gather where
  ctx    : Nat
  grp    : Nat
  rank   : Nat
  dst    : Nat
  row    : Nat
  bytes  : Nat
  data   : List W8
  frame  : Option (Nat × Nat)
deriving DecidableEq, Repr

/-- The checkpoint state of a context (R327, R334, R335): the interval count, the three status bits, whether a write
of the interval performed unlogged (R335), the bank of the valid checkpoint, the bytes of the log in use, the lines (none) and tiles (some core) already logged, the kernels of the valid
checkpoint with their images, and the CYCLE that the core of the last arrival had at it (R334). -/
structure Ckpt where
  interval : Nat
  valid    : Bool
  ovf      : Bool
  rbk      : Bool
  lost     : Bool
  short    : Bool
  bank     : Nat
  used     : Nat
  logged   : List (Option Nat × Nat)
  kernels  : Cells Kernel
  last     : Nat
deriving DecidableEq, Repr

/-- Everything of one context (R285 to R287, R305, R327, R366): of its record ring the next place, the places written out of
order, and the next sequence number of each partition's stream and of the dispatch unit's (R308). -/
structure Context where
  active   : Bool
  record   : List Nat
  seed     : W64
  since    : Nat
  used     : Cells Nat
  ck       : Ckpt
  savebase : W64
  ckbase   : W64
  logbase  : W64
  logsize  : W64
  cgbase   : W64
  windows  : Cells W64
  recNext  : Nat
  recDone  : List Nat
  seqs     : Cells Nat
  reports  : Nat
deriving DecidableEq, Repr

/-- A context as device reset leaves it (R286, R287, R327, R366). CTXSEED has no value before an activation loads SEED:
0 stands there (DESIGN CHOICE, assumption log 3). -/
def Context.initial : Context where
  active := false
  record := []
  seed := 0
  since := 0
  used := []
  ck := ⟨0, false, false, false, false, false, 0, 0, [], [], 0⟩
  savebase := 0
  ckbase := 0
  logbase := 0
  logsize := 0
  cgbase := 0
  windows := []
  recNext := 0
  recDone := []
  seqs := []
  reports := 0

/-! ### The device (11, 12) -/

/-- A frame the device has sent and not had acknowledged (R365): the frame, its port (12 while none is up), the
attempts so far, the clocks left to the next, and the command, the posted write or the hart with its operation, if any, that waits
for it. -/
structure OutFrame where
  frame : Sys2Proof.Frame
  port  : Nat
  tries : Nat
  left  : Nat
  cmd   : Option (Nat × Nat)
  post  : Option Nat
  hart  : Option (Nat × Sys2Proof.HartOp)
deriving DecidableEq, Repr

/-- An acknowledgement the device has sent (R365, R366): the flow's context and peer, the sequence number, whether it
refuses, and the bytes that a read or an atomic returns. -/
structure AckOut where
  ctx     : Nat
  peer    : Nat
  seq     : Nat
  refused : Bool
  data    : List W8
deriving DecidableEq, Repr

/-- A fabric flow (R365, R368): its context and peer device, the next sequence number to send, the frames awaiting
acknowledgement, the next expected on receipt, the frames held early, the answers to delivered frames not yet sent, each with
the clock from which it may go (none until its write is applied), and whether it is dead. -/
structure Flow where
  ctx    : Nat
  peer   : Nat
  send   : Nat
  out    : List OutFrame
  expect : Nat
  early  : List Sys2Proof.Frame
  owed   : List (AckOut × Option Nat)
  dead   : Bool
deriving DecidableEq, Repr

/-- A management semaphore (R372): OWNER, the management clocks left of its lease, and ERR. -/
structure MSem where
  owner : Nat
  lease : Nat
  err   : Bool
deriving DecidableEq, Repr

/-- A memory-error block (R356). -/
structure MemErr where
  cecnt : Cells W64
  uestat : W64
  ueaddr : W64
  uecnt : W64
deriving DecidableEq, Repr

/-- The stages of the boot sequence (R373 to R377). -/
inductive Boot where
  | off | recovery | running
deriving DecidableEq, Repr

/-- The root-of-trust controller (R373 to R377): its stage, the stored key digests and security version counter, the
boot flash, the mailbox buffer, the measurements by index, the running image's SVN, the repair record (request words of
R359, oldest first), whether the harts are released, the P-384 device key (R377), and the physical rows that each bank needs
replaced, as the boot firmware finds them: bank b of physical position p of cluster c at 64 (17 c + p) + b (R343). -/
structure Amvin where
  boot    : Boot
  ecKey   : List W8
  lmsKey  : List W8
  counter : W64
  flash   : Mem
  mailbox : Mem
  meas    : Cells (List W8)
  svn     : Nat
  repair  : List Nat
  released : Bool
  devKey  : List W8
  worn    : Cells (List Nat)
deriving DecidableEq, Repr

/-- The repair block (R359, R360): the fields of REPAIR as last written, the accepted request with the clocks left to it, ERR, and
the requests of this clock still to be settled. -/
structure Repair where
  word : W64
  left : Option Nat
  err  : Bool
  job  : Nat
  asked : List Nat
deriving DecidableEq, Repr

/-- The whole part. tlbJobs are the invalidations under way, each with its TLBINV word and the clocks left to it (R338); remap is
each bank's row remap table: the rows that its spares replace (R343); hartErr is the address of a hart's last access fault, and
whether its cause is the hardware error (R361, R369); mgmtSig is the signature of the last report of measurements (R377). -/
structure State where
  agenda  : List Turn
  phase   : Nat
  phCore  : Nat
  clock   : Nat
  cur     : Cursor
  freeCtr : Nat
  nextId  : Nat
  parts   : Cells Part
  cores   : Cells Core
  clusters : Cells Cluster
  kernels : Cells Kernel
  ctxs    : Cells Context
  gathers : List Gather
  hbm     : Mem
  peers   : Cells Mem
  resv    : Cells Nat
  -- dispatch block (R287)
  ctxbase : W64
  qtbase  : W64
  ctxen   : BitVec 16
  ctxerr  : BitVec 16
  ctxovr  : BitVec 16
  queues  : Cells UQueue
  stalled : Bool
  -- trap block (R327)
  trpend  : List Nat
  tlbinv  : W64
  tlbJobs : List (Nat × Nat)
  dieTlb  : Cells (List TlbEntry)
  walks   : List Walk
  -- map and fabric blocks (R359, R366)
  repair  : Repair
  remap   : Cells (List Nat)
  devid   : W64
  fgbase  : W64
  pcfg    : Cells W64
  flows   : List Flow
  -- management, errors, interrupts, boot, tray
  msem    : Cells MSem
  memerr  : Cells MemErr
  iroute  : Cells W64
  irqHeld : List Nat
  irqSent : List (Nat × Nat)
  hartErr : Cells (Nat × Bool)
  hartOut : Cells Nat
  hartGate : Cells (List Nat)
  badBeats : List Nat
  mgmtOut : Cells Nat
  mgmtSig : Cells (List W8)
  acksOut : List AckOut
  amvin   : Amvin
  alarm   : Bool
  inbox   : List (Nat × Instr)
deriving DecidableEq, Repr

/-- Why the machine stops: there is no such reason, since the spec gives every step an effect in every state. -/
inductive Fault
deriving DecidableEq, Repr

/-- Why the model refuses a step. -/
inductive Refusal where
  /-- The instruction has no meaning yet: raised by its arm of exec; safe. -/
  | notModelled (mnemonic : String)
deriving DecidableEq, Repr

/-- The part after device reset. The memories of a fabric peer are not this device's: their bytes are free values. The key
digests and the device key of the root-of-trust controller have no value in the spec: 48 bytes of zero stand for each (DESIGN
CHOICE, assumption log 103). -/
def State.reset : State where
  agenda := []
  phase := 0
  phCore := 0
  clock := 0
  cur := Cursor.empty
  freeCtr := 0
  nextId := 0
  parts := []
  cores := []
  clusters := []
  kernels := []
  ctxs := []
  gathers := []
  hbm := Mem.zero
  peers := []
  resv := []
  ctxbase := 0
  qtbase := 0
  ctxen := 0
  ctxerr := 0
  ctxovr := 0
  queues := []
  stalled := false
  trpend := []
  tlbinv := 0
  tlbJobs := []
  dieTlb := []
  walks := []
  repair := ⟨0, none, false, 0, []⟩
  remap := []
  devid := 0
  fgbase := 0
  pcfg := []
  flows := []
  msem := []
  memerr := []
  iroute := []
  irqHeld := []
  irqSent := []
  hartErr := []
  hartOut := []
  hartGate := []
  badBeats := []
  mgmtOut := []
  mgmtSig := []
  acksOut := []
  amvin := ⟨.off, List.replicate 48 0, List.replicate 48 0, 0, Mem.zero, Mem.zero, [], 0, [], false, List.replicate 48 0, []⟩
  alarm := false
  inbox := []

end Sys2Proof.Machine
end

