-- ==== Sys2Proof/Machine/Ops.lean ====
section
/-!
DEFINITION. The named operations every meaning is written over: parts and cores by number, the queue procedure of
R30, results put in flight (R26), checks that fail at issue (R86), and the registers an instruction reads.
-/

namespace Sys2Proof.Machine

/-! ### Parts and cores -/

def State.part (s : State) (p : Nat) : Part := Cells.get (Part.initial (p % 4)) p s.parts
def State.core (s : State) (n : Nat) : Core := Cells.get Core.initial n s.cores

def State.setPart (s : State) (p : Nat) (x : Part) : State := { s with parts := Cells.put p x s.parts }
def State.setCore (s : State) (n : Nat) (x : Core) : State := { s with cores := Cells.put n x s.cores }

def State.updPart (s : State) (p : Nat) (f : Part → Part) : State := s.setPart p (f (s.part p))
def State.updCore (s : State) (n : Nat) (f : Core → Core) : State := s.setCore n (f (s.core n))

/-- The partition and the core of the bundle in progress. -/
def State.me (s : State) : Part := s.part s.cur.gpi
def State.myCore (s : State) : Core := s.core s.cur.core

def State.updMe (s : State) (f : Part → Part) : State := s.updPart s.cur.gpi f
def State.updMyCore (s : State) (f : Core → Core) : State := s.updCore s.cur.core f
def State.updCur (s : State) (f : Cursor → Cursor) : State := { s with cur := f s.cur }

/-- A free choice below n (0 where n is 0), and the state with the choice counted (assumption log 2). -/
def State.draw (n : Nat) (s : State) : Nat × State :=
  (Config.freeNat s.freeCtr % n, { s with freeCtr := s.freeCtr + 1 })

/-! ### Cause codes of R319 -/

def causeIllegalBundle : Nat := 0x01
def causeIllegalEncoding : Nat := 0x02
def causeIllegalSequence : Nat := 0x03
def causeUnderflow : Nat := 0x10
def causeOverflow : Nat := 0x11
def causeLoopOverflow : Nat := 0x12
def causeLoopUnderflow : Nat := 0x13
def causeSemaphore : Nat := 0x14
def causeBankAsleep : Nat := 0x15
def causeInvalidIndex : Nat := 0x16
def causeCodebookBusy : Nat := 0x17
def causeBankConflict : Nat := 0x18
def causeAccFormat : Nat := 0x19
def causePrecisionWord : Nat := 0x1A
def causeMicroroutine : Nat := 0x1B
def causeGeneratorKey : Nat := 0x1C
def causeScale : Nat := 0x1D
def causeEngineArgument : Nat := 0x1E
def causeBarrier : Nat := 0x1F
def causeTranslation : Nat := 0x20
def causeTransferDescriptor : Nat := 0x21
def causeDecodeError : Nat := 0x22
def causeRegionOverflow : Nat := 0x23
def causeCollective : Nat := 0x24
def causeTaskQueue : Nat := 0x25
def causeReplay : Nat := 0x26
def causeSoftware : Nat := 0x30
def causePreemption : Nat := 0x40

/-- Marking the slot in progress with a cause (R86). -/
def State.mark (s : State) (cause value aux : Nat) : State :=
  s.updCur fun c => { c with marks := c.marks ++ [⟨c.slot, cause, value, aux⟩] }

/-- A check of the slot in progress: marked where it fails. -/
def State.check (s : State) (ok : Bool) (cause : Nat) : State := if ok then s else s.mark cause 0 0

/-- The bundle in progress waits (R86, R156). -/
def State.waitIf (s : State) (b : Bool) : State := if b then s.updCur fun c => { c with wait := true } else s

/-! ### Queue reads (R29, R30) -/

/-- The number under which a cursor counts a vector queue. -/
def vkey (v : Nat) : Nat := 32 + v

/-- Entries of the queue numbered k that the bundle has taken. -/
def State.takenOf (s : State) (k : Nat) : Nat := Cells.get 0 k s.cur.taken

def State.take (s : State) (k : Nat) : State :=
  s.updCur fun c => { c with taken := Cells.put k (Cells.get 0 k c.taken + 1) c.taken }

/-- A scalar-queue source: the entry after those the bundle has taken, taken in turn unless peeked (R30). -/
def readS (q : Nat) (peek : Bool) (s : State) : W64 × State :=
  match (Cells.get [] q s.me.sq)[s.takenOf q]? with
  | none => (0, s.mark causeUnderflow 0 0)
  | some v => (v, if peek then s else s.take q)

/-- A vector-queue source, as readS. -/
def readV (v : Nat) (peek : Bool) (s : State) : V1024 × State :=
  match (Cells.get [] v s.me.vq)[s.takenOf (vkey v)]? with
  | none => (0, s.mark causeUnderflow 0 0)
  | some x => (x, if peek then s else s.take (vkey v))

/-- n argument words popped from one scalar queue, oldest first (R238). -/
def readWords (q : Nat) : Nat → State → List Nat × State
  | 0, s => ([], s)
  | n + 1, s =>
    let r := readS q false s
    let t := readWords q n r.2
    (r.1.toNat :: t.1, t.2)

/-! ### Results (R26) -/

/-- Putting a result in flight: it lands lat clocks after issue, with its flags. -/
def emit (lat flags : Nat) (act : LandAct) (s : State) : State :=
  s.updCur fun c =>
    { c with out := c.out ++ [⟨(s.core c.core).tick + lat, (s.core c.core).tick, c.gpi, c.slot, flags, act⟩] }

def pushS (d lat flags : Nat) (v : W64) (s : State) : State := emit lat flags (.spush d v) s
def pushV (d lat flags : Nat) (v : V1024) (s : State) : State := emit lat flags (.vpush d v) s
def writeP (d lat : Nat) (v : Bool) (s : State) : State := emit lat 0 (.pred d v) s
def writeM (d lat : Nat) (v : W128) (s : State) : State := emit lat 0 (.mask d v) s

/-! ### What an instruction reads besides queues -/

def State.pred (s : State) (k : Nat) : Bool := s.me.preds.getLsbD k
def State.maskReg (s : State) (k : Nat) : W128 := Cells.get 0 k s.me.masks

/-- Bits of the precision control word (R189). -/
def pcwField (p : W64) (lo n : Nat) : Nat := Sys2Proof.fld p.toNat lo n
def State.a128 (s : State) : Bool := Sys2Proof.bit s.me.pcw.toNat 31

/-- The rounding mode of the slot in progress: the template's where it replaces it, else the instruction's own. -/
def State.rmode (s : State) (own : RMode) : RMode := s.cur.mod.rm.getD own

/-- The mode of the RND field Xk[1:0] (R159), RNE in the plain form. -/
def State.rnd (s : State) : RMode :=
  s.rmode (if s.cur.mod.headed && s.cur.mod.ext % 4 == 1 then .rtz else .rne)

/-- The destination format of the slot in progress: the template's where it replaces it (R77). -/
def State.dstFmt (s : State) (own : Nat) : Nat := s.cur.mod.cf.getD own

/-- An immediate of 13 bits, or of 19 with the header extension, as it stands (R72). -/
def State.immRaw (s : State) (i : Nat) : Nat := if s.cur.mod.headed then s.cur.mod.ext * 2 ^ 13 + i else i

/-- Its sign-extended value (R72). -/
def State.immS (s : State) (i : Nat) : Int :=
  if s.cur.mod.headed then sgn 19 (s.immRaw i) else sgn 13 i

/-- The lane width of the slot in progress (R71). -/
def State.width (s : State) : Nat := s.cur.mod.width

/-- Is byte lane k enabled (R158)? Without a header or with ME = 0 every lane is. -/
def State.lane (s : State) (k : Nat) : Bool :=
  if s.cur.mod.headed && Sys2Proof.bit s.cur.mod.ext 5
    then (s.maskReg (Sys2Proof.fld s.cur.mod.ext 2 3)).getLsbD k else true

/-- The enabling of element i of b-bit elements: the mask bit of the byte lane that holds its bit 0 (R158). -/
def State.enabled (s : State) (b i : Nat) : Bool := s.lane (b * i / 8)

/-- Tile t's bank may be used: its request is on and it is not busy (R37). -/
def TBank.busy (b : TBank) : Bool := decide (0 < b.left) || b.pending
def Part.bank (p : Part) (k : Nat) : TBank := Cells.get TBank.idle k p.banks
def Part.tileAwake (p : Part) (t : Nat) : Bool := (p.bank (t / 4)).req == .on && !(p.bank (t / 4)).busy
def Part.row (p : Part) (t r : Nat) : V1024 := Cells.get 0 (128 * t + r % 128) p.tiles

/-- The bank check of a tile instruction (R37, R179). -/
def State.needTile (s : State) (t : Nat) : State := s.check (s.me.tileAwake t) causeBankAsleep

/-! ### Codebooks (R43 to R46) -/

def Core.cbcfgOf (c : Core) (k : Nat) : Nat := (Cells.get 0 k c.cbcfg).toNat
def cbVca (g : Nat) : Nat := Sys2Proof.fld g 0 13
def cbVcb (g : Nat) : Nat := Sys2Proof.fld g 16 13
def cbEtype (g : Nat) : Nat := Sys2Proof.fld g 32 4
def cbElen (g : Nat) : Nat := Sys2Proof.fld g 36 3 + 1
def cbWhole (g : Nat) : Bool := Sys2Proof.bit g 40
def cbAct (g : Nat) : Bool := Sys2Proof.bit g 41

/-- The valid count of the half or bank that a lookup uses (R43, R44). -/
def cbValid (g : Nat) : Nat := if cbWhole g then cbVca g else if cbAct g then cbVcb g else cbVca g

/-- The entry number that index i reads (R43). -/
def cbEntryNo (whole act : Bool) (i : Nat) : Nat := if whole then i else b2n act * 2048 + i

def Core.cbEntry (c : Core) (k e : Nat) : Nat := (Cells.get 0 (4096 * k + e % 4096) c.cbook).toNat

/-- Bits of one element of an ETYPE (R46). -/
def etypeBits (t : Nat) : Nat := if t ≤ 3 then 8 else if t ≤ 8 then 16 else 32

/-- The number format of an ETYPE (R46). -/
def etypeFmt (t : Nat) : Fmt :=
  fmtOf (match t with
    | 0 => 9 | 1 => 10 | 2 => 3 | 3 => 4 | 4 => 2 | 5 => 1 | 6 => 11 | 7 => 14 | 8 => 15 | 9 => 0 | _ => 13)

/-- The invalid-index mark: the index in [11:0] and the bank in [14:12] of VALUE (R325). -/
def State.markIndex (s : State) (k i : Nat) : State := s.mark causeInvalidIndex (i % 4096 + 4096 * k) 0

/-! ### Elements of vector entries (R101) -/

/-- Element i of b-bit elements. -/
def elem (b i : Nat) (v : V1024) : Nat := v.toNat / 2 ^ (b * i) % 2 ^ b

/-- Packing b-bit elements from bit 0 upward. -/
def packNat (b : Nat) : List Nat → Nat
  | [] => 0
  | x :: r => x % 2 ^ b + 2 ^ b * packNat b r

def pack (b : Nat) (xs : List Nat) : V1024 := BitVec.ofNat 1024 (packNat b xs)

/-- The flags of a list of results, ORed (R111). -/
def orFlags (xs : List Res) : Nat := xs.foldl (fun a r => a ||| r.flags) 0

/-- n elements computed in turn, a disabled one written zero and raising no flag (R158): the enabling is by elements
of be bits. -/
def mapElems (s : State) (be n : Nat) (f : Nat → Res) : List Res :=
  (List.range n).map fun i => if s.enabled be i then f i else ⟨0, 0⟩

/-- A vector result of b-bit elements pushed to queue d. -/
def pushElems (d lat b : Nat) (xs : List Res) (s : State) : State :=
  pushV d lat (orFlags xs) (pack b (xs.map Res.pat)) s

end Sys2Proof.Machine
end

