-- ==== Sys2Proof/Machine/Codec.lean ====
section
/-!
DEFINITION. Compressed regions and the Holly codec (R247 to R251), and CRC-32C (R246).
-/

namespace Sys2Proof.Machine

/-! ### CRC-32C (R246) -/

/-- One bit of the reflected polynomial division. -/
def crcBit (x : Nat) : Nat := if x % 2 = 1 then Nat.xor (x / 2) 0x82F63B78 else x / 2

/-- One byte. -/
def crcByte (x : Nat) (b : W8) : Nat :=
  crcBit (crcBit (crcBit (crcBit (crcBit (crcBit (crcBit (crcBit (Nat.xor x b.toNat))))))))

/-- The register after a list of bytes, and the CRC of a register. -/
def crcStep (x : Nat) (bs : List W8) : Nat := bs.foldl crcByte x
def crcInit : Nat := 0xFFFFFFFF
def crcFinal (x : Nat) : Nat := Nat.xor x 0xFFFFFFFF

/-! ### The header and the offset table (R247) -/

structure Region where
  nt   : Nat
  efmt : Nat
  kzs  : Bool
  end16 : Nat
  fill16 : Nat
deriving DecidableEq, Repr

/-- An offset-table entry. -/
structure TileEntry where
  off16 : Nat
  len   : Nat
  raw   : Bool
  kz    : Bool
deriving DecidableEq, Repr

/-- The header at base B; none for a header error. -/
def readRegion (m : Mem) (b : Nat) : Option Region :=
  let h := m.readN b 128
  let r : Region := ⟨Sys2Proof.fld h 0 16, Sys2Proof.fld h 16 4, Sys2Proof.bit h 20, Sys2Proof.fld h 32 19, Sys2Proof.fld h 64 19⟩
  if r.nt = 0 || 16384 < r.nt || (5 ≤ r.efmt && r.efmt ≤ 7) || Sys2Proof.fld h 21 11 ≠ 0
      || Sys2Proof.fld h 51 13 ≠ 0 || h / 2 ^ 83 ≠ 0 then none
  else some r

/-- The first byte of the data area, counted from B. -/
def Region.dataStart (r : Region) : Nat := 128 + 128 * ((4 * r.nt + 127) / 128)

/-- The entry of tile i; none where its index or a reserved bit is in error. -/
def readTileEntry (m : Mem) (b : Nat) (r : Region) (i : Nat) : Option TileEntry :=
  let e := m.readN ((b + 128 + 4 * i) % 2 ^ 23) 4
  if r.nt ≤ i || Sys2Proof.fld e 30 2 ≠ 0 then none
  else some ⟨Sys2Proof.fld e 0 19, Sys2Proof.fld e 19 9, Sys2Proof.bit e 28, Sys2Proof.bit e 29⟩

def tileEntryWord (e : TileEntry) : Nat := e.off16 + 2 ^ 19 * e.len + 2 ^ 28 * b2n e.raw + 2 ^ 29 * b2n e.kz

/-! ### Encoding (R248) -/

/-- Does KZS keep the signs of a format's zeros? It has no effect for integer formats (R248); the fixed-point formats are
none of them (R90). -/
def signedZero (efmt : Nat) : Bool :=
  match fmtOf efmt with
  | .fix _ _ 0 _ => false
  | _ => true

/-- The elements of 256 bytes. -/
def tileElems (efmt : Nat) (bs : List W8) : List Nat :=
  let v := joinBytes bs
  (List.range (2048 / fmtBits efmt)).map fun i => Sys2Proof.fld v (fmtBits efmt * i) (fmtBits efmt)

def elemsBytes (efmt : Nat) (xs : List Nat) : List W8 := splitBytes (packNat (fmtBits efmt) xs) 256

/-- Every zero rewritten to +0. -/
def zeroed (efmt : Nat) (xs : List Nat) : List Nat :=
  xs.map fun x => if isZeroPat (fmtOf efmt) x then zeroOf (fmtOf efmt) false else x

/-- The signs of the zero elements, in element order. -/
def zeroSigns (efmt : Nat) (xs : List Nat) : List Bool :=
  (xs.filter (isZeroPat (fmtOf efmt))).map fun x => Sys2Proof.bit x (fmtBits efmt - 1)

/-- Bits packed into bytes, bit 0 first. -/
def bitBytes (bs : List Bool) : List W8 := splitBytes (packNat 1 (bs.map b2n)) ((bs.length + 7) / 8)

/-- Plane k of group g of 256 bytes. -/
def planeWord (bs : List W8) (g k : Nat) : Nat :=
  packNat 1 ((List.range 16).map fun j => b2n ((bs.getD (16 * g + j) 0).getLsbD k))

/-- The planes of all groups, g ascending and then k ascending. -/
def planes (bs : List W8) : List Nat := (List.range 128).map fun i => planeWord bs (i / 8) (i % 8)

/-- The encoding of a tile: its bytes and whether they are raw and carry a sign bitmap. -/
def encodeTile (efmt : Nat) (kzs : Bool) (bs : List W8) : List W8 × Bool × Bool :=
  let xs := tileElems efmt bs
  let ys := elemsBytes efmt (zeroed efmt xs)
  let keep := kzs && signedZero efmt
  let ps := planes ys
  let masks := (List.range 16).map fun g =>
    BitVec.ofNat 8 (packNat 1 ((List.range 8).map fun k => b2n (ps.getD (8 * g + k) 0 != 0)))
  let body := masks ++ (ps.filter fun p => p != 0).flatMap (fun p => splitBytes p 2)
    ++ (if keep then bitBytes (zeroSigns efmt xs) else [])
  if 160 < body.length then (if keep then bs else ys, true, false) else (body, false, keep)

/-! ### Decoding (R250) -/

/-- The tile whose planes stand in a word list of the non-zero planes that the masks name. -/
def unplane (masks : List W8) (ws : List Nat) : List Nat :=
  ((List.range 128).foldl (fun (a : List Nat × List Nat) i =>
    if (masks.getD (i / 8) 0).getLsbD (i % 8) then (a.1 ++ [a.2.headD 0], a.2.tail) else (a.1 ++ [0], a.2)) ([], ws)).1

/-- The 256 bytes of 128 plane words. -/
def planeBytes (ps : List Nat) : List W8 :=
  (List.range 256).map fun i =>
    BitVec.ofNat 8 (packNat 1 ((List.range 8).map fun k => b2n (Sys2Proof.bit (ps.getD (8 * (i / 16) + k) 0) (i % 16))))

/-- Zero elements given their recorded signs. -/
def resign (efmt : Nat) (xs : List Nat) (signs : List Bool) : List Nat :=
  (xs.foldl (fun (a : List Nat × List Bool) x =>
    if isZeroPat (fmtOf efmt) x then (a.1 ++ [zeroOf (fmtOf efmt) (a.2.headD false)], a.2.tail)
    else (a.1 ++ [x], a.2)) ([], signs)).1

/-- The expansion of the bytes of a tile that is not raw; none for a decode error. -/
def decodeTile (efmt : Nat) (kz : Bool) (len : Nat) (bs : List W8) : Option (List W8) :=
  let masks := bs.take 16
  let p := (masks.map fun b => ((List.range 8).filter fun k => b.getLsbD k).length).sum
  let ws := (List.range p).map fun i => joinBytes ((bs.drop (16 + 2 * i)).take 2)
  let ys := planeBytes (unplane masks ws)
  let xs := tileElems efmt ys
  let z := (xs.filter (isZeroPat (fmtOf efmt))).length
  let need := 16 + 2 * p + (if kz then (z + 7) / 8 else 0)
  if len ≠ need then none
  else if kz then
    let v := joinBytes (bs.drop (16 + 2 * p))
    some (elemsBytes efmt (resign efmt xs ((List.range z).map fun i => Sys2Proof.bit v i)))
  else some ys

/-- The decode error of a region or tile at a slice offset (R325). -/
def decodeFault (a : Nat) : LateFault := ⟨causeDecodeError, a, 0⟩

/-- The 256 bytes of tile i of the region at base B of a slice, or the decode error (R250). -/
def readTile (m : Mem) (b i : Nat) : Except LateFault (List W8) :=
  match readRegion m b with
  | none => .error (decodeFault b)
  | some r =>
    match readTileEntry m b r i with
    | none => .error (decodeFault b)
    | some e =>
      let a := (b + 16 * e.off16) % 2 ^ 23
      if e.len = 0 && !e.raw then
        .ok (elemsBytes r.efmt (List.replicate (2048 / fmtBits r.efmt) (zeroOf (fmtOf r.efmt) false)))
      else if (e.raw && e.len ≠ 256) || (!e.raw && 160 < e.len) || 16 * e.off16 < r.dataStart
          || 16 * r.end16 < 16 * e.off16 + e.len then .error (decodeFault a)
      else if e.raw then .ok (m.bytes a 256)
      else match decodeTile r.efmt e.kz e.len (m.bytes a e.len) with
        | none => .error (decodeFault a)
        | some bs => .ok bs

/-- The first and last offset of the stored bytes of tile i of the region at base B; none where it has none (R247). -/
def tileSpan (m : Mem) (b i : Nat) : Option (Nat × Nat) :=
  match (readRegion m b).bind fun r => readTileEntry m b r i with
  | none => none
  | some e =>
    if e.len = 0 then none else some ((b + 16 * e.off16) % 2 ^ 23, (b + 16 * e.off16 + e.len - 1) % 2 ^ 23)

/-- The writes of R249 that store a tile: offsets and bytes, all on one performing clock; or its fault. -/
def storeTile (m : Mem) (b i : Nat) (kzs : Bool) (bs : List W8) : Except LateFault (List (Nat × List W8)) :=
  match readRegion m b with
  | none => .error (decodeFault b)
  | some r =>
    match readTileEntry m b r i with
    | none => .error (decodeFault b)
    | some e =>
      let c := encodeTile r.efmt (kzs || r.kzs) bs
      let u := if c.2.1 then 16 else (c.1.length + 15) / 16
      let a := (e.len + 15) / 16
      let fresh := !decide (u ≤ a)
      if fresh && decide (r.end16 < r.fill16 + u) then .error ⟨causeRegionOverflow, (b + 16 * r.fill16) % 2 ^ 23, 0⟩
      else
        let off := if fresh then r.fill16 else e.off16
        let w := tileEntryWord ⟨off, c.1.length, c.2.1, c.2.2⟩
        .ok ([((b + 16 * off) % 2 ^ 23, c.1), ((b + 128 + 4 * i) % 2 ^ 23, splitBytes w 4)] ++
          (if fresh then [((b + 8) % 2 ^ 23, splitBytes (r.fill16 + u) 3)] else []))

end Sys2Proof.Machine
end

