-- ==== Sys2Proof/Machine/Flags.lean ====
section
/-!
DEFINITION. The integer and floating-point functions of the scalar and vector instructions on values, with the flags
each raises (R110, R111, R121 to R130, R162 to R166).
-/

namespace Sys2Proof.Machine

/-! ### 64-bit integer functions (R121, R124, R125) -/

def intAdd (x y : W64) : W64 := x + y
def intSub (x y : W64) : W64 := x - y
def intAnd (x y : W64) : W64 := x &&& y
def intOr (x y : W64) : W64 := x ||| y
def intXor (x y : W64) : W64 := x ^^^ y
def intAndn (x y : W64) : W64 := x &&& ~~~y
def shCount (y : W64) : Nat := y.toNat % 64
def intShl (x y : W64) : W64 := x <<< shCount y
def intShr (x y : W64) : W64 := x >>> shCount y
def intSra (x y : W64) : W64 := x.sshiftRight (shCount y)
def intMin (x y : W64) : W64 := if x.sle y then x else y
def intMax (x y : W64) : W64 := if x.sle y then y else x
def intMinu (x y : W64) : W64 := if x.ule y then x else y
def intMaxu (x y : W64) : W64 := if x.ule y then y else x

/-- Clamping an exact value to [lo, hi], with SAT where it clamps (R11: sat_int). -/
def satInt (lo hi v : Int) : Int × Nat := if v < lo then (lo, fSAT) else if hi < v then (hi, fSAT) else (v, 0)

def sat64 (v : Int) : W64 × Nat :=
  let r := satInt (-2 ^ 63) (2 ^ 63 - 1) v
  (BitVec.ofInt 64 r.1, r.2)

def intAddss (x y : W64) : W64 × Nat := sat64 (x.toInt + y.toInt)
def intSubss (x y : W64) : W64 × Nat := sat64 (x.toInt - y.toInt)
def intMulh (x y : W64) : W64 := BitVec.ofInt 64 (x.toInt * y.toInt / 2 ^ 64)
def intMulhu (x y : W64) : W64 := BitVec.ofNat 64 (x.toNat * y.toNat / 2 ^ 64)
def intClz (x : W64) : W64 := BitVec.ofNat 64 (if x.toNat = 0 then 64 else 63 - Nat.log2 x.toNat)
def intCtz (x : W64) : W64 := BitVec.ofNat 64 (((List.range 64).find? fun i => x.getLsbD i).getD 64)
def intPopc (x : W64) : W64 := BitVec.ofNat 64 ((List.range 64).countP fun i => x.getLsbD i)

/-- The low 56 bits (R126). -/
def addr56 (x : W64) : W64 := BitVec.ofNat 64 (x.toNat % 2 ^ 56)

/-! ### Floating-point functions on patterns -/

/-- Bits [31:0] of an entry (R117). -/
def lo32 (x : W64) : Nat := x.toNat % 2 ^ 32
def w32 (n : Nat) : W64 := BitVec.ofNat 64 n

def ownMode (r : Bool) : RMode := if r then .rtz else .rne

/-- The smaller or larger of two patterns, -0 below +0, a NaN giving the format's NaN (R127). -/
def fltExtreme (f : Flt) (least : Bool) (x y : Nat) : Nat :=
  let a := readFlt f x
  let b := readFlt f y
  if a.isNan || b.isNan then fltNan f
  else if ltNum true a b == least then x else y

/-- A pattern with its sign set, a NaN giving the format's NaN (R127). -/
def fltSetSign (f : Flt) (neg : Bool) (x : Nat) : Nat :=
  if (readFlt f x).isNan then fltNan f else fltSign f neg (x % 2 ^ (f.ebits + f.mbits))

def fltEq (f : Flt) (x y : Nat) : Bool := eqNum (readFlt f x) (readFlt f y)
def fltLt (f : Flt) (x y : Nat) : Bool := ltNum false (readFlt f x) (readFlt f y)
def fltLe (f : Flt) (x y : Nat) : Bool := fltLt f x y || fltEq f x y
def fltUn (f : Flt) (x y : Nat) : Bool := (readFlt f x).isNan || (readFlt f y).isNan

/-! ### Element functions of b-bit integers (R162, R164) -/

/-- The bits and signedness of the types of R162. -/
def vtBits (t : Nat) : Nat := if t ≤ 1 then 8 else if t ≤ 3 then 16 else 32
def vtSigned (t : Nat) : Bool := t % 2 == 0

/-- The value of an element of a type. -/
def vtVal (t x : Nat) : Int := if vtSigned t then sgn (vtBits t) x else (x % 2 ^ vtBits t : Int)

/-- The stored range of a type (R96). -/
def vtLo (t : Nat) : Int := if vtSigned t then -(2 ^ (vtBits t - 1) : Int) else 0
def vtHi (t : Nat) : Int := if vtSigned t then 2 ^ (vtBits t - 1) - 1 else 2 ^ vtBits t - 1

def vtWrap (t : Nat) (v : Int) : Res := ⟨low (vtBits t) v, 0⟩
def vtSat (t : Nat) (v : Int) : Res :=
  let r := satInt (vtLo t) (vtHi t) v
  ⟨low (vtBits t) r.1, r.2⟩

/-- Element sizes of R163, R164, R168 and R183: 8, 16, 32 or 64 bits. -/
def szBits (z : Nat) : Nat := 8 * 2 ^ z

def shlB (b x n : Nat) : Nat := x * 2 ^ (n % b) % 2 ^ b
def shrB (b x n : Nat) : Nat := x % 2 ^ b / 2 ^ (n % b)
def sraB (b x n : Nat) : Nat := low b (sgn b x / 2 ^ (n % b))

end Sys2Proof.Machine
end

