-- ==== Sys2Proof/Machine/Operands.lean ====
section
/-!
DEFINITION. The operand forms of the slot instructions: how their sources are read, in what order (R30), and how the
result is put in flight.
-/

namespace Sys2Proof.Machine

/-- The answer of a meaning. -/
abbrev Out := Host.Outcome State Fault Refusal

/-! ### Scalar forms (R117, R118) -/

/-- d := f(a), without flags. -/
def scalar1 (d a : Nat) (k : Bool) (lat : Nat) (f : W64 → W64) (s : State) : Out :=
  let x := readS a k s
  .next (pushS d lat 0 (f x.1) x.2)

/-- d := f(a, b), without flags. -/
def scalar2 (d a b : Nat) (k m : Bool) (lat : Nat) (f : W64 → W64 → W64) (s : State) : Out :=
  let x := readS a k s
  let y := readS b m x.2
  .next (pushS d lat 0 (f x.1 y.1) y.2)

/-- d := f(a, b), with the flags f raises. -/
def scalarFlag2 (d a b : Nat) (k m : Bool) (lat : Nat) (f : W64 → W64 → W64 × Nat) (s : State) : Out :=
  let x := readS a k s
  let y := readS b m x.2
  .next (pushS d lat (f x.1 y.1).2 (f x.1 y.1).1 y.2)

/-- A binary32 operation of two sources, latency 4 (R127). -/
def float2 (d a b : Nat) (k m r : Bool) (f : RMode → Num → Num → Num × Nat) (s : State) : Out :=
  let md := s.rmode (ownMode r)
  scalarFlag2 d a b k m 4
    (fun x y =>
      let z := finish (.flt fmtBinary32) md 0 false (f md (readFlt fmtBinary32 (lo32 x)) (readFlt fmtBinary32 (lo32 y)))
      (w32 z.pat, z.flags)) s

/-- A binary32 operation of one source, latency 4, with flags (R127). -/
def floatFlag1 (d a : Nat) (k : Bool) (f : Nat → Res) (s : State) : Out :=
  let x := readS a k s
  .next (pushS d 4 (f (lo32 x.1)).flags (w32 (f (lo32 x.1)).pat) x.2)

/-- A conversion between integers and binary32, latency 4 (R128). -/
def convert1 (d a : Nat) (k r : Bool) (src dst : Fmt) (sext32 : Bool) (s : State) : Out :=
  let x := readS a k s
  let z := convertPat src dst (s.rmode (ownMode r)) 0 true x.1.toNat
  .next (pushS d 4 z.flags (if sext32 then BitVec.ofInt 64 (sgn 32 z.pat) else w32 z.pat) x.2)

/-- pd := (a OP b) (R129, R130). -/
def compare2 (d a b : Nat) (k m : Bool) (lat : Nat) (f : W64 → W64 → Bool) (s : State) : Out :=
  let x := readS a k s
  let y := readS b m x.2
  .next (writeP d lat (f x.1 y.1) y.2)

/-- pd := (a OP sext(IMM)) (R131). -/
def compareImm (p a : Nat) (k : Bool) (i : Nat) (f : W64 → W64 → Bool) (s : State) : Out :=
  let x := readS a k s
  .next (writeP p 1 (f x.1 (BitVec.ofInt 64 (s.immS i))) x.2)

/-! ### Vector forms (R157, R158) -/

/-- n elements of b bits from one source. -/
def vector1 (d a : Nat) (k : Bool) (lat b : Nat) (f : Nat → Res) (s : State) : Out :=
  let x := readV a k s
  .next (pushElems d lat b (mapElems s b (s.width / b) fun i => f (elem b i x.1)) x.2)

/-- n elements of b bits from two sources. -/
def vector2 (d a c : Nat) (k m : Bool) (lat b : Nat) (f : Nat → Nat → Res) (s : State) : Out :=
  let x := readV a k s
  let y := readV c m x.2
  .next (pushElems d lat b (mapElems s b (s.width / b) fun i => f (elem b i x.1) (elem b i y.1)) y.2)

end Sys2Proof.Machine
end

