-- ==== Sys2Proof/Machine/Control.lean ====
section
/-!
DEFINITION. Slot-0 control: branches, calls, loops, predicate blocks and queue counts (R134 to R144). What a bundle
does to its partition after it commits is left in the cursor for the issue to apply (R139).
-/

namespace Sys2Proof.Machine

/-- NOP: no effect (R64). -/
def execNop (s : State) : Out := .next s

/-- The address of the next bundle in sequence (R22). -/
def seqNext (pc : Nat) : Nat := (pc + 16) % 2 ^ 17

/-- The target of a B-format displacement (R134). -/
def branchTarget (pc d : Nat) : Nat := low 17 (pc + 16 * sgn 13 d)

/-- A taken transfer to an offset of the active half, or of the other half (R134, R135). -/
def transfer (t : Nat) (other : Bool) (s : State) : State :=
  s.updCur fun c => { c with next := some t, newHalf := other }

def branchIf (b : Bool) (d : Nat) (other : Bool) (s : State) : State :=
  if b then transfer (branchTarget s.me.pc d) other s else s

/-- A predicate block is active and this bundle is covered by it: the transfers of majors 0x10 to 0x17, and HALT, are
illegal in it (R85). -/
def notCovered (s : State) : State := s.check (!s.cur.covered) causeIllegalSequence

/-- BRT: a branch taken when the predicate reads 1 (R135). -/
def execBrt (p d : Nat) (s : State) : Out := .next (branchIf (s.pred p) d false (notCovered s))

/-- BRF: a branch taken when the predicate reads 0 (R135). -/
def execBrf (p d : Nat) (s : State) : Out := .next (branchIf (!s.pred p) d false (notCovered s))

/-- J: a jump (R135). -/
def execJump (d : Nat) (s : State) : Out := .next (branchIf true d false (notCovered s))

/-- A call: the link goes to s31 and lands at c + 1; a call not taken pushes nothing (R135). -/
def callIf (b : Bool) (d : Nat) (s : State) : State :=
  let t := branchIf b d false (notCovered s)
  if b then pushS 31 1 0 (BitVec.ofNat 64 (seqNext s.me.pc)) t else t

/-- CALL (R135). -/
def execCall (d : Nat) (s : State) : Out := .next (callIf true d s)

/-- CALLT: a call taken when the predicate reads 1 (R135). -/
def execCallt (p d : Nat) (s : State) : Out := .next (callIf (s.pred p) d s)

/-- CALLF: a call taken when the predicate reads 0 (R135). -/
def execCallf (p d : Nat) (s : State) : Out := .next (callIf (!s.pred p) d s)

/-- The offset that bits [16:4] of an entry name (R136). -/
def indirectTarget (x : W64) : Nat := Sys2Proof.fld x.toNat 4 13 * 16

/-- JR: an indirect jump (R136). -/
def execJr (a : Nat) (k : Bool) (s : State) : Out :=
  let x := readS a k (notCovered s)
  .next (transfer (indirectTarget x.1) false x.2)

/-- JRL: an indirect jump with its link pushed to d, landing at c + 1 (R136). -/
def execJrl (d a : Nat) (k : Bool) (s : State) : Out :=
  let x := readS a k (notCovered s)
  .next (pushS d 1 0 (BitVec.ofNat 64 (seqNext s.me.pc)) (transfer (indirectTarget x.1) false x.2))

/-- A switch of the active half: illegal, taken or not, while a loop level is held (R137). -/
def switchIf (b : Bool) (d : Nat) (s : State) : State :=
  branchIf b d true (((notCovered s)).check s.me.loops.isEmpty causeIllegalSequence)

/-- BRSW (R135, R137). -/
def execBrsw (d : Nat) (s : State) : Out := .next (switchIf true d s)

/-- BRSWT: BRSW taken when the predicate reads 1 (R135). -/
def execBrswt (p d : Nat) (s : State) : Out := .next (switchIf (s.pred p) d s)

/-- BRSWF: BRSW taken when the predicate reads 0 (R135). -/
def execBrswf (p d : Nat) (s : State) : Out := .next (switchIf (!s.pred p) d s)

/-- Does the bundle at pc end the top loop level (R139)? -/
def endsTop (loops : List LoopLevel) (pc : Nat) : Bool :=
  match loops with
  | [] => false
  | l :: _ => l.stop == pc

/-- Opening a loop of n passes over the body from pc + 16 to pc + 16 * DSP (R138). A LOOP in the end bundle of the top
level is illegal (R140). -/
def openLoop (n d : Nat) (s : State) : State :=
  let pc := s.me.pc
  let stop := (pc + 16 * d) % 2 ^ 17
  let s := (notCovered s).check (!endsTop s.me.loops pc) causeIllegalSequence
  if n = 0 then transfer (seqNext stop) false s
  else if 6 ≤ s.me.loops.length then s.mark causeLoopOverflow 0 0
  else s.updMe fun p => { p with loops := ⟨n, seqNext pc, stop⟩ :: p.loops }

/-- LOOP with an immediate count (R138). -/
def execLoop (c d : Nat) (s : State) : Out := .next (openLoop c d s)

/-- LOOP with its count in bits [31:0] of a scalar queue's entry (R138). -/
def execLoopQ (k : Bool) (q d : Nat) (s : State) : Out :=
  let x := readS q k s
  .next (openLoop (lo32 x.1) d x.2)

/-- LPOP: removes the top level; underflow at depth 0 (R141). -/
def execLpop (s : State) : Out :=
  let t := (notCovered s)
  .next (if s.me.loops.isEmpty then t.mark causeLoopUnderflow 0 0
    else t.updMe fun p => { p with loops := p.loops.tail })

/-- LCNT: the passes left of the top level, 0 at depth 0 (R141). -/
def execLcnt (d : Nat) (s : State) : Out :=
  let n := match s.me.loops with
    | [] => 0
    | l :: _ => l.remaining
  .next (pushS d 1 0 (BitVec.ofNat 64 n) (notCovered s))

/-- LCLR: empties the loop stack (R141). -/
def execLclr (s : State) : Out := .next ((notCovered s).updMe fun p => { p with loops := [] })

/-- PBLK: opens a predicate block over the next LEN + 1 bundles (R83). -/
def execPblk (p t l : Nat) (s : State) : Out :=
  .next ((notCovered s).updMe fun x => { x with pblk := ⟨l + 1, t, p⟩ })

/-- QCNT of a scalar queue: its landed count (R143). -/
def execQcnt (d a : Nat) (s : State) : Out :=
  .next (pushS d 1 0 (BitVec.ofNat 64 (Cells.get [] a s.me.sq).length) s)

/-- QCNT of v0 to v31 (R143). -/
def execQcntV (d a : Nat) (s : State) : Out :=
  .next (pushS d 1 0 (BitVec.ofNat 64 (Cells.get [] a s.me.vq).length) s)

/-- QCNT of v32 to v63 (R143). -/
def execQcntVn (d a : Nat) (s : State) : Out :=
  .next (pushS d 1 0 (BitVec.ofNat 64 (Cells.get [] (32 + a) s.me.vq).length) s)

/-- A queue to be cleared at the commit of the bundle, after its reads (R144). -/
def clearQueue (k : Nat) (s : State) : State := s.updCur fun c => { c with clears := c.clears ++ [k] }

/-- QCLR of a scalar queue (R143, R144). -/
def execQclr (a : Nat) (s : State) : Out := .next (clearQueue a s)

/-- QCLR of v0 to v31 (R143, R144). -/
def execQclrV (a : Nat) (s : State) : Out := .next (clearQueue (vkey a) s)

/-- QCLR of v32 to v63 (R143, R144). -/
def execQclrVn (a : Nat) (s : State) : Out := .next (clearQueue (vkey (32 + a)) s)

end Sys2Proof.Machine
end

