-- ==== Sys2Proof/Machine/Memory.lean ====
section
/-!
DEFINITION. Memory as the agents of R268 reach it: contexts and their page tables (R236, R337), owners, the rollback
log (R335), transaction marks (R260), posting buffers (R271), reservations (R282) and budgets (R302 to R304).
-/

namespace Sys2Proof.Machine

/-! ### Contexts, clusters, kernels -/

def State.ctx (s : State) (k : Nat) : Context := Cells.get Context.initial k s.ctxs
def State.updCtx (s : State) (k : Nat) (f : Context → Context) : State :=
  { s with ctxs := Cells.put k (f (s.ctx k)) s.ctxs }

def State.cluster (s : State) (c : Nat) : Cluster := Cells.get Cluster.initial c s.clusters
def State.updCluster (s : State) (c : Nat) (f : Cluster → Cluster) : State :=
  { s with clusters := Cells.put c (f (s.cluster c)) s.clusters }

/-- The kernel numbered k, where there is one. -/
def State.kernel (s : State) (k : Nat) : Option Kernel := (s.kernels.find? fun x => x.1 == k).map Prod.snd
def State.updKernel (s : State) (k : Nat) (f : Kernel → Kernel) : State :=
  { s with kernels := s.kernels.map fun x => if x.1 = k then (x.1, f x.2) else x }

/-- The context whose kernel holds core n. -/
def State.ctxOf (s : State) (n : Nat) : Option Nat := ((s.core n).kernel.bind s.kernel).map Kernel.ctx

/-- Word w of the active record of a context (R285). -/
def Context.word (c : Context) (w : Nat) : Nat := c.record.getD w 0

def Context.clmask (c : Context) : Nat := Sys2Proof.fld (c.word 0) 0 20
def Context.lock (c : Context) : Bool := Sys2Proof.bit (c.word 0) 20
def Context.recording (c : Context) : Bool := Sys2Proof.bit (c.word 0) 21
def Context.replaying (c : Context) : Bool := Sys2Proof.bit (c.word 0) 22
def Context.root (c : Context) : Nat := Sys2Proof.fld (c.word 1) 12 40 * 4096
def Context.peerlat (c : Context) : Nat := Sys2Proof.fld (c.word 3) 0 32
def Context.fgrp (c : Context) : Nat := Sys2Proof.fld (c.word 3) 32 8
def Context.recbase (c : Context) : Nat := Sys2Proof.fld (c.word 6) 12 44 * 4096
def Context.reclog (c : Context) : Nat := Sys2Proof.fld (c.word 7) 0 5

/-- The die of a core, and its cluster (R3, R4). -/
def dieOf (n : Nat) : Nat := n / 160
def clusterOf (n : Nat) : Nat := n / 16
def coreOf (p : Nat) : Nat := p / 4

/-! ### Address translation (R236, R337, R348) -/

def windowBase : Nat := 0xFF000000000000
def windowTop : Nat := 0xFF0000A0000000
def hbmSize : Nat := 0x6000000000

/-- A leaf entry e of level l (0 or 1) for address va: malformed leaves have reason 2 (R337, R348). -/
def leafEntry (va l e : Nat) : Xlate :=
  let lo := 12 + 9 * l
  let run := Sys2Proof.fld e 3 2
  let tgt := Sys2Proof.fld e 5 2
  let g := 4 * run
  let addr := Sys2Proof.fld e 12 40 * 4096
  let size := 2 ^ (lo + g)
  let base := addr / size * size
  if run = 3 || (run = 2 && l = 0) || 2 ≤ tgt || Sys2Proof.fld e 7 5 ≠ 0
      || (tgt = 0 && Sys2Proof.fld e 52 12 ≠ 0) || addr % 2 ^ lo ≠ 0
      || Sys2Proof.fld addr lo g ≠ (if run = 0 then 0 else Sys2Proof.fld va lo g)
      || (tgt = 0 && hbmSize < base + size) then .bad l 2
  else .page (if tgt = 0 then .hbm else .peer (Sys2Proof.fld e 52 12)) base (lo + g) (Sys2Proof.bit e 2)

/-- The walk of R337 from the table of level l at base: entries are read in turn until a leaf or a fault. A single
page's RUN of 00 leaves ADDR unconstrained above its own size. -/
def walkTables (m : Mem) (va : Nat) : Nat → Nat → Xlate
  | 0, base =>
    let e := m.readN (base + 8 * Sys2Proof.fld va 12 9) 8
    if !Sys2Proof.bit e 0 then .bad 0 0
    else if !Sys2Proof.bit e 1 then .bad 0 2
    else leafEntry va 0 e
  | l + 1, base =>
    let e := m.readN (base + 8 * Sys2Proof.fld va (21 + 9 * l) 9) 8
    let next := Sys2Proof.fld e 12 40 * 4096
    if !Sys2Proof.bit e 0 then .bad (l + 1) 0
    else if Sys2Proof.bit e 1 then (if l = 0 then leafEntry va 1 e else .bad (l + 1) 2)
    else if Sys2Proof.fld e 3 9 ≠ 0 || Sys2Proof.fld e 52 12 ≠ 0 || hbmSize < next + 4096 then .bad (l + 1) 2
    else walkTables m va l next

/-- The translation of va in context k by its page table as it stands. A root outside device memory is read nowhere
(DEDUCED, assumption log 9). -/
def State.walkVa (s : State) (k va : Nat) : Xlate :=
  if hbmSize < (s.ctx k).root + 4096 then .bad 4 2 else walkTables s.hbm va 4 (s.ctx k).root

/-- A slice-window address as context k reaches it (R236): none below the window. -/
def State.windowVa (s : State) (k : Option Nat) (va : Nat) : Option Xlate :=
  if va < windowBase then none
  else
    let n := (va - windowBase) / 2 ^ 23
    let ok := match k with
      | some k => decide (va < windowTop) && Sys2Proof.bit (s.ctx k).clmask (clusterOf n)
      | none => false
    some (if ok then .page (.slice n) 0 23 true else .bad 7 3)

/-- Where an address leads for a read or a write (R325, R337): the owner and the address there, or VALUE and AUX of the
translation fault. -/
inductive Where where
  | at (o : Owner) (a : Nat)
  | bad (f : LateFault)
deriving DecidableEq, Repr

/-- The translation fault of R325 at address va. -/
def xlateFault (va level : Nat) (wr : Bool) (reason : Nat) : LateFault :=
  ⟨causeTranslation, va, level + 8 * b2n wr + 16 * reason⟩

def Xlate.place (x : Xlate) (va : Nat) (wr : Bool) : Where :=
  match x with
  | .bad l r => .bad (xlateFault va l wr r)
  | .page o pa bits w =>
    if wr && !w then .bad (xlateFault va ((bits - 12) / 9) wr 1) else .at o (pa + va % 2 ^ bits)

/-- The latency class of an owner as seen from core n in context k (R237). -/
def State.latency (s : State) (n : Nat) (k : Option Nat) (o : Owner) : Nat :=
  match o with
  | .slice m => if clusterOf m = clusterOf n then 24 else if dieOf m = dieOf n then 96 else 224
  | .hbm => 1024
  | .peer _ => match k with
    | some k => (s.ctx k).peerlat
    | none => 4096

/-! ### Owners -/

/-- A peer's memory before anything is known of it: free bytes. -/
def peerFresh (fill : Nat) : Mem := ⟨fill + 1, []⟩

/-- The memory of an owner. -/
def State.mem (s : State) : Owner → Mem
  | .slice n => (s.core n).slice
  | .hbm => s.hbm
  | .peer d => Cells.get (peerFresh d) d s.peers

def State.setMem (s : State) (o : Owner) (m : Mem) : State :=
  match o with
  | .slice n => s.updCore n fun c => { c with slice := m }
  | .hbm => { s with hbm := m }
  | .peer d => { s with peers := Cells.put d m s.peers }

/-- n bytes at address a of an owner. -/
def State.rd (s : State) (o : Owner) (a n : Nat) : List W8 := (s.mem o).bytes a n

/-- The peer's own agents may have written its memory since it was last read: a free choice forgets what is known of
it, and of a reservation there (R12, R268, R282). -/
def State.refresh (o : Owner) (s : State) : State :=
  match o with
  | .peer d =>
    let r := s.draw 2
    let lo := (0x8000000000000 + d * hbmSize) / 64
    if r.1 = 0 then r.2
    else { r.2 with
      peers := Cells.put d (peerFresh (8192 + 2 * r.2.freeCtr)) r.2.peers,
      resv := r.2.resv.filter fun x => decide (x.2 < lo) || decide (lo + hbmSize / 64 ≤ x.2) }
  | _ => s

/-- The physical address by which a hart names a byte of an owner (R348, R361); slices have none. -/
def hartPa : Owner → Nat → Option Nat
  | .slice _, _ => none
  | .hbm, a => some a
  | .peer d, a => some (0x8000000000000 + d * hbmSize + a)

/-- Bytes written at their owner: any reservation of a touched aligned 64 bytes is lost (R282), and a beat of device memory
beyond correction is good again where it is written whole (R369). -/
def State.poke (o : Owner) (a : Nat) (bs : List W8) (s : State) : State :=
  let t := s.setMem o ((s.mem o).writeBytes a bs)
  match hartPa o a with
  | none => t
  | some pa =>
    { t with resv := t.resv.filter (fun r => r.2 < pa / 64 || (pa + bs.length - 1) / 64 < r.2),
             badBeats := t.badBeats.filter fun b => decide (64 * b < pa) || decide (pa + bs.length < 64 * b + 64) }

/-! ### The rollback log (R335) -/

/-- Does the page tree below a table of level l, which answers for addresses from va, have a page of device memory that passes
a test? Malformed entries, the unused half of the root and the slice window hold none (R236, R337). -/
def anyPage (m : Mem) (p : Nat → Nat → Bool) : Nat → Nat → Nat → Bool
  | 0, base, va => (List.range 512).any fun i =>
    let e := m.readN (base + 8 * i) 8
    Sys2Proof.bit e 0 && Sys2Proof.bit e 1 && match leafEntry (va + 4096 * i) 0 e with
      | .page .hbm pa bits _ => p pa bits
      | _ => false
  | l + 1, base, va => (List.range (if l = 3 then 255 else 512)).any fun i =>
    let e := m.readN (base + 8 * i) 8
    let at_ := va + 2 ^ (21 + 9 * l) * i
    let next := Sys2Proof.fld e 12 40 * 4096
    Sys2Proof.bit e 0 && (if Sys2Proof.bit e 1
      then l == 0 && (match leafEntry at_ 1 e with
        | .page .hbm pa bits _ => p pa bits
        | _ => false)
      else Sys2Proof.fld e 3 9 == 0 && Sys2Proof.fld e 52 12 == 0 && decide (next + 4096 ≤ hbmSize)
        && anyPage m p l next at_)

/-- Has context k a page of device memory that passes a test? -/
def State.hasPage (s : State) (k : Nat) (p : Nat → Nat → Bool) : Bool :=
  decide ((s.ctx k).root + 4096 ≤ hbmSize) && anyPage s.hbm p 4 (s.ctx k).root 0

/-- The contexts whose interval's log covers a byte of device memory: active, with a valid checkpoint, and mapping it. -/
def State.loggers (s : State) (a : Nat) : List Nat :=
  (List.range 16).filter fun k => (s.ctx k).active && (s.ctx k).ck.valid && s.hasPage k fun pa bits => pa / 2 ^ bits == a / 2 ^ bits

/-- Appending one entry: word 0, then the old bytes at + 64. An entry beyond LOGSIZE sets OVF, and its write is unlogged. -/
def logEntry (k : Nat) (key : Option Nat × Nat) (s : State) : State :=
  let c := s.ctx k
  let size := match key.1 with
    | none => 128
    | some _ => 320
  if !c.ck.valid || c.ck.logged.contains key then s
  else if c.logsize.toNat % 2 ^ 32 * 4096 < c.ck.used + size then
    s.updCtx k fun c => { c with ck := { c.ck with ovf := true, short := true } }
  else
    let at0 := Sys2Proof.fld c.logbase.toNat 12 40 * 4096 + c.ck.used
    let word := match key.1 with
      | none => 64 * key.2
      | some n => 2 ^ 63 + n + 2 ^ 9 * key.2
    let old := match key.1 with
      | none => s.hbm.bytes (64 * key.2) 64
      | some n => (s.core n).slice.bytes (256 * key.2) 256
    let t := { s with hbm := (s.hbm.writeN at0 8 word).writeBytes (at0 + 64) old }
    t.updCtx k fun c => { c with ck := { c.ck with used := c.ck.used + size, logged := key :: c.ck.logged } }

/-- One line of device memory logged by the writer's context, where there is one, and by every other whose log covers it. -/
def logLine (k : Option Nat) (s : State) (line : Nat) : State :=
  (k.toList ++ (s.loggers (64 * line)).filter fun j => some j != k).foldl (fun s j => logEntry j (none, line) s) s

/-- Logging what a write of n bytes at address a of an owner is about to change. Writes to peers are not logged. -/
def State.logWrite (k : Option Nat) (o : Owner) (a n : Nat) (s : State) : State :=
  match k, o with
  | k, .hbm => ((List.range ((a + n - 1) / 64 - a / 64 + 1)).map fun i => a / 64 + i).foldl (logLine k) s
  | some k, .slice m => ((List.range ((a + n - 1) / 256 - a / 256 + 1)).map fun i => (some m, a / 256 + i)).foldl
      (fun t key => logEntry k key t) s
  | _, _ => s

/-! ### Transactions (R260) -/

def TxMark.covers (m : TxMark) (o : Owner) (a n : Nat) : Bool :=
  m.owner == o && decide (a / 256 ≤ m.tile) && decide (m.tile ≤ (a + n - 1) / 256)

/-- Dooming a transaction: the first cause stands, codes 3 to 5 name no address, and one whose writes are being applied
is committed (R260, R261). -/
def Tx.doom (x : Tx) (code va : Nat) : Tx :=
  if x.code = 0 && !x.applying then { x with code := code, va := va } else x

/-- A non-transactional write dooms the holders of the tiles it touches with code 2; the partition named by except is
spared (R260, R262). -/
def State.doomWrite (except : Option Nat) (o : Owner) (a n : Nat) (s : State) : State :=
  { s with parts := s.parts.map fun p => (p.1,
      match p.2.tx with
      | none => p.2
      | some x =>
        match x.marks.find? fun m => m.covers o a n with
        | none => p.2
        | some m => if some p.1 = except then p.2 else { p.2 with tx := some (x.doom 2 m.va) }) }

/-- A write that performs at its owner outside any transaction: logged, its conflicts settled, its bytes changed. -/
def State.wr (k : Option Nat) (except : Option Nat) (o : Owner) (a : Nat) (bs : List W8) (s : State) : State :=
  if bs.isEmpty then s else ((s.logWrite k o a bs.length).doomWrite except o a bs.length).poke o a bs

/-- Is a touched tile held by a committing transaction of another partition (R261)? -/
def State.heldTile (s : State) (p : Nat) (o : Owner) (a n : Nat) : Bool :=
  n != 0 && s.parts.any fun x => x.1 != p && match x.2.tx with
    | none => false
    | some t => t.applying && t.marks.any fun m => m.covers o a n

/-- Is a touched tile held by any committing transaction? -/
def State.heldAt (s : State) (o : Owner) (a n : Nat) : Bool :=
  s.parts.any fun x => match x.2.tx with
    | none => false
    | some t => t.applying && t.marks.any fun m => m.covers o a n

/-- The clock on which partition p's transaction arrived at a tile: that of its first touch, or this one (R260, R404;
DEDUCED, assumption log 36). -/
def arrivalAt (p : Nat) (o : Owner) (tile : Nat) (s : State) : Nat :=
  match (s.part p).tx with
  | none => s.clock
  | some x => match x.marks.find? fun m => m.owner == o && m.tile == tile with
    | none => s.clock
    | some m => m.clock

/-- Another partition's conflict with a touch of one tile by partition p on this clock (R260): the later arrival at the
tile loses, and of two on one clock the higher index. The answer is the state, the other's transaction doomed where it
loses, and whether p's is doomed. -/
def conflictWith (p : Nat) (o : Owner) (tile : Nat) (wr : Bool) (s : State) (q : Nat) : State × Bool :=
  match (s.part q).tx with
  | none => (s, false)
  | some x =>
    match x.marks.find? fun m => m.owner == o && m.tile == tile && (wr || m.wr) with
    | none => (s, false)
    | some m =>
      let mine := arrivalAt p o tile s
      if q = p then (s, false)
      else if (decide (mine < m.clock) || m.clock == mine && decide (p < q)) && !x.applying then
        (s.updPart q fun z => { z with tx := some (x.doom 1 m.va) }, false)
      else (s, true)

/-- The partition's active transaction: an abandoned one is active no more (R259). -/
def Part.txActive (p : Part) : Option Tx := p.tx.filter fun x => !x.gone

/-- One tile touched by partition p's transaction: conflicts, then the mark (R260). A doomed transaction marks nothing.
A mark already held keeps its address and becomes a written one where it is written now. -/
def txTouch (p : Nat) (o : Owner) (wr : Bool) (s : State) (tile va : Nat) : State :=
  match (s.part p).tx with
  | none => s
  | some x =>
    if x.code ≠ 0 then s
    else
      let r := s.parts.foldl (fun a q => let c := conflictWith p o tile wr a.1 q.1; (c.1, a.2 || c.2)) (s, false)
      let same := x.marks.any fun m => m.owner == o && m.tile == tile
      let marks := if same
        then x.marks.map fun m => if m.owner == o && m.tile == tile then { m with wr := m.wr || wr } else m
        else x.marks ++ [⟨o, tile, va, wr, s.clock⟩]
      let first := match x.marks.find? fun m => m.owner == o && m.tile == tile with
        | some m => m.va
        | none => va
      let y := if r.2 then x.doom 1 first
        else if 64 < marks.length then x.doom 3 0
        else { x with marks := marks }
      r.1.updPart p fun z => { z with tx := some y }

/-- A transactional touch of n bytes at address a of an owner, reached through virtual address va. -/
def State.txTouches (p : Nat) (o : Owner) (a va n : Nat) (wr : Bool) (s : State) : State :=
  (List.range ((a + n - 1) / 256 - a / 256 + 1)).foldl
    (fun t i => txTouch p o wr t (a / 256 + i) (if i = 0 then va else (va + 256 * i) / 256 * 256)) s

/-- Bytes read through a transaction's buffer (R260). -/
def Tx.overlay (x : Tx) (o : Owner) (a : Nat) (bs : List W8) : List W8 :=
  bs.zipIdx.map fun b => match x.buf.find? fun t => t.owner == o && t.addr == a + b.2 with
    | some t => t.val
    | none => b.1

/-- Bytes placed in the buffer, the youngest value of each byte kept. -/
def Tx.hold (x : Tx) (o : Owner) (a : Nat) (bs : List W8) : Tx :=
  { x with buf := (x.buf.filter fun t => !(t.owner == o && decide (a ≤ t.addr) && decide (t.addr < a + bs.length)))
      ++ bs.zipIdx.map fun b => ⟨o, a + b.2, b.1⟩ }

/-! ### Posting buffers (R271) -/

def Posted.overlaps (x : Posted) (o : Owner) (a n : Nat) : Bool :=
  x.owner == o && decide (a < x.addr + x.data.length) && decide (x.addr < a + n)

/-- Bytes with each replaced by the youngest buffered write of it. -/
def forwarded (ps : List Posted) (o : Owner) (a : Nat) (bs : List W8) : List W8 :=
  bs.zipIdx.map fun b => match ps.reverse.find? fun x => x.overlaps o (a + b.2) 1 with
    | some x => x.data.getD (a + b.2 - x.addr) b.1
    | none => b.1

/-- Does an owner lie outside cluster cl? -/
def outside (cl : Nat) : Owner → Bool
  | .slice n => clusterOf n != cl
  | _ => true

/-! ### The accesses of one clock at a slice (R232, R279, R340) -/

/-- Does a write come before an access of command (gpi, id), or belong to it, in the order of R232? No access of the clock sees
a multicast row (R279); a FATOM's new value, made from the old byte, is still written after it (R232; DEDUCED, assumption log 119). -/
def FarWrite.before (w : FarWrite) (gpi id : Nat) : Bool :=
  !w.mc && (decide (w.gpi < gpi) || w.gpi == gpi && decide (w.id ≤ id))

/-- Writes made to a memory one after another. -/
def writeFars (m : Mem) (ws : List FarWrite) : Mem := ws.foldl (fun m w => m.writeBytes w.addr w.data) m

/-- A slice as an access of command (gpi, id) finds it on this clock. -/
def Core.seen (c : Core) (gpi id : Nat) : Mem := writeFars c.slice (c.farNow.filter fun w => w.before gpi id)

/-- An owner's memory as an access of command (gpi, id) finds it. -/
def State.seen (s : State) (gpi id : Nat) : Owner → Mem
  | .slice n => (s.core n).seen gpi id
  | o => s.mem o

/-- A write placed among those of its clock, in ascending partition index and then issue order. -/
def addFar (w : FarWrite) : List FarWrite → List FarWrite
  | [] => [w]
  | x :: r => if w.gpi < x.gpi || (w.gpi == x.gpi && decide (w.id < x.id)) then w :: x :: r else x :: addFar w r

/-- A write of command (gpi, id) that performs at its owner on this clock: logged, its conflicts settled, its bytes written, a
slice's in the order of R232. The partition named by except keeps its own transaction (R262). -/
def State.perform (k except : Option Nat) (gpi id : Nat) (mc : Bool) (o : Owner) (a : Nat) (bs : List W8) (s : State) :
    State :=
  if bs.isEmpty then s
  else
    let t := (s.logWrite k o a bs.length).doomWrite except o a bs.length
    match o with
    | .slice n => t.updCore n fun c => { c with farNow := addFar ⟨gpi, id, mc, a, bs⟩ c.farNow }
    | _ => t.poke o a bs

/-- The writes of the clock enter the slice, and its counts of the clock begin anew. -/
def Core.settle (c : Core) : Core := { c with slice := writeFars c.slice c.farNow, farNow := [], rowsNow := [], tilesNow := [] }

def State.settle (s : State) : State := { s with cores := s.cores.map fun c => (c.1, c.2.settle) }

/-- The bank of a row of a slice, its number in its group and the group: offset bits [10:7] and [22:21] (R339). -/
def bankOf (row : Nat) : Nat := row % 16 + 16 * (row / 2 ^ 14 % 4)

/-- The row within its bank: offset bits [20:11] (R339). -/
def bankRow (row : Nat) : Nat := row / 16 % 2 ^ 10

/-- The 128-byte rows that n bytes from a slice offset touch. -/
def rowsOf (a n : Nat) : List Nat :=
  if n = 0 then [] else (List.range ((a + n - 1) / 128 - a / 128 + 1)).map fun i => (a / 128 + i) % 2 ^ 16

/-- The expander (0) or compressor (1) of the group that holds a slice offset (R345). -/
def codecOf (dir a : Nat) : Nat := 2 * (Sys2Proof.fld a 21 2) + dir

/-- Is a row the third far or engine row of its bank on this clock (R340)? -/
def Core.bankFull (c : Core) (gpi id row : Nat) : Bool :=
  let there := c.rowsNow.filter fun r => bankOf r.row == bankOf row
  !there.contains ⟨gpi, id, row⟩ && decide (2 ≤ there.length)

/-- Rows noted as used on this clock. -/
def Core.useRows (c : Core) (gpi id : Nat) (rows : List Nat) : Core :=
  { c with rowsNow := rows.foldl (fun l r => if l.contains ⟨gpi, id, r⟩ then l else ⟨gpi, id, r⟩ :: l) c.rowsNow }

/-! ### Device memory and the mesh (R348, R350) -/

/-- The die, the stack within it, the device stack number, the channel and the address within the channel of a physical
address of device memory. -/
def hbmDie (pa : Nat) : Nat := b2n (decide (0x3000000000 ≤ pa))
def hbmLocal (pa : Nat) : Nat := pa - 0x3000000000 * hbmDie pa
def hbmStack (pa : Nat) : Nat := Nat.xor (Sys2Proof.fld (hbmLocal pa) 8 2) (Sys2Proof.fld (hbmLocal pa) 16 2)
def hbmDevStack (pa : Nat) : Nat := 4 * hbmDie pa + hbmStack pa
def hbmChannel (pa : Nat) : Nat := Sys2Proof.fld (hbmLocal pa) 10 5
def hbmChannelAddr (pa : Nat) : Nat := Sys2Proof.fld (hbmLocal pa) 15 23 * 256 + hbmLocal pa % 256

/-- The column and the row of a stop on the 5 by 4 grid of its die: clusters stand in rows 1 and 2, every other stop in row 0 or
row 3, at a place that the spec does not give (R350; assumption log 10). -/
def meshCol (c : Nat) : Nat := if c < 20 then c % 10 % 5 else Config.stopPlace c % 5
def meshRow (c : Nat) : Nat := if c < 20 then 1 + c % 10 / 5 else 3 * (Config.stopPlace c / 5 % 2)

/-- The links between two stops of a die, along the row first and then along the column. -/
def meshLinks (a b : Nat) : Nat :=
  ((meshCol a - meshCol b) + (meshCol b - meshCol a)) + ((meshRow a - meshRow b) + (meshRow b - meshRow a))

/-- The links of a path from a stop of one die to a stop, by die: between the dies it goes through their Ridar ports. -/
def meshRoute (die src dstDie dst : Nat) : List (Nat × Nat) :=
  if dstDie = die then [(die, meshLinks src dst)]
  else [(die, meshLinks src (20 + die)), (dstDie, meshLinks (20 + dstDie) dst)]

/-- The links that an access from a cluster crosses, by die. -/
def meshPath (cl : Nat) (o : Owner) (a : Nat) : List (Nat × Nat) :=
  let die := cl / 10
  match o with
  | .slice n => if clusterOf n = cl then [] else meshRoute die cl (clusterOf n / 10) (clusterOf n)
  | .hbm => meshRoute die cl (hbmDie a) (22 + hbmDevStack a)
  | .peer _ => [(die, meshLinks cl (30 + die))]

/-! ### Budgets (R302 to R304) -/

/-- The resource classes: 0 mesh flits, 1 HBM beats, 2 fabric bytes, 3 engine slots. -/
def Context.budget (c : Context) (cls : Nat) : Nat :=
  Sys2Proof.fld (c.word (4 + cls / 2)) (32 * (cls % 2)) 32

/-- Would an amount take the counter of a class on a die above its budget (R303)? -/
def Context.exceeds (c : Context) (die cls n : Nat) : Bool :=
  c.budget cls != 0 && decide (c.budget cls < Cells.get 0 (4 * die + cls) c.used + n)

def Context.spend (c : Context) (die cls n : Nat) : Context :=
  { c with used := Cells.put (4 * die + cls) (Cells.get 0 (4 * die + cls) c.used + n) c.used }

/-- Amounts charged, each a die, a class and a number. -/
def Context.charge (c : Context) (xs : List (Nat × Nat × Nat)) : Context := xs.foldl (fun c x => c.spend x.1 x.2.1 x.2.2) c

/-- A hold of a lockstep context sets OVR (R304). -/
def State.heldOver (k : Option Nat) (s : State) : State :=
  match k with
  | some k => if (s.ctx k).lock then { s with ctxovr := s.ctxovr ||| BitVec.ofNat 16 (2 ^ k) } else s
  | none => s

/-- The number of a context's period on this clock, from 1 (R305). -/
def State.period (s : State) (k : Nat) : Nat := (s.clock - (s.ctx k).since) / 4096 + 1

/-- The flits of n bytes and their request on each link of a path (R302). -/
def pathFlits (path : List (Nat × Nat)) (n : Nat) : List (Nat × Nat × Nat) :=
  path.map fun x => (x.1, 0, x.2 * ((n + 63) / 64 + Config.requestFlits))

/-- The beats of 64 bytes that n bytes of device memory take at a channel. -/
def hbmBeats (a n : Nat) : Nat × Nat × Nat := (hbmDie a, 1, (a + n - 1) / 64 - a / 64 + 1)

/-- What moving n bytes at an owner uses, from cluster cl: flits of 64 bytes on each link crossed, beats of 64 bytes at a
channel, payload bytes to a peer (R302). -/
def usage (cl : Nat) (o : Owner) (a n : Nat) : List (Nat × Nat × Nat) :=
  pathFlits (meshPath cl o a) n ++
  match o with
  | .hbm => [hbmBeats a n]
  | .peer _ => [(cl / 10, 2, n)]
  | .slice _ => []

/-- What the mark of a transactional write uses on its way to its owner: a request with no data (R262, R302; assumption
log 10). -/
def markUsage (cl : Nat) (o : Owner) (a : Nat) : List (Nat × Nat × Nat) := pathFlits (meshPath cl o a) 0

end Sys2Proof.Machine
end

