-- ==== Sys2Proof/Machine/System.lean ====
section
/-!
DEFINITION. Slot-0 partition operations, semaphores, barriers, cycle and identity reads, control registers, IFENCE,
TRAP, ERET and HALT (R145 to R155), and the record ring of R308 and R309.
-/

namespace Sys2Proof.Machine

/-! ### The record ring (R308, R309) -/

/-- Where a virtual address of context k leads by its page table as it stands, for one access within a page. -/
def State.place (s : State) (k va : Nat) (wr : Bool) : Where :=
  match s.windowVa (some k) va with
  | some x => x.place va wr
  | none => (s.walkVa k va).place va wr

/-- Bytes written at a virtual address by the device for context k; none where the address does not translate. -/
def State.virtWrite (k va : Nat) (bs : List W8) (s : State) : Option State :=
  match s.place k va true with
  | .at o a => some (s.wr (some k) none o a bs)
  | .bad _ => none

def State.virtRead (s : State) (k va n : Nat) : Option (List W8) :=
  match s.place k va false with
  | .at o a => some (s.rd o a n)
  | .bad _ => none

def State.virtNat (s : State) (k va n : Nat) : Nat := joinBytes ((s.virtRead k va n).getD [])

/-- The place of entry i in the ring of context k. -/
def entryVa (c : Context) (i : Nat) : Nat := c.recbase + 64 + 64 * (i % 2 ^ c.reclog)

/-- The read index that system software keeps: the second word of the ring (DEDUCED, assumption log 11). -/
def State.readIndex (s : State) (k : Nat) : Nat := s.virtNat k ((s.ctx k).recbase + 8) 8

/-- Do the ring's indexes, and the place of entry i, translate to pages that may be written? -/
def State.ringWritable (s : State) (k i : Nat) : Bool :=
  [(s.ctx k).recbase, entryVa (s.ctx k) i].all fun va => match s.place k va true with
    | .at _ _ => true
    | .bad _ => false

/-- Is the ring without a free place (R308)? A place that does not translate is not free, so that no entry is lost (DEDUCED,
assumption log 98). -/
def State.ringFull (s : State) (k : Nat) : Bool :=
  decide (2 ^ (s.ctx k).reclog ≤ (s.ctx k).recNext - s.readIndex k) || !s.ringWritable k (s.ctx k).recNext

/-- A place taken in the ring. -/
def State.takePlace (k : Nat) (s : State) : Nat × State :=
  ((s.ctx k).recNext, s.updCtx k fun c => { c with recNext := c.recNext + 1 })

/-- The first place at or after i that is not yet written. -/
def firstUnwritten (done : List Nat) : Nat → Nat → Nat
  | 0, i => i
  | n + 1, i => if done.contains i then firstUnwritten done n (i + 1) else i

/-- Entry words written into a place, which translates (State.ringFull, State.finished); the write index then passes every
place written in order (R308). -/
def State.writeEntry (k place : Nat) (words : List Nat) (s : State) : State :=
  let c := s.ctx k
  let bs := words.flatMap fun w => splitBytes w 8
  let t := (s.virtWrite k (entryVa c place) bs).getD s
  let t := t.updCtx k fun c => { c with recDone := place :: c.recDone }
  let c := t.ctx k
  let idx := firstUnwritten c.recDone (c.recDone.length + 1) (s.virtNat k c.recbase 8)
  (t.virtWrite k c.recbase (splitBytes idx 8)).getD t

/-- Word 0 of an entry: its kind, its stream and its sequence number (R308). -/
def entryHead (kind gpi seq : Nat) : Nat := kind + 16 * gpi + 2 ^ 16 * (seq % 2 ^ 48)

/-- The eight words of the entry of a stream with a sequence number, among the places from the read index to the
write index (R309). -/
def State.findEntry (s : State) (k gpi seq : Nat) : Option (List Nat) :=
  let c := s.ctx k
  let r := s.readIndex k
  let w := s.virtNat k c.recbase 8
  ((List.range (min (w - r) (2 ^ c.reclog))).map fun i =>
      (List.range 8).map fun j => s.virtNat k (entryVa c (r + i) + 8 * j) 8).find?
    fun e => Sys2Proof.fld (e.getD 0 0) 4 11 == gpi && Sys2Proof.fld (e.getD 0 0) 16 48 == seq % 2 ^ 48

/-- The next sequence number of partition p's stream in context k, which begins at 0 with the context's activation (R308;
DEDUCED, assumption log 97). -/
def State.seqOf (s : State) (k p : Nat) : Nat := Cells.get 0 p (s.ctx k).seqs

/-- The sequence number of a read in the stream of its partition, taken at the commit of its bundle. -/
def State.nextSeq (k : Nat) (s : State) : Nat × State :=
  (s.seqOf k s.cur.gpi, s.updCtx k fun c => { c with seqs := Cells.put s.cur.gpi (s.seqOf k s.cur.gpi + 1) c.seqs })

/-- A read that R308 lists: its true value recorded, or the recorded value in its place. -/
def recorded (kind : Nat) (v : Nat) (s : State) : Nat × State :=
  match s.ctxOf s.cur.core with
  | none => (v, s)
  | some k =>
    if (s.ctx k).replaying then
      let q := s.nextSeq k
      match s.findEntry k s.cur.gpi q.1 with
      | none => (v, q.2.mark causeReplay 0 0)
      | some e =>
        if Sys2Proof.fld (e.getD 0 0) 0 4 = kind then (e.getD 2 0, q.2) else (v, q.2.mark causeReplay 0 0)
    else if (s.ctx k).recording then
      if s.ringFull k then (v, s.waitIf true)
      else
        let q := s.nextSeq k
        let r := q.2.takePlace k
        (v, r.2.writeEntry k r.1 [entryHead kind s.cur.gpi q.1, 0, v, 0, 0, 0, 0, 0])
    else (v, s)

/-! ### Forks, joins and semaphores (R145 to R147) -/

/-- Additions to SEMAk that have issued and not landed: in flight, captured, and of this bundle (R146). -/
def semaPending (s : State) (k : Nat) : Nat :=
  let add := fun (n : Nat) (a : LandAct) => match a with
    | .sema j m => if j = k then n + m else n
    | _ => n
  let inFlight := (s.myCore.pend.map Landing.act).foldl add 0
  let captured := ((List.range 4).flatMap fun q => (s.part (4 * s.cur.core + q)).snap.map SnapEntry.act).foldl add 0
  let own := (s.cur.out.map Landing.act).foldl add 0
  inFlight + captured + own

def semaOf (s : State) (k : Nat) : Nat := Cells.get 0 k s.myCore.sema

/-- What the SEMWAITs of this clock have subtracted from SEMAk. -/
def semaTaken (s : State) (k : Nat) : Nat := Cells.get 0 k s.myCore.semaNow

/-- An addition to SEMAk, landing at c + 1, checked at issue; subtractions are not counted in the check (R145, R146). -/
def postSema (k n : Nat) (s : State) : State :=
  emit 1 0 (.sema k n) (s.check (decide (semaOf s k + semaTaken s k + semaPending s k + n ≤ 65535)) causeSemaphore)

/-- PFORK: the named idle partitions start at the target in the issuing half; their first bundles issue at c + 1
(R145), with nothing read ahead (R152; DESIGN CHOICE, assumption log 110). -/
def execPfork (m i : Nat) (s : State) : Out :=
  let named := (List.range 4).filter fun q => Sys2Proof.bit (2 * m) q
  let base := 4 * s.cur.core
  let ok := s.cur.gpi % 4 = 0 && named.all fun q => (s.part (base + q)).run == .idle
  let t := s.check ok causeIllegalSequence
  let me := s.me
  .next (named.foldl (fun t q => t.updPart (base + q) fun p =>
    { p with run := .running, half := me.half, pc := branchTarget me.pc i, loops := [], pblk := ⟨0, 0, 0⟩,
             group2 := none, hold := 0, stale := [] }) t)

/-- PJOIN: adds 1 to SEMAk and leaves the partition idle after its bundle commits (R145). -/
def execPjoin (k : Nat) (s : State) : Out :=
  let t := postSema k 1 (s.check (decide (s.cur.gpi % 4 ≠ 0)) causeIllegalSequence)
  .next (t.updCur fun c => { c with ends := some .idle })

/-- SEMPOST (R146). -/
def execSempost (k n : Nat) (s : State) : Out := .next (postSema k n s)

/-- SEMWAIT: subtracts where SEMAk holds n or more, else the bundle waits (R146, R147). -/
def execSemwait (k n : Nat) (s : State) : Out :=
  .next (if n ≤ semaOf s k
    then s.updMyCore fun c => { c with sema := Cells.put k (Cells.get 0 k c.sema - n) c.sema,
                                       semaNow := Cells.put k (Cells.get 0 k c.semaNow + n) c.semaNow }
    else s.waitIf true)

/-! ### Barriers (R148, R313 to R315) -/

def BarUnit.empty : BarUnit := ⟨[], [], false⟩

/-- The number under which a kernel holds a die or device unit. -/
def unitNo (core scope unit : Nat) : Nat := if scope = 1 then 64 * dieOf core + unit else 128 + unit

/-- The barrier unit that a partition of core n names. -/
def State.barUnit (s : State) (n scope unit : Nat) : BarUnit :=
  if scope = 0 then Cells.get BarUnit.empty unit (s.cluster (clusterOf n)).bars
  else match (s.core n).kernel.bind s.kernel with
    | none => BarUnit.empty
    | some k => Cells.get BarUnit.empty (unitNo n scope unit) k.units

def State.setBarUnit (n scope unit : Nat) (b : BarUnit) (s : State) : State :=
  if scope = 0 then s.updCluster (clusterOf n) fun c => { c with bars := Cells.put unit b c.bars }
  else match (s.core n).kernel with
    | none => s
    | some k => s.updKernel k fun x => { x with units := Cells.put (unitNo n scope unit) b x.units }

/-- The bound of a scope's release after the last arrival (R315). -/
def releaseBound (scope : Nat) : Nat := if scope = 0 then 8 else if scope = 1 then 96 else 224

/-- The release of a phase: it is under way to every participant, exactly after the cluster's 8 clocks, and in elastic
mode a free number of clocks beyond the bound of a die or device unit (R307, R315; assumption log 84). -/
def startRelease (scope unit : Nat) (lock : Bool) (ps : List Nat) (s : State) : State :=
  ps.foldl (fun s p =>
    let r := if scope = 0 || lock then (0, s) else s.draw (2 ^ 32)
    let go := fun (b : Option BarWait) => b.map fun b =>
      if b.scope = scope && b.unit = unit then { b with left := some (releaseBound scope + r.1) } else b
    r.2.updPart p fun x =>
      { x with barw := go x.barw, held := x.held.map fun h => { h with barw := go h.barw } }) s

/-- BARW: the arrival counts on the issue clock, and the partition waits for the release (R148, R315). -/
def execBarw (scope unit : Nat) (s : State) : Out :=
  let b := s.barUnit s.cur.core scope unit
  let t := s.check (b.parts.contains s.cur.gpi) causeBarrier
  let arrived := s.cur.gpi :: b.arrived
  let t := t.updMe fun p => { p with barw := some ⟨scope, unit, 0, none⟩ }
  .next (if b.parts.all arrived.contains
    then startRelease scope unit s.myCore.lock b.parts (t.setBarUnit s.cur.core scope unit ⟨b.parts, [], !b.phase⟩)
    else t.setBarUnit s.cur.core scope unit { b with arrived := arrived })

/-! ### Cycle and identity reads (R149) -/

/-- COREID of a core (R60). -/
def coreIdOf (n : Nat) : Nat := n + 2 ^ 9 * clusterOf n + 2 ^ 14 * dieOf n + 2 ^ 15 * (n % 16)

/-- A recorded read pushed to d. -/
def pushRecorded (d kind v : Nat) (s : State) : State :=
  let r := recorded kind v s
  pushS d 1 0 (BitVec.ofNat 64 r.1) r.2

/-- RDCYC (R149). -/
def execRdcyc (d : Nat) (s : State) : Out := .next (pushRecorded d 0 s.myCore.cycle s)

/-- RDFRZ (R149). -/
def execRdfrz (d : Nat) (s : State) : Out := .next (pushRecorded d 1 s.myCore.frz s)

/-- RDID (R149). -/
def execRdid (d : Nat) (s : State) : Out := .next (pushRecorded d 2 (coreIdOf s.cur.core) s)

/-- RDPIX (R149). -/
def execRdpix (d : Nat) (s : State) : Out := .next (pushRecorded d 3 s.cur.gpi s)

/-! ### Control registers (R58 to R61, R150) -/

/-- A tile-bank request as TBPWR holds it (R34). -/
def bankCode : BankState → Nat
  | .off => 0 | .retention => 1 | .on => 2

/-- TBPWR as it reads (R34). -/
def tbpwrOf (p : Part) : Nat :=
  ((List.range 4).map fun k => bankCode (p.bank k).req * 4 ^ k + b2n (p.bank k).busy * 2 ^ (8 + k)).sum

def runCode : RunState → Nat
  | .idle => 0 | .running => 1 | .halted => 2

/-- PSTAT (R59). -/
def pstatOf (gpi : Nat) (p : Part) : Nat :=
  gpi % 4 + 4 * b2n p.half + 8 * p.loops.length + 64 * p.pblk.rem + 1024 * runCode p.run

/-- ACCSTk: four tiles' fields from the issue view (R41, R205). -/
def accstOf (c : Core) (k : Nat) : Nat :=
  ((List.range 4).map fun j =>
    let t := Cells.get ⟨false, 0⟩ (4 * k + j) c.accView
    (t.ea + 2 ^ 15 * b2n t.hold) * 2 ^ (16 * j)).sum

/-- SCTABk: four scale-table entries (R54). -/
def sctabOf (c : Core) (k : Nat) : Nat :=
  ((List.range 4).map fun j => (Cells.get 0x7F00 (4 * k + j) c.sctab).toNat * 2 ^ (16 * j)).sum

/-- The control register numbered n as it stands (R58). -/
def crValue (s : State) (n : Nat) : Nat :=
  let p := s.me
  let c := s.myCore
  if n = 0x00 then p.flags.toNat
  else if n = 0x01 then p.slatch.toNat
  else if n = 0x02 then p.pcw.toNat
  else if n = 0x03 then p.gstrm.toNat
  else if n = 0x04 then tbpwrOf p
  else if n = 0x05 then pstatOf s.cur.gpi p
  else if n = 0x06 then p.tags.toNat
  else if n = 0x10 then c.cycle
  else if n = 0x11 then coreIdOf s.cur.core
  else if n = 0x12 then c.kseed.toNat
  else if n ≤ 0x16 then Cells.get 0 (n - 0x13) c.sema
  else if n = 0x17 then c.frz
  else if n ≤ 0x1F then c.cbcfgOf (n - 0x18)
  else if n ≤ 0x23 then sctabOf c (n - 0x20)
  else if n ≤ 0x25 then accstOf c (n - 0x24)
  else b2n c.lock

/-- CRGET: latency 1; CYCLE, COREID and FRZCNT are recorded reads (R150, R308). -/
def execCrget (d n : Nat) (s : State) : Out :=
  let v := crValue s n
  .next (if n = 0x10 then pushRecorded d 4 v s
    else if n = 0x11 then pushRecorded d 5 v s
    else if n = 0x17 then pushRecorded d 6 v s
    else pushS d 1 0 (BitVec.ofNat 64 v) s)

/-- Elements an entry may hold (R46); none for a reserved type. -/
def elenLimit (t : Nat) : Nat := if t ≤ 3 then 8 else if t ≤ 8 then 4 else if t ≤ 10 then 2 else 0

/-- CBCFGk after a write of v where it held g: clamped counts, and the fate of reserved types (R45, R46). -/
def cbcfgWrite (g v : Nat) : Nat :=
  let whole := Sys2Proof.bit v 40
  let ok := cbElen v ≤ elenLimit (cbEtype v)
  let vca := min (cbVca v) (if whole then 4096 else 2048)
  let vcb := min (cbVcb v) 2048
  let e := if ok then v else g
  vca + 2 ^ 16 * vcb + 2 ^ 32 * Sys2Proof.fld e 32 7 + 2 ^ 40 * Sys2Proof.fld v 40 2

/-- CBCFGk after a CBSEL: ACT flipped, unless the bank is in whole mode (R43, R267). -/
def cbcfgFlip (g : Nat) : Nat :=
  if cbWhole g then g else if cbAct g then g - 2 ^ 41 else g + 2 ^ 41

/-- What a landing does to CBCFGk. -/
def cbcfgLand (k g : Nat) : LandAct → Nat
  | .creg c _ v => if c = 0x18 + k then cbcfgWrite g v.toNat else g
  | .cbsel j => if j = k then cbcfgFlip g else g
  | _ => g

/-- CBCFGk as every write and flip issued before this one leaves it (R47). -/
def cbcfgPrior (s : State) (k : Nat) : Nat :=
  let captured := (List.range 4).flatMap fun q => (s.part (4 * s.cur.core + q)).snap.map SnapEntry.act
  (captured ++ s.myCore.pend.map Landing.act ++ s.cur.out.map Landing.act).foldl (cbcfgLand k) (s.myCore.cbcfgOf k)

/-- The captures of bank k by the calls in flight (R47, R204). -/
def Core.readers (c : Core) (k : Nat) : List CapBank := (c.calls.flatMap Call.cbs).filter fun b => b.k == k

/-- The valid count that a captured call reads, of a CBCFG value. -/
def capValid (b : CapBank) (g : Nat) : Nat := if b.whole || !b.act then cbVca g else cbVcb g

/-- Does a write that takes CBCFGk from g to h meet the codebook-busy fault (R47)? -/
def cbBusy (c : Core) (k g h : Nat) : Bool :=
  (c.readers k).any fun b => cbWhole g != cbWhole h || cbAct g != cbAct h || capValid b g != capValid b h

/-- CRSET: lands at c + 1; the fates of reserved fields are the landing's (R150, R61). -/
def execCrset (a : Nat) (k : Bool) (n : Nat) (s : State) : Out :=
  let x := readS a k s
  let j := n - 0x18
  let g := cbcfgPrior s j
  let busy := 0x18 ≤ n && cbBusy s.myCore j g (cbcfgWrite g x.1.toNat)
  .next (emit 1 0 (.creg n 0xFF x.1) (x.2.check (!busy) causeCodebookBusy))

/-! ### IFENCE, TRAP, ERET, HALT (R151 to R155) -/

/-- IFENCE: the next bundle issues at c + 4, and what was read ahead is discarded (R152). -/
def execIfence (s : State) : Out :=
  .next ((s.updMe fun p => { p with stale := [] }).updCur fun c => { c with hold := 4 })

/-- TRAP: the software trap is taken at the boundary after the bundle (R153). -/
def execTrap (code : Nat) (s : State) : Out := .next (s.updCur fun c => { c with trap := some code })

/-- May the handler's ERET commit: its results have landed, and its commands and calls have completed (R329)? -/
def handlerDone (s : State) (h : Stop) : Bool :=
  s.myCore.pend.isEmpty && s.myCore.near.isEmpty && s.me.cmds.all (fun c => decide (c.id < h.from_))
    && s.myCore.calls.all fun c => decide (c.id < h.from_)

/-- ERET: legal in handler state with the other slots empty; it waits until the handler's work is done (R329). -/
def execEret (s : State) : Out :=
  .next (match s.myCore.stop with
    | some h =>
      if h.handler = some (s.cur.gpi % 4) && s.cur.others = 0 then
        (s.waitIf (!handlerDone s h)).updCur fun c => { c with resume := true }
      else s.mark causeIllegalSequence 0 0
    | none => s.mark causeIllegalSequence 0 0)

/-- HALT: the partition is halted after its bundle commits (R155); illegal in a covered bundle (R85). -/
def execHalt (s : State) : Out := .next ((notCovered s).updCur fun c => { c with ends := some .halted })

end Sys2Proof.Machine
end

