-- ==== Sys2Proof/Machine/Near.lean ====
section
/-!
DEFINITION. Slot-2 accesses to the own slice: their issue (R230, R233, R234), and the clock after it, on which they
perform (R231, R232, R260).
-/

namespace Sys2Proof.Machine

/-- The offset of R230: base + index * unit modulo 2^23, the low bits below the access size cleared. The header
extension carries the index field, nf bits wide without it, upward. -/
def nearOffset (s : State) (base : W64) (i nf unit : Nat) : Nat :=
  let i := if s.cur.mod.headed then s.cur.mod.ext * 2 ^ nf + i else i
  (base.toNat % 2 ^ 23 + i * unit) % 2 ^ 23 / unit * unit

/-- Is a bank group reserved by a matrix call issued on an earlier clock: the group of its captured mp0 or mp1 (R209)? -/
def Core.reserves (c : Core) (g : Nat) : Bool :=
  c.calls.any fun x => decide (1 ≤ x.age) && match x.kind with
    | .mcall _ => x.agrp == g || x.bgrp == g
    | _ => false

/-- The bank-conflict check of a slot-2 access (R209). -/
def nearCheck (a : Nat) (s : State) : State := s.check (!s.myCore.reserves (a / 2 ^ 21)) causeBankConflict

/-- A slot-2 access that performs at c + 1 (R231). -/
def nearIssue (acc : Near) (s : State) : State :=
  s.updMyCore fun c => { c with near := c.near ++ [⟨s.cur.gpi, s.cur.slot, c.tick, acc⟩] }

/-- LDS: zero- or sign-extended, lands at c + 6 (R234). -/
def execLds (x : Bool) (d : Nat) (m : Bool) (b i z : Nat) (s : State) : Out :=
  let r := readS b m s
  let a := nearOffset s r.1 i 11 (2 ^ z)
  .next (pushS d 6 0 0 (nearIssue (.load d (2 ^ z) x a) (nearCheck a r.2)))

/-- STS (R234). -/
def execSts (d : Nat) (m : Bool) (b : Nat) (k : Bool) (i z : Nat) (s : State) : Out :=
  let v := readS d k s
  let r := readS b m v.2
  let a := nearOffset s r.1 i 11 (2 ^ z)
  .next (nearIssue (.store a (2 ^ z) v.1.toNat) (nearCheck a r.2))

/-- LDV: 128 bytes into a vector queue, landing at c + 6 (R234). -/
def execLdv (d : Nat) (m : Bool) (b i : Nat) (s : State) : Out :=
  let r := readS b m s
  let a := nearOffset s r.1 i 13 128
  .next (pushV d 6 0 0 (nearIssue (.loadV d a) (nearCheck a r.2)))

/-- STV: all 1,024 bits of the entry, whatever the width (R234). -/
def execStv (d : Nat) (m : Bool) (b : Nat) (k : Bool) (i : Nat) (s : State) : Out :=
  let v := readV d k s
  let r := readS b m v.2
  let a := nearOffset s r.1 i 13 128
  .next (nearIssue (.store a 128 v.1.toNat) (nearCheck a r.2))

/-- LDT: a tile-row write landing at c + 6 (R234); its bank is checked at issue (R37). -/
def execLdt (t : Nat) (m : Bool) (b i r : Nat) (s : State) : Out :=
  let x := readS b m s
  let a := nearOffset s x.1 i 6 128
  .next (emit 6 0 (.tileRow t r (BitVec.allOnes 1024) 0)
    (nearIssue (.loadT t r a) (nearCheck a (x.2.needTile t))))

/-- STT: the row as it stands at issue (R234). -/
def execStt (t : Nat) (m : Bool) (b i r : Nat) (s : State) : Out :=
  let x := readS b m s
  let a := nearOffset s x.1 i 6 128
  .next (nearIssue (.store a 128 (s.me.row t r).toNat) (nearCheck a (x.2.needTile t)))

/-- NATOM: the old value lands at c + 8 (R234). -/
def execNatom (q : Nat) (m : Bool) (b : Nat) (k : Bool) (i : Nat) (z : Bool) (o : Nat) (s : State) : Out :=
  let v := readS q k s
  let r := readS b m v.2
  let size := if z then 8 else 4
  let a := nearOffset s r.1 i 8 size
  .next (pushS q 8 0 0 (nearIssue (.atomic q size o a v.1.toNat) (nearCheck a r.2)))

/-- NCAS: a compare-and-swap of 4 bytes (R234). -/
def execNcas (q : Nat) (m : Bool) (b i : Nat) (s : State) : Out :=
  let v := readS q false s
  let r := readS b m v.2
  let a := nearOffset s r.1 i 8 4
  .next (pushS q 8 0 0 (nearIssue (.cas q a v.1.toNat) (nearCheck a r.2)))

/-! ### Performing (R231) -/

/-- The new value of an atomic (R234): old value, operand, and size in bits. -/
def atomicNew (op bits old x : Nat) : Nat :=
  let x := low bits x
  let so := sgn bits old
  let sx := sgn bits x
  low bits (match op with
    | 0 => old + x
    | 1 => old &&& x
    | 2 => old ||| x
    | 3 => old ^^^ x
    | 4 => if so ≤ sx then old else x
    | 5 => if so ≤ sx then x else old
    | 6 => min old x
    | 7 => max old x
    | _ => x)

/-- Bytes of the own slice as a slot-2 access reads them: through the partition's transaction, which it marks. -/
def sliceRead (n p a k : Nat) (s : State) : Nat × State :=
  match (s.part p).txActive with
  | none => (joinBytes (s.rd (.slice n) a k), s)
  | some x => (joinBytes (x.overlay (.slice n) a (s.rd (.slice n) a k)),
      s.txTouches p (.slice n) a (windowBase + n * 2 ^ 23 + a) k false)

/-- Bytes written by a slot-2 access: held in an active transaction's buffer, else performed (R260). -/
def sliceWrite (n p a k v : Nat) (s : State) : State :=
  match (s.part p).txActive with
  | none => s.wr (s.ctxOf n) none (.slice n) a (splitBytes v k)
  | some _ =>
    let t := s.txTouches p (.slice n) a (windowBase + n * 2 ^ 23 + a) k true
    t.updPart p fun z => { z with tx := z.tx.map fun x => x.hold (.slice n) a (splitBytes v k) }

/-- The value a load found, placed in the landing that its issue put in flight (R231). -/
def fillLanding (n : Nat) (x : NearAccess) (act : LandAct) (s : State) : State :=
  s.updCore n fun c => { c with pend := c.pend.map fun l =>
    if l.gpi = x.gpi && l.slot = x.slot && l.issued = x.issued then { l with act := act } else l }

/-- One slot-2 access performs at the slice of core n. -/
def perform (n : Nat) (x : NearAccess) (s : State) : State :=
  match x.acc with
  | .load q size sx a =>
    let r := sliceRead n x.gpi a size s
    let v := if sx then BitVec.ofInt 64 (sgn (8 * size) r.1) else BitVec.ofNat 64 r.1
    fillLanding n x (.spush q v) r.2
  | .store a size v => sliceWrite n x.gpi a size v s
  | .loadV q a =>
    let r := sliceRead n x.gpi a 128 s
    fillLanding n x (.vpush q (BitVec.ofNat 1024 r.1)) r.2
  | .loadT t row a =>
    let r := sliceRead n x.gpi a 128 s
    fillLanding n x (.tileRow t row (BitVec.allOnes 1024) (BitVec.ofNat 1024 r.1)) r.2
  | .atomic q size op a v =>
    let r := sliceRead n x.gpi a size s
    fillLanding n x (.spush q (BitVec.ofNat 64 r.1))
      (sliceWrite n x.gpi a size (atomicNew op (8 * size) r.1 v) r.2)
  | .cas q a v =>
    let r := sliceRead n x.gpi a 4 s
    let t := if r.1 = v % 2 ^ 32 then sliceWrite n x.gpi a 4 (v / 2 ^ 32) r.2 else r.2
    fillLanding n x (.spush q (BitVec.ofNat 64 r.1)) t

/-- Weights charged to a core on this clock (R378). -/
def State.weigh (n w : Nat) (s : State) : State := s.updCore n fun c => { c with charge := c.charge + w }

/-- SLOT2_PERFORM: the oldest waiting access of core n performs (R231, R232). -/
def execSlot2Perform (n : Nat) (s : State) : Out :=
  .next (match (s.core n).near with
    | [] => s
    | x :: r => (perform n x (s.updCore n fun c => { c with near := r })).weigh n 3)

end Sys2Proof.Machine
end

