-- ==== Sys2Proof/Machine/Link.lean ====
section
/-!
DEFINITION. The fabric as the device sends over it (R364 to R366): flows, ports, the replay buffer, and what an
acknowledgement does.
-/

namespace Sys2Proof.Machine

/-- PCFG of a port (R366). -/
def State.pcfgOf (s : State) (p : Nat) : Nat := (Cells.get 0 p s.pcfg).toNat

/-- The ports that carry frames: a protocol chosen, and UP (R366). -/
def State.upPorts (s : State) : List Nat :=
  (List.range 12).filter fun p => Sys2Proof.fld (s.pcfgOf p) 0 2 != 0 && Sys2Proof.bit (s.pcfgOf p) 4

def State.plane (s : State) (p : Nat) : Nat := Sys2Proof.fld (s.pcfgOf p) 2 2

/-- Bytes that a frame fills in a replay buffer: its header and 1 to 4 flits of data (R365). -/
def frameBytes (f : Sys2Proof.Frame) : Nat := 32 + 64 * max 1 ((f.data.length + 63) / 64)

/-- Bytes held in the replay buffer of a die, the die of a frame's port (R364, R365). -/
def State.replayHeld (s : State) (die : Nat) : Nat :=
  ((s.flows.flatMap Flow.out).filterMap fun o => if o.port / 6 = die then some (frameBytes o.frame) else none).sum

/-- The flow of a context to a peer device (R365). -/
def Flow.fresh (k peer : Nat) : Flow := ⟨k, peer, 0, [], 0, [], [], false⟩

def isFlow (k peer : Nat) (f : Flow) : Bool := f.ctx == k && f.peer == peer

def State.updFlow (k peer : Nat) (f : Flow → Flow) (s : State) : State :=
  if s.flows.any (isFlow k peer) then
    { s with flows := s.flows.map fun x => if isFlow k peer x then f x else x }
  else { s with flows := s.flows ++ [f (Flow.fresh k peer)] }

def State.flow (s : State) (k peer : Nat) : Flow := (s.flows.find? (isFlow k peer)).getD (Flow.fresh k peer)

/-- The clocks after which a frame is sent again: half the context's peer latency (R365). A hart's frames belong to no context: they
take number 16 and the least latency that one may declare (DEDUCED, assumption log 38). -/
def State.resendTime (s : State) (k : Nat) : Nat := max 4096 (s.ctx k).peerlat / 2

/-- A frame sent on any up port, a free choice; none where no port is up, the port's replay buffer is full or the flow is
dead (R365, R368). -/
def State.sendFrame (k peer : Nat) (kind : Sys2Proof.FrameKind) (addr : Nat) (data : List W8) (cmd : Option (Nat × Nat))
    (post : Option Nat) (hart : Option (Nat × Sys2Proof.HartOp)) (s : State) : Option State :=
  let ports := s.upPorts
  let r := s.draw ports.length
  let x := s.flow k peer
  let f : Sys2Proof.Frame := ⟨s.devid.toNat % 2 ^ 12, peer, (s.ctx k).fgrp, k, x.send, kind, addr, data⟩
  match ports[r.1]? with
  | none => none
  | some p =>
    if x.dead || decide (2 ^ 23 < s.replayHeld (p / 6) + frameBytes f) then none
    else some (r.2.updFlow k peer fun x =>
      { x with send := (x.send + 1) % 2 ^ 32, out := x.out ++ [⟨f, p, 1, s.resendTime k, cmd, post, hart⟩] })

/-- A posted write leaves its buffer. -/
def State.unpost (s : State) (id : Nat) : State :=
  { s with clusters := s.clusters.map fun c => (c.1, { c.2 with posted := c.2.posted.filter fun x => x.id != id }) }

/-- A value returned to a hart. -/
def hartReturn (h v : Nat) (s : State) : State := { s with hartOut := Cells.put h v s.hartOut }

/-- The reservation of a hart covers the aligned 64 bytes of a physical address (R282). -/
def State.reserved (s : State) (h pa : Nat) : Bool := Cells.has h s.resv && Cells.get 0 h s.resv == pa / 64

/-- An access of a hart at its owner, by its operation: n bytes at address a, whose physical address is pa; write makes a write there
of a value (R278, R282). -/
def hartPerform (h : Nat) (op : Sys2Proof.HartOp) (o : Owner) (a pa n v : Nat) (write : Nat → State → State) (s : State) : State :=
  let old := joinBytes (s.rd o a n)
  match op with
  | .load => hartReturn h old s
  | .store => write v s
  | .loadReserved => hartReturn h old { s with resv := Cells.put h (pa / 64) s.resv }
  | .storeConditional =>
    let ok := s.reserved h pa
    let t := { s with resv := Cells.del h s.resv }
    hartReturn h (b2n (!ok)) (if ok then write v t else t)
  | .amo op => hartReturn h old (write (atomicNew op (8 * n) old v) s)
  | .fence .. | .fenceI => s

/-- The access of a hart that a peer has acknowledged. -/
def hartAcked (h : Nat) (op : Sys2Proof.HartOp) (f : Sys2Proof.Frame) (s : State) : State :=
  let o := Owner.peer f.dst
  let n := f.data.length
  hartPerform h op o f.addr ((hartPa o f.addr).getD 0) n (joinBytes f.data)
    (fun v t => t.wr none none o f.addr (splitBytes v n)) (if op = .store then s else s.refresh o)

/-- What the acknowledgement of a frame does: a posted write, or a hart's access, has reached its owner, and a command goes on; a
contribution to a collective waits for nothing (R282, R365, R367). -/
def acked (o : OutFrame) (s : State) : State :=
  let s := match o.post, o.hart with
    | some id, _ => (s.wr (some o.frame.ctx) none (.peer o.frame.dst) o.frame.addr o.frame.data).unpost id
    | none, some x => hartAcked x.1 x.2 o.frame s
    | none, none => s
  match o.cmd, o.frame.kind with
  | none, _ => s
  | some _, .collective .. => s
  | some (p, id), _ =>
    s.updPart p fun x => { x with cmds := x.cmds.map fun c => if c.id = id then { c with sent := 2 } else c }

/-- Does a frame of a command still await its acknowledgement? -/
def State.unanswered (s : State) (p id : Nat) : Bool := s.flows.any fun f => f.out.any fun o => o.cmd == some (p, id)

/-! ### Answers to frames received (R365) -/

/-- The answers of a flow that may go: acknowledgements are cumulative, so they go in sequence. -/
def Flow.answer (clock : Nat) (f : Flow) : List AckOut × Flow :=
  let ready := f.owed.takeWhile fun x => match x.2 with
    | some c => decide (c ≤ clock)
    | none => false
  (ready.map Prod.fst, { f with owed := f.owed.drop ready.length })

/-- The answers that may go on this clock, sent. -/
def State.answer (s : State) : State :=
  { s with flows := s.flows.map fun f => (f.answer s.clock).2,
           acksOut := s.acksOut ++ s.flows.flatMap fun f => (f.answer s.clock).1 }

/-- The write of a delivered frame has been applied at its owner. -/
def landedFrame (k peer seq : Nat) (s : State) : State :=
  s.updFlow k peer fun f => { f with owed := f.owed.map fun x => if x.1.seq = seq && x.2.isNone then (x.1, some s.clock) else x }

end Sys2Proof.Machine
end

