-- ==== Sys2Proof/WellFormed.lean ====
section
/-!
DEFINITION. Which instructions are well formed: every field within the width its word gives it (R65, R220), and
the rules each instruction states for its fields (R67, R88 and the rule named on each constructor).
Events have no encoding; the part raises them itself, so they are well formed as they stand.
-/

namespace Sys2Proof

/-- The control-register numbers that R58 lists. -/
def crListed (c : Nat) : Bool :=
  decide (c ≤ 0x06) || decide (0x10 ≤ c ∧ c ≤ 0x26)

/-- The control registers that CRSET may name: those R58 marks RW. -/
def crWritable (c : Nat) : Bool :=
  decide (c ≤ 0x04) || decide (0x18 ≤ c ∧ c ≤ 0x1F)

/-- OSEL keeps bit [4b+3] of every band at 0 (R220). -/
def oselOk (osel : Nat) : Bool :=
  (List.range 8).all fun b => !bit osel (4 * b + 3)

/-- The field rules of every instruction. -/
def Instr.wf : Instr → Bool
  | .bundleIssue _ => true
  | .compactGroup2Issue _ => true
  | .resultLanding _ => true
  | .slot2Perform _ => true
  | .tbpwrTransitionStart _ _ => true
  | .tbpwrTransitionEnd _ _ => true
  | .callEntryStart _ => true
  | .aclrEntryExecute _ => true
  | .acdrnRowWrite _ => true
  | .acdrnTagSet _ => true
  | .microWaitExpiry _ => true
  | .microSyncResume _ => true
  | .accumulatorRowLanding _ => true
  | .weightBankLoadDone _ => true
  | .mcallCompletion _ => true
  | .commandStart _ _ => true
  | .commandCompletion _ _ => true
  | .farAccessArrival _ _ => true
  | .postedWriteDrain _ => true
  | .multicastRowLanding _ _ => true
  | .tableLoadLanding _ => true
  | .collectiveContributionLanding _ _ => true
  | .checkpointComplete _ => true
  | .barrierRelease _ => true
  | .trapTake _ => true
  | .lockstepCoreStop _ => true
  | .corectlResume _ => true
  | .corectlHenter _ _ => true
  | .coreResume _ => true
  | .preemption _ => true
  | .kernelResume _ => true
  | .priorityAging _ => true
  | .budgetPeriodStart _ => true
  | .qnotifyWrite _ _ => true
  | .ctxenSet _ => true
  | .ctxenClear _ => true
  | .contextDeactivate _ => true
  | .ctxstWrite _ => true
  | .ctxseedWrite _ _ => true
  | .dispatchBegin _ => true
  | .kernelStart _ => true
  | .kernelEnd _ => true
  | .tlbinvWrite _ => true
  | .tlbInvalidationDone => true
  | .pageWalk _ _ => true
  | .correctedError _ _ => true
  | .scrubRow _ _ => true
  | .uncorrectableError _ _ _ _ => true
  | .unownedError _ _ _ _ => true
  | .clusterClearDone _ => true
  | .uestatWrite _ _ => true
  | .ckstWrite _ _ => true
  | .retireCore _ _ => true
  | .retireRow _ _ _ => true
  | .retireCluster _ => true
  | .repairComplete => true
  | .frameReceive _ => true
  | .frameAckReceive _ _ _ => true
  | .frameResend _ => true
  | .pcfgWrite _ _ _ => true
  | .portRetrain _ => true
  | .ridarFlitFailure => true
  | .mgmtRequest _ _ _ _ _ => true
  | .msemAcquire _ _ _ => true
  | .msemRelease _ _ => true
  | .leaseExpiry _ => true
  | .mailboxWriteFlashBlock _ _ => true
  | .mailboxReadFlashBlock _ _ => true
  | .mailboxReadMeasurement _ _ => true
  | .mailboxAdvanceCounter _ => true
  | .powerOnBoot => true
  | .getMeasurements _ => true
  | .deviceReset => true
  | .thermalAlarmBegin => true
  | .thermalAlarmEnd => true
  | .supplyTrip => true
  | .governorClock => true
  | .glimitWrite _ _ _ => true
  | .irouteWrite _ _ => true
  | .hartMemoryAccess _ _ => true
  | .hartRegisterAccessFault _ _ => true
  | .registerWrite _ _ _ => true
  | .pageWalkCompletion _ _ => true
  | .storageDmaAccess _ _ _ => true
  | .uUnop => true
  | .uWld pa pb _ _ _ => decide (pa < 8 ∧ pb < 8)
  | .uWsw => true
  | .uWz _ => true
  | .uStrm acc row cnt pa osel => decide (acc < 8 ∧ row < 32 ∧ cnt < 32 ∧ pa < 8 ∧ osel < 4294967296 ∧ row + cnt ≤ 31 ∧ oselOk osel = true)
  | .uStrmz acc row cnt pa osel => decide (acc < 8 ∧ row < 32 ∧ cnt < 32 ∧ pa < 8 ∧ osel < 4294967296 ∧ row + cnt ≤ 31 ∧ oselOk osel = true)
  | .uAclr acc => decide (acc < 8)
  | .uDrn acc row cnt pa => decide (acc < 8 ∧ row < 32 ∧ cnt < 32 ∧ pa < 8 ∧ row + cnt ≤ 31)
  | .uAst acc row cnt pa => decide (acc < 8 ∧ row < 32 ∧ cnt < 32 ∧ pa < 8 ∧ row + cnt ≤ 31)
  | .uAaddm acc row cnt pa => decide (acc < 8 ∧ row < 32 ∧ cnt < 32 ∧ pa < 8 ∧ row + cnt ≤ 31)
  | .uAadd acc row cnt pb => decide (acc < 8 ∧ row < 32 ∧ cnt < 32 ∧ pb < 8 ∧ row + cnt ≤ 31)
  | .uAdv pa imm => decide (pa < 8 ∧ imm < 65536)
  | .uAdvs pa imm => decide (pa < 8 ∧ imm < 65536)
  | .uMovp pa pb => decide (pa < 8 ∧ pb < 8)
  | .uIdxl pb => decide (pb < 8)
  | .uIdxa imm => decide (imm < 65536)
  | .uMems imm => decide (imm < 65536)
  | .uMema imm => decide (imm < 65536)
  | .uLset lc imm => decide (lc < 4 ∧ imm < 65536)
  | .uLdec lc tgt => decide (lc < 4 ∧ tgt < 1024 ∧ 16 ≤ tgt)
  | .uJmp tgt => decide (tgt < 1024 ∧ 16 ≤ tgt)
  | .uWait imm => decide (imm < 65536)
  | .uSync => true
  | .uEnd => true
  | .nop => true
  | .add d a b _ _ => decide (d < 32 ∧ a < 32 ∧ b < 32)
  | .addQ d a b _ _ => decide (d < 32 ∧ a < 32 ∧ b < 32)
  | .sub d a b _ _ => decide (d < 32 ∧ a < 32 ∧ b < 32)
  | .subQ d a b _ _ => decide (d < 32 ∧ a < 32 ∧ b < 32)
  | .and d a b _ _ => decide (d < 32 ∧ a < 32 ∧ b < 32)
  | .andQ d a b _ _ => decide (d < 32 ∧ a < 32 ∧ b < 32)
  | .or d a b _ _ => decide (d < 32 ∧ a < 32 ∧ b < 32)
  | .orQ d a b _ _ => decide (d < 32 ∧ a < 32 ∧ b < 32)
  | .xor d a b _ _ => decide (d < 32 ∧ a < 32 ∧ b < 32)
  | .xorQ d a b _ _ => decide (d < 32 ∧ a < 32 ∧ b < 32)
  | .andn d a b _ _ => decide (d < 32 ∧ a < 32 ∧ b < 32)
  | .andnQ d a b _ _ => decide (d < 32 ∧ a < 32 ∧ b < 32)
  | .shl d a b _ _ => decide (d < 32 ∧ a < 32 ∧ b < 32)
  | .shlQ d a b _ _ => decide (d < 32 ∧ a < 32 ∧ b < 32)
  | .shr d a b _ _ => decide (d < 32 ∧ a < 32 ∧ b < 32)
  | .shrQ d a b _ _ => decide (d < 32 ∧ a < 32 ∧ b < 32)
  | .sra d a b _ _ => decide (d < 32 ∧ a < 32 ∧ b < 32)
  | .sraQ d a b _ _ => decide (d < 32 ∧ a < 32 ∧ b < 32)
  | .min d a b _ _ => decide (d < 32 ∧ a < 32 ∧ b < 32)
  | .minQ d a b _ _ => decide (d < 32 ∧ a < 32 ∧ b < 32)
  | .max d a b _ _ => decide (d < 32 ∧ a < 32 ∧ b < 32)
  | .maxQ d a b _ _ => decide (d < 32 ∧ a < 32 ∧ b < 32)
  | .minu d a b _ _ => decide (d < 32 ∧ a < 32 ∧ b < 32)
  | .minuQ d a b _ _ => decide (d < 32 ∧ a < 32 ∧ b < 32)
  | .maxu d a b _ _ => decide (d < 32 ∧ a < 32 ∧ b < 32)
  | .maxuQ d a b _ _ => decide (d < 32 ∧ a < 32 ∧ b < 32)
  | .addss d a b _ _ => decide (d < 32 ∧ a < 32 ∧ b < 32)
  | .addssQ d a b _ _ => decide (d < 32 ∧ a < 32 ∧ b < 32)
  | .subss d a b _ _ => decide (d < 32 ∧ a < 32 ∧ b < 32)
  | .subssQ d a b _ _ => decide (d < 32 ∧ a < 32 ∧ b < 32)
  | .mov d a _ => decide (d < 32 ∧ a < 32)
  | .movQ d a _ => decide (d < 32 ∧ a < 32)
  | .addi d a _ i => decide (d < 32 ∧ a < 32 ∧ i < 8192)
  | .addiQ d a _ i => decide (d < 32 ∧ a < 32 ∧ i < 8192)
  | .lui d s i => decide (d < 32 ∧ s < 32 ∧ i < 8192)
  | .luiQ d s i => decide (d < 32 ∧ s < 32 ∧ i < 8192)
  | .mul d a b _ _ => decide (d < 32 ∧ a < 32 ∧ b < 32)
  | .mulQ d a b _ _ => decide (d < 32 ∧ a < 32 ∧ b < 32)
  | .mulh d a b _ _ => decide (d < 32 ∧ a < 32 ∧ b < 32)
  | .mulhQ d a b _ _ => decide (d < 32 ∧ a < 32 ∧ b < 32)
  | .mulhu d a b _ _ => decide (d < 32 ∧ a < 32 ∧ b < 32)
  | .mulhuQ d a b _ _ => decide (d < 32 ∧ a < 32 ∧ b < 32)
  | .fadd d a b _ _ _ => decide (d < 32 ∧ a < 32 ∧ b < 32)
  | .faddQ d a b _ _ _ => decide (d < 32 ∧ a < 32 ∧ b < 32)
  | .fsub d a b _ _ _ => decide (d < 32 ∧ a < 32 ∧ b < 32)
  | .fsubQ d a b _ _ _ => decide (d < 32 ∧ a < 32 ∧ b < 32)
  | .fmul d a b _ _ _ => decide (d < 32 ∧ a < 32 ∧ b < 32)
  | .fmulQ d a b _ _ _ => decide (d < 32 ∧ a < 32 ∧ b < 32)
  | .fdiv d a b _ _ _ => decide (d < 32 ∧ a < 32 ∧ b < 32)
  | .fdivQ d a b _ _ _ => decide (d < 32 ∧ a < 32 ∧ b < 32)
  | .fsqrt d a _ _ => decide (d < 32 ∧ a < 32)
  | .fsqrtQ d a _ _ => decide (d < 32 ∧ a < 32)
  | .fmin d a b _ _ => decide (d < 32 ∧ a < 32 ∧ b < 32)
  | .fminQ d a b _ _ => decide (d < 32 ∧ a < 32 ∧ b < 32)
  | .fmax d a b _ _ => decide (d < 32 ∧ a < 32 ∧ b < 32)
  | .fmaxQ d a b _ _ => decide (d < 32 ∧ a < 32 ∧ b < 32)
  | .fabs d a _ => decide (d < 32 ∧ a < 32)
  | .fabsQ d a _ => decide (d < 32 ∧ a < 32)
  | .fneg d a _ => decide (d < 32 ∧ a < 32)
  | .fnegQ d a _ => decide (d < 32 ∧ a < 32)
  | .feq d a b _ _ => decide (d < 8 ∧ a < 32 ∧ b < 32)
  | .feqQ d a b _ _ => decide (d < 8 ∧ a < 32 ∧ b < 32)
  | .flt d a b _ _ => decide (d < 8 ∧ a < 32 ∧ b < 32)
  | .fltQ d a b _ _ => decide (d < 8 ∧ a < 32 ∧ b < 32)
  | .fle d a b _ _ => decide (d < 8 ∧ a < 32 ∧ b < 32)
  | .fleQ d a b _ _ => decide (d < 8 ∧ a < 32 ∧ b < 32)
  | .funord d a b _ _ => decide (d < 8 ∧ a < 32 ∧ b < 32)
  | .funordQ d a b _ _ => decide (d < 8 ∧ a < 32 ∧ b < 32)
  | .ceq d a b _ _ => decide (d < 8 ∧ a < 32 ∧ b < 32)
  | .ceqQ d a b _ _ => decide (d < 8 ∧ a < 32 ∧ b < 32)
  | .cne d a b _ _ => decide (d < 8 ∧ a < 32 ∧ b < 32)
  | .cneQ d a b _ _ => decide (d < 8 ∧ a < 32 ∧ b < 32)
  | .clt d a b _ _ => decide (d < 8 ∧ a < 32 ∧ b < 32)
  | .cltQ d a b _ _ => decide (d < 8 ∧ a < 32 ∧ b < 32)
  | .cle d a b _ _ => decide (d < 8 ∧ a < 32 ∧ b < 32)
  | .cleQ d a b _ _ => decide (d < 8 ∧ a < 32 ∧ b < 32)
  | .cltu d a b _ _ => decide (d < 8 ∧ a < 32 ∧ b < 32)
  | .cltuQ d a b _ _ => decide (d < 8 ∧ a < 32 ∧ b < 32)
  | .cleu d a b _ _ => decide (d < 8 ∧ a < 32 ∧ b < 32)
  | .cleuQ d a b _ _ => decide (d < 8 ∧ a < 32 ∧ b < 32)
  | .ceqi p a _ i => decide (p < 8 ∧ a < 32 ∧ i < 8192)
  | .ceqiQ p a _ i => decide (p < 8 ∧ a < 32 ∧ i < 8192)
  | .cnei p a _ i => decide (p < 8 ∧ a < 32 ∧ i < 8192)
  | .cneiQ p a _ i => decide (p < 8 ∧ a < 32 ∧ i < 8192)
  | .clti p a _ i => decide (p < 8 ∧ a < 32 ∧ i < 8192)
  | .cltiQ p a _ i => decide (p < 8 ∧ a < 32 ∧ i < 8192)
  | .cltui p a _ i => decide (p < 8 ∧ a < 32 ∧ i < 8192)
  | .cltuiQ p a _ i => decide (p < 8 ∧ a < 32 ∧ i < 8192)
  | .sel d a b _ _ p => decide (d < 32 ∧ a < 32 ∧ b < 32 ∧ p < 8)
  | .selQ d a b _ _ p => decide (d < 32 ∧ a < 32 ∧ b < 32 ∧ p < 8)
  | .clz d a _ => decide (d < 32 ∧ a < 32)
  | .clzQ d a _ => decide (d < 32 ∧ a < 32)
  | .ctz d a _ => decide (d < 32 ∧ a < 32)
  | .ctzQ d a _ => decide (d < 32 ∧ a < 32)
  | .popc d a _ => decide (d < 32 ∧ a < 32)
  | .popcQ d a _ => decide (d < 32 ∧ a < 32)
  | .shli d a n _ _ => decide (d < 32 ∧ a < 32 ∧ n < 32)
  | .shliQ d a n _ _ => decide (d < 32 ∧ a < 32 ∧ n < 32)
  | .shri d a n _ _ => decide (d < 32 ∧ a < 32 ∧ n < 32)
  | .shriQ d a n _ _ => decide (d < 32 ∧ a < 32 ∧ n < 32)
  | .srai d a n _ _ => decide (d < 32 ∧ a < 32 ∧ n < 32)
  | .sraiQ d a n _ _ => decide (d < 32 ∧ a < 32 ∧ n < 32)
  | .pand d a b => decide (d < 8 ∧ a < 8 ∧ b < 8)
  | .pandQ d a b => decide (d < 8 ∧ a < 8 ∧ b < 8)
  | .por d a b => decide (d < 8 ∧ a < 8 ∧ b < 8)
  | .porQ d a b => decide (d < 8 ∧ a < 8 ∧ b < 8)
  | .pxor d a b => decide (d < 8 ∧ a < 8 ∧ b < 8)
  | .pxorQ d a b => decide (d < 8 ∧ a < 8 ∧ b < 8)
  | .pandn d a b => decide (d < 8 ∧ a < 8 ∧ b < 8)
  | .pandnQ d a b => decide (d < 8 ∧ a < 8 ∧ b < 8)
  | .pnot d a => decide (d < 8 ∧ a < 8)
  | .pnotQ d a => decide (d < 8 ∧ a < 8)
  | .pset d => decide (d < 8)
  | .psetQ d => decide (d < 8)
  | .pclr d => decide (d < 8)
  | .pclrQ d => decide (d < 8)
  | .cvtif d a _ _ => decide (d < 32 ∧ a < 32)
  | .cvtifQ d a _ _ => decide (d < 32 ∧ a < 32)
  | .cvtuf d a _ _ => decide (d < 32 ∧ a < 32)
  | .cvtufQ d a _ _ => decide (d < 32 ∧ a < 32)
  | .cvtwf d a _ _ => decide (d < 32 ∧ a < 32)
  | .cvtwfQ d a _ _ => decide (d < 32 ∧ a < 32)
  | .cvtfi d a _ _ => decide (d < 32 ∧ a < 32)
  | .cvtfiQ d a _ _ => decide (d < 32 ∧ a < 32)
  | .cvtfu d a _ _ => decide (d < 32 ∧ a < 32)
  | .cvtfuQ d a _ _ => decide (d < 32 ∧ a < 32)
  | .cvtfw d a _ _ => decide (d < 32 ∧ a < 32)
  | .cvtfwQ d a _ _ => decide (d < 32 ∧ a < 32)
  | .cvtfwu d a _ _ => decide (d < 32 ∧ a < 32)
  | .cvtfwuQ d a _ _ => decide (d < 32 ∧ a < 32)
  | .addx d a b _ _ s => decide (d < 32 ∧ a < 32 ∧ b < 32 ∧ s < 8)
  | .addxQ d a b _ _ s => decide (d < 32 ∧ a < 32 ∧ b < 32 ∧ s < 8)
  | .subx d a b _ _ s => decide (d < 32 ∧ a < 32 ∧ b < 32 ∧ s < 8)
  | .subxQ d a b _ _ s => decide (d < 32 ∧ a < 32 ∧ b < 32 ∧ s < 8)
  | .brt p d => decide (p < 8 ∧ d < 8192)
  | .brf p d => decide (p < 8 ∧ d < 8192)
  | .jump d => decide (d < 8192)
  | .call d => decide (d < 8192)
  | .callt p d => decide (p < 8 ∧ d < 8192)
  | .callf p d => decide (p < 8 ∧ d < 8192)
  | .jr a _ => decide (a < 32)
  | .jrl d a _ => decide (d < 32 ∧ a < 32)
  | .brsw d => decide (d < 8192)
  | .brswt p d => decide (p < 8 ∧ d < 8192)
  | .brswf p d => decide (p < 8 ∧ d < 8192)
  | .loop c d => decide (c < 1024 ∧ d < 8192 ∧ 1 ≤ d)
  | .loopQ _ q d => decide (q < 32 ∧ d < 8192 ∧ 1 ≤ d)
  | .lpop => true
  | .lcnt d => decide (d < 32)
  | .lclr => true
  | .pblk p t l => decide (p < 8 ∧ t < 256 ∧ l < 8 ∧ t < 2 ^ (l + 1))
  | .qcnt d a => decide (d < 32 ∧ a < 32)
  | .qcntV d a => decide (d < 32 ∧ a < 32)
  | .qcntVn d a => decide (d < 32 ∧ a < 32)
  | .qclr a => decide (a < 32)
  | .qclrV a => decide (a < 32)
  | .qclrVn a => decide (a < 32)
  | .pfork m i => decide (m < 8 ∧ i < 8192 ∧ 1 ≤ m)
  | .pjoin s => decide (s < 4)
  | .sempost s n => decide (s < 4 ∧ n < 4096 ∧ 1 ≤ n)
  | .semwait s n => decide (s < 4 ∧ n < 4096 ∧ 1 ≤ n)
  | .barw c u => decide (c < 4 ∧ u < 64 ∧ c < 3 ∧ (c = 0 → u < 16))
  | .rdcyc d => decide (d < 32)
  | .rdfrz d => decide (d < 32)
  | .rdid d => decide (d < 32)
  | .rdpix d => decide (d < 32)
  | .crget d c => decide (d < 32 ∧ c < 256 ∧ crListed c = true)
  | .crset a _ c => decide (a < 32 ∧ c < 256 ∧ crWritable c = true)
  | .ifence => true
  | .trap c => decide (c < 256)
  | .eret => true
  | .halt => true
  | .vadd d a b _ _ t => decide (d < 64 ∧ a < 64 ∧ b < 64 ∧ t < 5)
  | .vsub d a b _ _ t => decide (d < 64 ∧ a < 64 ∧ b < 64 ∧ t < 5)
  | .vmul d a b _ _ t => decide (d < 64 ∧ a < 64 ∧ b < 64 ∧ t < 5)
  | .vmin d a b _ _ t => decide (d < 64 ∧ a < 64 ∧ b < 64 ∧ t < 5)
  | .vmax d a b _ _ t => decide (d < 64 ∧ a < 64 ∧ b < 64 ∧ t < 5)
  | .vadds d a b _ _ t => decide (d < 64 ∧ a < 64 ∧ b < 64 ∧ t < 5)
  | .vsubs d a b _ _ t => decide (d < 64 ∧ a < 64 ∧ b < 64 ∧ t < 5)
  | .vmulhi d a b _ _ t => decide (d < 64 ∧ a < 64 ∧ b < 64 ∧ t < 5)
  | .vsplati d v z => decide (d < 64 ∧ v < 512 ∧ z < 4)
  | .vaddi d a _ v z => decide (d < 64 ∧ a < 64 ∧ v < 512 ∧ z < 4)
  | .vshli d a _ v z => decide (d < 64 ∧ a < 64 ∧ v < 512 ∧ z < 4)
  | .vsrai d a _ v z => decide (d < 64 ∧ a < 64 ∧ v < 512 ∧ z < 4)
  | .vfadd d a b _ _ t => decide (d < 64 ∧ a < 64 ∧ b < 64 ∧ t < 3)
  | .vfsub d a b _ _ t => decide (d < 64 ∧ a < 64 ∧ b < 64 ∧ t < 3)
  | .vfmul d a b _ _ t => decide (d < 64 ∧ a < 64 ∧ b < 64 ∧ t < 3)
  | .vfma d a b _ _ t => decide (d < 64 ∧ a < 64 ∧ b < 64 ∧ t < 3)
  | .vfmin d a b _ _ t => decide (d < 64 ∧ a < 64 ∧ b < 64 ∧ t < 3)
  | .vfmax d a b _ _ t => decide (d < 64 ∧ a < 64 ∧ b < 64 ∧ t < 3)
  | .vfabs d a _ t => decide (d < 64 ∧ a < 64 ∧ t < 3)
  | .vfneg d a _ t => decide (d < 64 ∧ a < 64 ∧ t < 3)
  | .vand d a b _ _ => decide (d < 64 ∧ a < 64 ∧ b < 64)
  | .vor d a b _ _ => decide (d < 64 ∧ a < 64 ∧ b < 64)
  | .vxor d a b _ _ => decide (d < 64 ∧ a < 64 ∧ b < 64)
  | .vandn d a b _ _ => decide (d < 64 ∧ a < 64 ∧ b < 64)
  | .vshl d a b _ _ z => decide (d < 64 ∧ a < 64 ∧ b < 64 ∧ z < 4)
  | .vshr d a b _ _ z => decide (d < 64 ∧ a < 64 ∧ b < 64 ∧ z < 4)
  | .vsra d a b _ _ z => decide (d < 64 ∧ a < 64 ∧ b < 64 ∧ z < 4)
  | .vnot d a _ => decide (d < 64 ∧ a < 64)
  | .vcmp d a b _ _ c t => decide (d < 8 ∧ a < 64 ∧ b < 64 ∧ c < 8 ∧ t < 8 ∧ (c < 4 ∨ c = 4 ∧ 5 ≤ t))
  | .mand d a b => decide (d < 8 ∧ a < 8 ∧ b < 8)
  | .mor d a b => decide (d < 8 ∧ a < 8 ∧ b < 8)
  | .mxor d a b => decide (d < 8 ∧ a < 8 ∧ b < 8)
  | .mandn d a b => decide (d < 8 ∧ a < 8 ∧ b < 8)
  | .mnot d a => decide (d < 8 ∧ a < 8)
  | .mset d => decide (d < 8)
  | .mclr d => decide (d < 8)
  | .mcnt d a => decide (d < 32 ∧ a < 8)
  | .vperm d a b _ _ z => decide (d < 64 ∧ a < 64 ∧ b < 64 ∧ z < 3)
  | .vpermt d a b _ _ => decide (d < 64 ∧ a < 64 ∧ b < 64)
  | .vred d a g _ o t => decide (d < 64 ∧ a < 64 ∧ g < 8 ∧ o < 3 ∧ t < 6 ∧ 1 ≤ g)
  | .vmaxe a _ _ t => decide (a < 64 ∧ t < 3)
  | .vcvt d a s _ f => decide (d < 64 ∧ a < 64 ∧ s < 16 ∧ f < 16)
  | .vqnt d a _ _ f => decide (d < 64 ∧ a < 64 ∧ f < 16 ∧ f ≠ 0 ∧ f ≠ 14)
  | .vcvtsr d a b _ _ s f => decide (d < 64 ∧ a < 64 ∧ b < 32 ∧ s < 3 ∧ f < 16 ∧ f ≠ 0)
  | .vlmul d a b _ _ => decide (d < 64 ∧ a < 64 ∧ b < 64)
  | .vldiv d a b _ _ => decide (d < 64 ∧ a < 64 ∧ b < 64)
  | .vlsqrt d a _ => decide (d < 64 ∧ a < 64)
  | .vlneg d a _ => decide (d < 64 ∧ a < 64)
  | .vlabs d a _ => decide (d < 64 ∧ a < 64)
  | .vladd d a b _ _ => decide (d < 64 ∧ a < 64 ∧ b < 64)
  | .vlsub d a b _ _ => decide (d < 64 ∧ a < 64 ∧ b < 64)
  | .vcbx d a b _ t => decide (d < 64 ∧ a < 64 ∧ b < 8 ∧ t < 4)
  | .vcbn d a b _ t => decide (d < 64 ∧ a < 64 ∧ b < 8 ∧ t < 4)
  | .vrng d a _ f => decide (d < 64 ∧ a < 32 ∧ f < 3)
  | .vtwr d a b _ _ => decide (d < 16 ∧ a < 64 ∧ b < 32)
  | .vtwrCvt d a b _ _ f => decide (d < 16 ∧ a < 64 ∧ b < 32 ∧ f < 16 ∧ f ≠ 0)
  | .vtrd d a b _ => decide (d < 64 ∧ a < 16 ∧ b < 32)
  | .vtrdCvt d a b _ f => decide (d < 64 ∧ a < 16 ∧ b < 32 ∧ f < 16 ∧ f ≠ 0)
  | .vtcr d a b _ z => decide (d < 64 ∧ a < 16 ∧ b < 32 ∧ z < 3)
  | .vtcrCvt d a b _ f => decide (d < 64 ∧ a < 16 ∧ b < 32 ∧ f < 16 ∧ f ≠ 0)
  | .vct8 d a b _ f => decide (d < 64 ∧ a < 64 ∧ b < 16 ∧ f < 16)
  | .vacrd d a b _ f => decide (d < 64 ∧ a < 8 ∧ b < 32 ∧ f < 16)
  | .vsplat d a _ z => decide (d < 64 ∧ a < 32 ∧ z < 4)
  | .vext d a b _ _ z => decide (d < 32 ∧ a < 64 ∧ b < 32 ∧ z < 4)
  | .vsel d a b _ _ j => decide (d < 64 ∧ a < 64 ∧ b < 64 ∧ j < 8)
  | .vmov d a _ => decide (d < 64 ∧ a < 64)
  | .lds x d _ b i z => decide (d < 32 ∧ b < 32 ∧ i < 2048 ∧ z < 4 ∧ (z = 3 → x = false))
  | .sts d _ b _ i z => decide (d < 32 ∧ b < 32 ∧ i < 2048 ∧ z < 4)
  | .ldv d _ b i => decide (d < 64 ∧ b < 32 ∧ i < 8192)
  | .stv d _ b _ i => decide (d < 64 ∧ b < 32 ∧ i < 8192)
  | .ldt t _ b i r => decide (t < 16 ∧ b < 32 ∧ i < 64 ∧ r < 128)
  | .stt t _ b i r => decide (t < 16 ∧ b < 32 ∧ i < 64 ∧ r < 128)
  | .natom q _ b _ i _ o => decide (q < 32 ∧ b < 32 ∧ i < 256 ∧ o < 9)
  | .ncas q _ b i => decide (q < 32 ∧ b < 32 ∧ i < 256)
  | .mcall p a b r => decide (p < 64 ∧ a < 64 ∧ b < 64 ∧ r < 64)
  | .mpset n a _ => decide (n < 8 ∧ a < 32)
  | .mpget d n => decide (d < 32 ∧ n < 8)
  | .mpadd n a _ => decide (n < 8 ∧ a < 32)
  | .pcwset a _ => decide (a < 32)
  | .pcwmem a _ => decide (a < 32)
  | .scld g a _ => decide (g < 4 ∧ a < 32)
  | .scldi x v => decide (x < 16 ∧ v < 8192)
  | .wswap => true
  | .aclr t => decide (t < 8)
  | .aclrAll => true
  | .acdrn p a b _ q => decide (p < 64 ∧ a < 64 ∧ b < 64 ∧ q < 32)
  | .gsset a _ => decide (a < 32)
  | .fld p a b f q => decide (p < 64 ∧ a < 64 ∧ b < 64 ∧ f < 7 ∧ q < 32)
  | .fst p a b f q => decide (p < 64 ∧ a < 64 ∧ b < 64 ∧ f < 7 ∧ q < 32)
  | .fatom p a b f q => decide (p < 64 ∧ a < 64 ∧ b < 64 ∧ f < 7 ∧ q < 32)
  | .copy p a b q => decide (p < 64 ∧ a < 64 ∧ b < 64 ∧ q < 32)
  | .gath p a b q => decide (p < 64 ∧ a < 64 ∧ b < 64 ∧ q < 32)
  | .scat p a b q => decide (p < 64 ∧ a < 64 ∧ b < 64 ∧ q < 32)
  | .mcst p a b q => decide (p < 64 ∧ a < 64 ∧ b < 64 ∧ q < 32)
  | .cgath p a b q => decide (p < 64 ∧ a < 64 ∧ b < 64 ∧ q < 32)
  | .twany a _ => decide (a < 32)
  | .twall a _ => decide (a < 32)
  | .tfind d a _ => decide (d < 32 ∧ a < 32)
  | .tclr a _ => decide (a < 32)
  | .drn p a b f => decide (p < 64 ∧ a < 64 ∧ b < 64 ∧ f < 6)
  | .txb p a b => decide (p < 64 ∧ a < 64 ∧ b < 64 ∧ a = p ∧ b = p)
  | .txc p a b q => decide (p < 64 ∧ a < 64 ∧ b < 64 ∧ q < 32)
  | .txa p a b => decide (p < 64 ∧ a < 64 ∧ b < 64 ∧ a = p ∧ b = p)
  | .spawn p a b q => decide (p < 64 ∧ a < 64 ∧ b < 64 ∧ q < 32)
  | .take p a b q => decide (p < 64 ∧ a < 64 ∧ b < 64 ∧ q < 32)
  | .join p a b q => decide (p < 64 ∧ a < 64 ∧ b < 64 ∧ q < 32)
  | .ckpt p a b => decide (p < 64 ∧ a < 64 ∧ b < 64)
  | .cbld p a b q => decide (p < 64 ∧ a < 64 ∧ b < 64 ∧ q < 32)
  | .cwtld p a b q => decide (p < 64 ∧ a < 64 ∧ b < 64 ∧ q < 32)
  | .mpsld p a b q => decide (p < 64 ∧ a < 64 ∧ b < 64 ∧ q < 32)
  | .gtld p a b q => decide (p < 64 ∧ a < 64 ∧ b < 64 ∧ q < 32)
  | .latld p a b q => decide (p < 64 ∧ a < 64 ∧ b < 64 ∧ q < 32)
  | .ovld p a b q => decide (p < 64 ∧ a < 64 ∧ b < 64 ∧ q < 32)
  | .cbsel n => decide (n < 8)

/-- An instruction is well formed when its field rules hold. -/
abbrev Instr.WellFormed (i : Instr) : Prop := i.wf = true

end Sys2Proof
end

