-- ==== Sys2Proof/Decode.lean ====
section
/-!
DEFINITION. The decoder of slot words (R65, R67, R87, R88) and micro-words (R220, R221), total on any word and
rejecting by name, and after it the encoder, written from the same tables of the spec.
The slot decoder is marked noncomputable for one reason: Lean's compiler cannot build a constructor that has fields
and stands past the 244th of its type, and the slot words stand there. The kernel evaluates it on numerals.
-/

namespace Sys2Proof

/-- Why a word is no instruction: every one of these is the illegal-encoding trap of R67 for a slot word and the
microroutine fault of R221 for a micro-word. -/
inductive DecodeError where
  | reservedMajor   -- the major (or UOP) is reserved for its slot class
  | noEncoding      -- FN is not assigned, or an unused field or must-be-zero bit is set
  | illFormed       -- a field breaks a rule of its instruction
deriving DecidableEq, Repr

/-- The classes of slot position that share an opcode map (R87). -/
inductive SlotClass where
  | slot0 | slot13 | slot2
deriving DecidableEq, Repr

/-- The words of major 0x01 in slot 0 (formats SQ, SI, B, L, P). -/
noncomputable def rows0M01 (w : Nat) : Option Instr :=
  if fld w 0 7 = 0 then some (.add (fld w 19 5) (fld w 14 5) (fld w 9 5) (bit w 8) (bit w 7)) else
  if fld w 0 7 = 1 then some (.sub (fld w 19 5) (fld w 14 5) (fld w 9 5) (bit w 8) (bit w 7)) else
  if fld w 0 7 = 2 then some (.and (fld w 19 5) (fld w 14 5) (fld w 9 5) (bit w 8) (bit w 7)) else
  if fld w 0 7 = 3 then some (.or (fld w 19 5) (fld w 14 5) (fld w 9 5) (bit w 8) (bit w 7)) else
  if fld w 0 7 = 4 then some (.xor (fld w 19 5) (fld w 14 5) (fld w 9 5) (bit w 8) (bit w 7)) else
  if fld w 0 7 = 5 then some (.andn (fld w 19 5) (fld w 14 5) (fld w 9 5) (bit w 8) (bit w 7)) else
  if fld w 0 7 = 6 then some (.shl (fld w 19 5) (fld w 14 5) (fld w 9 5) (bit w 8) (bit w 7)) else
  if fld w 0 7 = 7 then some (.shr (fld w 19 5) (fld w 14 5) (fld w 9 5) (bit w 8) (bit w 7)) else
  if fld w 0 7 = 8 then some (.sra (fld w 19 5) (fld w 14 5) (fld w 9 5) (bit w 8) (bit w 7)) else
  if fld w 0 7 = 9 then some (.min (fld w 19 5) (fld w 14 5) (fld w 9 5) (bit w 8) (bit w 7)) else
  if fld w 0 7 = 10 then some (.max (fld w 19 5) (fld w 14 5) (fld w 9 5) (bit w 8) (bit w 7)) else
  if fld w 0 7 = 11 then some (.minu (fld w 19 5) (fld w 14 5) (fld w 9 5) (bit w 8) (bit w 7)) else
  if fld w 0 7 = 12 then some (.maxu (fld w 19 5) (fld w 14 5) (fld w 9 5) (bit w 8) (bit w 7)) else
  if fld w 0 7 = 13 then some (.addss (fld w 19 5) (fld w 14 5) (fld w 9 5) (bit w 8) (bit w 7)) else
  if fld w 0 7 = 14 then some (.subss (fld w 19 5) (fld w 14 5) (fld w 9 5) (bit w 8) (bit w 7)) else
  if fld w 0 8 = 15 ∧ fld w 9 5 = 0 then some (.mov (fld w 19 5) (fld w 14 5) (bit w 8)) else
  none

/-- The words of major 0x02 in slot 0 (formats SQ, SI, B, L, P). -/
noncomputable def rows0M02 (w : Nat) : Option Instr :=
  some (.addi (fld w 19 5) (fld w 14 5) (bit w 13) (fld w 0 13))

/-- The words of major 0x03 in slot 0 (formats SQ, SI, B, L, P). -/
noncomputable def rows0M03 (w : Nat) : Option Instr :=
  if fld w 13 1 = 0 then some (.lui (fld w 19 5) (fld w 14 5) (fld w 0 13)) else
  none

/-- The words of major 0x04 in slot 0 (formats SQ, SI, B, L, P). -/
noncomputable def rows0M04 (w : Nat) : Option Instr :=
  if fld w 0 7 = 0 then some (.mul (fld w 19 5) (fld w 14 5) (fld w 9 5) (bit w 8) (bit w 7)) else
  if fld w 0 7 = 1 then some (.mulh (fld w 19 5) (fld w 14 5) (fld w 9 5) (bit w 8) (bit w 7)) else
  if fld w 0 7 = 2 then some (.mulhu (fld w 19 5) (fld w 14 5) (fld w 9 5) (bit w 8) (bit w 7)) else
  none

/-- The words of major 0x05 in slot 0 (formats SQ, SI, B, L, P). -/
noncomputable def rows0M05 (w : Nat) : Option Instr :=
  if fld w 0 5 = 0 ∧ fld w 6 1 = 0 then some (.fadd (fld w 19 5) (fld w 14 5) (fld w 9 5) (bit w 8) (bit w 7) (bit w 5)) else
  if fld w 0 5 = 1 ∧ fld w 6 1 = 0 then some (.fsub (fld w 19 5) (fld w 14 5) (fld w 9 5) (bit w 8) (bit w 7) (bit w 5)) else
  if fld w 0 5 = 2 ∧ fld w 6 1 = 0 then some (.fmul (fld w 19 5) (fld w 14 5) (fld w 9 5) (bit w 8) (bit w 7) (bit w 5)) else
  if fld w 0 5 = 3 ∧ fld w 6 1 = 0 then some (.fdiv (fld w 19 5) (fld w 14 5) (fld w 9 5) (bit w 8) (bit w 7) (bit w 5)) else
  if fld w 0 5 = 4 ∧ fld w 6 2 = 0 ∧ fld w 9 5 = 0 then some (.fsqrt (fld w 19 5) (fld w 14 5) (bit w 8) (bit w 5)) else
  if fld w 0 7 = 5 then some (.fmin (fld w 19 5) (fld w 14 5) (fld w 9 5) (bit w 8) (bit w 7)) else
  if fld w 0 7 = 6 then some (.fmax (fld w 19 5) (fld w 14 5) (fld w 9 5) (bit w 8) (bit w 7)) else
  if fld w 0 8 = 7 ∧ fld w 9 5 = 0 then some (.fabs (fld w 19 5) (fld w 14 5) (bit w 8)) else
  if fld w 0 8 = 8 ∧ fld w 9 5 = 0 then some (.fneg (fld w 19 5) (fld w 14 5) (bit w 8)) else
  none

/-- The words of major 0x06 in slot 0 (formats SQ, SI, B, L, P). -/
noncomputable def rows0M06 (w : Nat) : Option Instr :=
  if fld w 0 7 = 0 then some (.feq (fld w 19 5) (fld w 14 5) (fld w 9 5) (bit w 8) (bit w 7)) else
  if fld w 0 7 = 1 then some (.flt (fld w 19 5) (fld w 14 5) (fld w 9 5) (bit w 8) (bit w 7)) else
  if fld w 0 7 = 2 then some (.fle (fld w 19 5) (fld w 14 5) (fld w 9 5) (bit w 8) (bit w 7)) else
  if fld w 0 7 = 3 then some (.funord (fld w 19 5) (fld w 14 5) (fld w 9 5) (bit w 8) (bit w 7)) else
  none

/-- The words of major 0x07 in slot 0 (formats SQ, SI, B, L, P). -/
noncomputable def rows0M07 (w : Nat) : Option Instr :=
  if fld w 0 7 = 0 then some (.ceq (fld w 19 5) (fld w 14 5) (fld w 9 5) (bit w 8) (bit w 7)) else
  if fld w 0 7 = 1 then some (.cne (fld w 19 5) (fld w 14 5) (fld w 9 5) (bit w 8) (bit w 7)) else
  if fld w 0 7 = 2 then some (.clt (fld w 19 5) (fld w 14 5) (fld w 9 5) (bit w 8) (bit w 7)) else
  if fld w 0 7 = 3 then some (.cle (fld w 19 5) (fld w 14 5) (fld w 9 5) (bit w 8) (bit w 7)) else
  if fld w 0 7 = 4 then some (.cltu (fld w 19 5) (fld w 14 5) (fld w 9 5) (bit w 8) (bit w 7)) else
  if fld w 0 7 = 5 then some (.cleu (fld w 19 5) (fld w 14 5) (fld w 9 5) (bit w 8) (bit w 7)) else
  none

/-- The words of major 0x08 in slot 0 (formats SQ, SI, B, L, P). -/
noncomputable def rows0M08 (w : Nat) : Option Instr :=
  if fld w 22 2 = 0 then some (.ceqi (fld w 19 3) (fld w 14 5) (bit w 13) (fld w 0 13)) else
  if fld w 22 2 = 1 then some (.cnei (fld w 19 3) (fld w 14 5) (bit w 13) (fld w 0 13)) else
  if fld w 22 2 = 2 then some (.clti (fld w 19 3) (fld w 14 5) (bit w 13) (fld w 0 13)) else
  if fld w 22 2 = 3 then some (.cltui (fld w 19 3) (fld w 14 5) (bit w 13) (fld w 0 13)) else
  none

/-- The words of major 0x09 in slot 0 (formats SQ, SI, B, L, P). -/
noncomputable def rows0M09 (w : Nat) : Option Instr :=
  if fld w 3 4 = 0 then some (.sel (fld w 19 5) (fld w 14 5) (fld w 9 5) (bit w 8) (bit w 7) (fld w 0 3)) else
  none

/-- The words of major 0x0A in slot 0 (formats SQ, SI, B, L, P). -/
noncomputable def rows0M0A (w : Nat) : Option Instr :=
  if fld w 0 8 = 0 ∧ fld w 9 5 = 0 then some (.clz (fld w 19 5) (fld w 14 5) (bit w 8)) else
  if fld w 0 8 = 1 ∧ fld w 9 5 = 0 then some (.ctz (fld w 19 5) (fld w 14 5) (bit w 8)) else
  if fld w 0 8 = 2 ∧ fld w 9 5 = 0 then some (.popc (fld w 19 5) (fld w 14 5) (bit w 8)) else
  if fld w 1 7 = 8 then some (.shli (fld w 19 5) (fld w 14 5) (fld w 9 5) (bit w 8) (bit w 0)) else
  if fld w 1 7 = 9 then some (.shri (fld w 19 5) (fld w 14 5) (fld w 9 5) (bit w 8) (bit w 0)) else
  if fld w 1 7 = 10 then some (.srai (fld w 19 5) (fld w 14 5) (fld w 9 5) (bit w 8) (bit w 0)) else
  none

/-- The words of major 0x0B in slot 0 (formats SQ, SI, B, L, P). -/
noncomputable def rows0M0B (w : Nat) : Option Instr :=
  if fld w 0 9 = 0 then some (.pand (fld w 19 5) (fld w 14 5) (fld w 9 5)) else
  if fld w 0 9 = 1 then some (.por (fld w 19 5) (fld w 14 5) (fld w 9 5)) else
  if fld w 0 9 = 2 then some (.pxor (fld w 19 5) (fld w 14 5) (fld w 9 5)) else
  if fld w 0 9 = 3 then some (.pandn (fld w 19 5) (fld w 14 5) (fld w 9 5)) else
  if fld w 0 14 = 4 then some (.pnot (fld w 19 5) (fld w 14 5)) else
  if fld w 0 19 = 5 then some (.pset (fld w 19 5)) else
  if fld w 0 19 = 6 then some (.pclr (fld w 19 5)) else
  none

/-- The words of major 0x0C in slot 0 (formats SQ, SI, B, L, P). -/
noncomputable def rows0M0C (w : Nat) : Option Instr :=
  if fld w 0 3 = 0 ∧ fld w 4 4 = 0 ∧ fld w 9 5 = 0 then some (.cvtif (fld w 19 5) (fld w 14 5) (bit w 8) (bit w 3)) else
  if fld w 0 3 = 1 ∧ fld w 4 4 = 0 ∧ fld w 9 5 = 0 then some (.cvtuf (fld w 19 5) (fld w 14 5) (bit w 8) (bit w 3)) else
  if fld w 0 3 = 2 ∧ fld w 4 4 = 0 ∧ fld w 9 5 = 0 then some (.cvtwf (fld w 19 5) (fld w 14 5) (bit w 8) (bit w 3)) else
  if fld w 0 3 = 3 ∧ fld w 4 4 = 0 ∧ fld w 9 5 = 0 then some (.cvtfi (fld w 19 5) (fld w 14 5) (bit w 8) (bit w 3)) else
  if fld w 0 3 = 4 ∧ fld w 4 4 = 0 ∧ fld w 9 5 = 0 then some (.cvtfu (fld w 19 5) (fld w 14 5) (bit w 8) (bit w 3)) else
  if fld w 0 3 = 5 ∧ fld w 4 4 = 0 ∧ fld w 9 5 = 0 then some (.cvtfw (fld w 19 5) (fld w 14 5) (bit w 8) (bit w 3)) else
  if fld w 0 3 = 6 ∧ fld w 4 4 = 0 ∧ fld w 9 5 = 0 then some (.cvtfwu (fld w 19 5) (fld w 14 5) (bit w 8) (bit w 3)) else
  none

/-- The words of major 0x0D in slot 0 (formats SQ, SI, B, L, P). -/
noncomputable def rows0M0D (w : Nat) : Option Instr :=
  if fld w 3 4 = 0 then some (.addx (fld w 19 5) (fld w 14 5) (fld w 9 5) (bit w 8) (bit w 7) (fld w 0 3)) else
  if fld w 3 4 = 1 then some (.subx (fld w 19 5) (fld w 14 5) (fld w 9 5) (bit w 8) (bit w 7) (fld w 0 3)) else
  none

/-- The words of major 0x10 in slot 0 (formats SQ, SI, B, L, P). -/
noncomputable def rows0M10 (w : Nat) : Option Instr :=
  if fld w 13 7 = 64 ∧ fld w 23 1 = 1 then some (.brt (fld w 20 3) (fld w 0 13)) else
  if fld w 13 7 = 0 ∧ fld w 23 1 = 1 then some (.brf (fld w 20 3) (fld w 0 13)) else
  none

/-- The words of major 0x11 in slot 0 (formats SQ, SI, B, L, P). -/
noncomputable def rows0M11 (w : Nat) : Option Instr :=
  if fld w 13 11 = 0 then some (.jump (fld w 0 13)) else
  none

/-- The words of major 0x12 in slot 0 (formats SQ, SI, B, L, P). -/
noncomputable def rows0M12 (w : Nat) : Option Instr :=
  if fld w 13 11 = 0 then some (.call (fld w 0 13)) else
  if fld w 13 7 = 64 ∧ fld w 23 1 = 1 then some (.callt (fld w 20 3) (fld w 0 13)) else
  if fld w 13 7 = 0 ∧ fld w 23 1 = 1 then some (.callf (fld w 20 3) (fld w 0 13)) else
  none

/-- The words of major 0x13 in slot 0 (formats SQ, SI, B, L, P). -/
noncomputable def rows0M13 (w : Nat) : Option Instr :=
  if fld w 0 8 = 0 ∧ fld w 9 5 = 0 ∧ fld w 19 5 = 0 then some (.jr (fld w 14 5) (bit w 8)) else
  if fld w 0 8 = 1 ∧ fld w 9 5 = 0 then some (.jrl (fld w 19 5) (fld w 14 5) (bit w 8)) else
  none

/-- The words of major 0x14 in slot 0 (formats SQ, SI, B, L, P). -/
noncomputable def rows0M14 (w : Nat) : Option Instr :=
  if fld w 13 11 = 0 then some (.brsw (fld w 0 13)) else
  if fld w 13 7 = 64 ∧ fld w 23 1 = 1 then some (.brswt (fld w 20 3) (fld w 0 13)) else
  if fld w 13 7 = 0 ∧ fld w 23 1 = 1 then some (.brswf (fld w 20 3) (fld w 0 13)) else
  none

/-- The words of major 0x15 in slot 0 (formats SQ, SI, B, L, P). -/
noncomputable def rows0M15 (w : Nat) : Option Instr :=
  if fld w 23 1 = 0 then some (.loop (fld w 13 10) (fld w 0 13)) else
  if fld w 18 4 = 0 ∧ fld w 23 1 = 1 then some (.loopQ (bit w 22) (fld w 13 5) (fld w 0 13)) else
  none

/-- The words of major 0x16 in slot 0 (formats SQ, SI, B, L, P). -/
noncomputable def rows0M16 (w : Nat) : Option Instr :=
  if fld w 0 24 = 0 then some (.lpop) else
  if fld w 0 19 = 1 then some (.lcnt (fld w 19 5)) else
  if fld w 0 24 = 2 then some (.lclr) else
  none

/-- The words of major 0x17 in slot 0 (formats SQ, SI, B, L, P). -/
noncomputable def rows0M17 (w : Nat) : Option Instr :=
  if fld w 0 10 = 0 then some (.pblk (fld w 21 3) (fld w 13 8) (fld w 10 3)) else
  none

/-- The words of major 0x18 in slot 0 (formats SQ, SI, B, L, P). -/
noncomputable def rows0M18 (w : Nat) : Option Instr :=
  if fld w 0 14 = 0 then some (.qcnt (fld w 19 5) (fld w 14 5)) else
  if fld w 0 14 = 1 then some (.qcntV (fld w 19 5) (fld w 14 5)) else
  if fld w 0 14 = 3 then some (.qcntVn (fld w 19 5) (fld w 14 5)) else
  if fld w 0 14 = 4 ∧ fld w 19 5 = 0 then some (.qclr (fld w 14 5)) else
  if fld w 0 14 = 5 ∧ fld w 19 5 = 0 then some (.qclrV (fld w 14 5)) else
  if fld w 0 14 = 7 ∧ fld w 19 5 = 0 then some (.qclrVn (fld w 14 5)) else
  none

/-- The words of major 0x19 in slot 0 (formats SQ, SI, B, L, P). -/
noncomputable def rows0M19 (w : Nat) : Option Instr :=
  if fld w 13 2 = 0 ∧ fld w 18 6 = 0 then some (.pfork (fld w 15 3) (fld w 0 13)) else
  if fld w 0 14 = 0 ∧ fld w 16 8 = 8 then some (.pjoin (fld w 14 2)) else
  none

/-- The words of major 0x1A in slot 0 (formats SQ, SI, B, L, P). -/
noncomputable def rows0M1A (w : Nat) : Option Instr :=
  if fld w 12 2 = 0 ∧ fld w 16 8 = 0 then some (.sempost (fld w 14 2) (fld w 0 12)) else
  if fld w 12 2 = 0 ∧ fld w 16 8 = 8 then some (.semwait (fld w 14 2) (fld w 0 12)) else
  none

/-- The words of major 0x1B in slot 0 (formats SQ, SI, B, L, P). -/
noncomputable def rows0M1B (w : Nat) : Option Instr :=
  if fld w 6 13 = 0 ∧ fld w 21 3 = 0 then some (.barw (fld w 19 2) (fld w 0 6)) else
  none

/-- The words of major 0x1C in slot 0 (formats SQ, SI, B, L, P). -/
noncomputable def rows0M1C (w : Nat) : Option Instr :=
  if fld w 0 19 = 0 then some (.rdcyc (fld w 19 5)) else
  if fld w 0 19 = 1 then some (.rdfrz (fld w 19 5)) else
  if fld w 0 19 = 2 then some (.rdid (fld w 19 5)) else
  if fld w 0 19 = 3 then some (.rdpix (fld w 19 5)) else
  none

/-- The words of major 0x1D in slot 0 (formats SQ, SI, B, L, P). -/
noncomputable def rows0M1D (w : Nat) : Option Instr :=
  if fld w 8 11 = 0 then some (.crget (fld w 19 5) (fld w 0 8)) else
  none

/-- The words of major 0x1E in slot 0 (formats SQ, SI, B, L, P). -/
noncomputable def rows0M1E (w : Nat) : Option Instr :=
  if fld w 8 5 = 0 ∧ fld w 19 5 = 0 then some (.crset (fld w 14 5) (bit w 13) (fld w 0 8)) else
  none

/-- The words of major 0x1F in slot 0 (formats SQ, SI, B, L, P). -/
noncomputable def rows0M1F (w : Nat) : Option Instr :=
  if fld w 0 24 = 0 then some (.ifence) else
  if fld w 8 16 = 2048 then some (.trap (fld w 0 8)) else
  if fld w 0 24 = 1048576 then some (.eret) else
  if fld w 0 24 = 1572864 then some (.halt) else
  none

/-- The word of a given major in slot 0 (formats SQ, SI, B, L, P); a zero word is the NOP form (R64). -/
noncomputable def rows0 (maj w : Nat) : Option Instr :=
  match maj with
  | 0 => if w = 0 then some .nop else none
  | 0x01 => rows0M01 w
  | 0x02 => rows0M02 w
  | 0x03 => rows0M03 w
  | 0x04 => rows0M04 w
  | 0x05 => rows0M05 w
  | 0x06 => rows0M06 w
  | 0x07 => rows0M07 w
  | 0x08 => rows0M08 w
  | 0x09 => rows0M09 w
  | 0x0A => rows0M0A w
  | 0x0B => rows0M0B w
  | 0x0C => rows0M0C w
  | 0x0D => rows0M0D w
  | 0x10 => rows0M10 w
  | 0x11 => rows0M11 w
  | 0x12 => rows0M12 w
  | 0x13 => rows0M13 w
  | 0x14 => rows0M14 w
  | 0x15 => rows0M15 w
  | 0x16 => rows0M16 w
  | 0x17 => rows0M17 w
  | 0x18 => rows0M18 w
  | 0x19 => rows0M19 w
  | 0x1A => rows0M1A w
  | 0x1B => rows0M1B w
  | 0x1C => rows0M1C w
  | 0x1D => rows0M1D w
  | 0x1E => rows0M1E w
  | 0x1F => rows0M1F w
  | _ => none

/-- The words of major 0x01 in slots 1 and 3 (formats Q, I, E, C). -/
noncomputable def rows13M01 (w : Nat) : Option Instr :=
  if fld w 0 6 = 0 then some (.addQ (fld w 20 6) (fld w 14 6) (fld w 8 6) (bit w 7) (bit w 6)) else
  if fld w 0 6 = 1 then some (.subQ (fld w 20 6) (fld w 14 6) (fld w 8 6) (bit w 7) (bit w 6)) else
  if fld w 0 6 = 2 then some (.andQ (fld w 20 6) (fld w 14 6) (fld w 8 6) (bit w 7) (bit w 6)) else
  if fld w 0 6 = 3 then some (.orQ (fld w 20 6) (fld w 14 6) (fld w 8 6) (bit w 7) (bit w 6)) else
  if fld w 0 6 = 4 then some (.xorQ (fld w 20 6) (fld w 14 6) (fld w 8 6) (bit w 7) (bit w 6)) else
  if fld w 0 6 = 5 then some (.andnQ (fld w 20 6) (fld w 14 6) (fld w 8 6) (bit w 7) (bit w 6)) else
  if fld w 0 6 = 6 then some (.shlQ (fld w 20 6) (fld w 14 6) (fld w 8 6) (bit w 7) (bit w 6)) else
  if fld w 0 6 = 7 then some (.shrQ (fld w 20 6) (fld w 14 6) (fld w 8 6) (bit w 7) (bit w 6)) else
  if fld w 0 6 = 8 then some (.sraQ (fld w 20 6) (fld w 14 6) (fld w 8 6) (bit w 7) (bit w 6)) else
  if fld w 0 6 = 9 then some (.minQ (fld w 20 6) (fld w 14 6) (fld w 8 6) (bit w 7) (bit w 6)) else
  if fld w 0 6 = 10 then some (.maxQ (fld w 20 6) (fld w 14 6) (fld w 8 6) (bit w 7) (bit w 6)) else
  if fld w 0 6 = 11 then some (.minuQ (fld w 20 6) (fld w 14 6) (fld w 8 6) (bit w 7) (bit w 6)) else
  if fld w 0 6 = 12 then some (.maxuQ (fld w 20 6) (fld w 14 6) (fld w 8 6) (bit w 7) (bit w 6)) else
  if fld w 0 6 = 13 then some (.addssQ (fld w 20 6) (fld w 14 6) (fld w 8 6) (bit w 7) (bit w 6)) else
  if fld w 0 6 = 14 then some (.subssQ (fld w 20 6) (fld w 14 6) (fld w 8 6) (bit w 7) (bit w 6)) else
  if fld w 0 7 = 15 ∧ fld w 8 6 = 0 then some (.movQ (fld w 20 6) (fld w 14 6) (bit w 7)) else
  none

/-- The words of major 0x02 in slots 1 and 3 (formats Q, I, E, C). -/
noncomputable def rows13M02 (w : Nat) : Option Instr :=
  some (.addiQ (fld w 20 6) (fld w 14 6) (bit w 13) (fld w 0 13))

/-- The words of major 0x03 in slots 1 and 3 (formats Q, I, E, C). -/
noncomputable def rows13M03 (w : Nat) : Option Instr :=
  if fld w 13 1 = 0 then some (.luiQ (fld w 20 6) (fld w 14 6) (fld w 0 13)) else
  none

/-- The words of major 0x04 in slots 1 and 3 (formats Q, I, E, C). -/
noncomputable def rows13M04 (w : Nat) : Option Instr :=
  if fld w 0 6 = 0 then some (.mulQ (fld w 20 6) (fld w 14 6) (fld w 8 6) (bit w 7) (bit w 6)) else
  if fld w 0 6 = 1 then some (.mulhQ (fld w 20 6) (fld w 14 6) (fld w 8 6) (bit w 7) (bit w 6)) else
  if fld w 0 6 = 2 then some (.mulhuQ (fld w 20 6) (fld w 14 6) (fld w 8 6) (bit w 7) (bit w 6)) else
  none

/-- The words of major 0x05 in slots 1 and 3 (formats Q, I, E, C). -/
noncomputable def rows13M05 (w : Nat) : Option Instr :=
  if fld w 0 5 = 0 then some (.faddQ (fld w 20 6) (fld w 14 6) (fld w 8 6) (bit w 7) (bit w 6) (bit w 5)) else
  if fld w 0 5 = 1 then some (.fsubQ (fld w 20 6) (fld w 14 6) (fld w 8 6) (bit w 7) (bit w 6) (bit w 5)) else
  if fld w 0 5 = 2 then some (.fmulQ (fld w 20 6) (fld w 14 6) (fld w 8 6) (bit w 7) (bit w 6) (bit w 5)) else
  if fld w 0 5 = 3 then some (.fdivQ (fld w 20 6) (fld w 14 6) (fld w 8 6) (bit w 7) (bit w 6) (bit w 5)) else
  if fld w 0 5 = 4 ∧ fld w 6 1 = 0 ∧ fld w 8 6 = 0 then some (.fsqrtQ (fld w 20 6) (fld w 14 6) (bit w 7) (bit w 5)) else
  if fld w 0 6 = 5 then some (.fminQ (fld w 20 6) (fld w 14 6) (fld w 8 6) (bit w 7) (bit w 6)) else
  if fld w 0 6 = 6 then some (.fmaxQ (fld w 20 6) (fld w 14 6) (fld w 8 6) (bit w 7) (bit w 6)) else
  if fld w 0 7 = 7 ∧ fld w 8 6 = 0 then some (.fabsQ (fld w 20 6) (fld w 14 6) (bit w 7)) else
  if fld w 0 7 = 8 ∧ fld w 8 6 = 0 then some (.fnegQ (fld w 20 6) (fld w 14 6) (bit w 7)) else
  none

/-- The words of major 0x06 in slots 1 and 3 (formats Q, I, E, C). -/
noncomputable def rows13M06 (w : Nat) : Option Instr :=
  if fld w 0 6 = 0 then some (.feqQ (fld w 20 6) (fld w 14 6) (fld w 8 6) (bit w 7) (bit w 6)) else
  if fld w 0 6 = 1 then some (.fltQ (fld w 20 6) (fld w 14 6) (fld w 8 6) (bit w 7) (bit w 6)) else
  if fld w 0 6 = 2 then some (.fleQ (fld w 20 6) (fld w 14 6) (fld w 8 6) (bit w 7) (bit w 6)) else
  if fld w 0 6 = 3 then some (.funordQ (fld w 20 6) (fld w 14 6) (fld w 8 6) (bit w 7) (bit w 6)) else
  none

/-- The words of major 0x07 in slots 1 and 3 (formats Q, I, E, C). -/
noncomputable def rows13M07 (w : Nat) : Option Instr :=
  if fld w 0 6 = 0 then some (.ceqQ (fld w 20 6) (fld w 14 6) (fld w 8 6) (bit w 7) (bit w 6)) else
  if fld w 0 6 = 1 then some (.cneQ (fld w 20 6) (fld w 14 6) (fld w 8 6) (bit w 7) (bit w 6)) else
  if fld w 0 6 = 2 then some (.cltQ (fld w 20 6) (fld w 14 6) (fld w 8 6) (bit w 7) (bit w 6)) else
  if fld w 0 6 = 3 then some (.cleQ (fld w 20 6) (fld w 14 6) (fld w 8 6) (bit w 7) (bit w 6)) else
  if fld w 0 6 = 4 then some (.cltuQ (fld w 20 6) (fld w 14 6) (fld w 8 6) (bit w 7) (bit w 6)) else
  if fld w 0 6 = 5 then some (.cleuQ (fld w 20 6) (fld w 14 6) (fld w 8 6) (bit w 7) (bit w 6)) else
  none

/-- The words of major 0x08 in slots 1 and 3 (formats Q, I, E, C). -/
noncomputable def rows13M08 (w : Nat) : Option Instr :=
  if fld w 23 3 = 0 then some (.ceqiQ (fld w 20 3) (fld w 14 6) (bit w 13) (fld w 0 13)) else
  if fld w 23 3 = 1 then some (.cneiQ (fld w 20 3) (fld w 14 6) (bit w 13) (fld w 0 13)) else
  if fld w 23 3 = 2 then some (.cltiQ (fld w 20 3) (fld w 14 6) (bit w 13) (fld w 0 13)) else
  if fld w 23 3 = 3 then some (.cltuiQ (fld w 20 3) (fld w 14 6) (bit w 13) (fld w 0 13)) else
  none

/-- The words of major 0x09 in slots 1 and 3 (formats Q, I, E, C). -/
noncomputable def rows13M09 (w : Nat) : Option Instr :=
  if fld w 3 3 = 0 then some (.selQ (fld w 20 6) (fld w 14 6) (fld w 8 6) (bit w 7) (bit w 6) (fld w 0 3)) else
  none

/-- The words of major 0x0A in slots 1 and 3 (formats Q, I, E, C). -/
noncomputable def rows13M0A (w : Nat) : Option Instr :=
  if fld w 0 7 = 0 ∧ fld w 8 6 = 0 then some (.clzQ (fld w 20 6) (fld w 14 6) (bit w 7)) else
  if fld w 0 7 = 1 ∧ fld w 8 6 = 0 then some (.ctzQ (fld w 20 6) (fld w 14 6) (bit w 7)) else
  if fld w 0 7 = 2 ∧ fld w 8 6 = 0 then some (.popcQ (fld w 20 6) (fld w 14 6) (bit w 7)) else
  if fld w 1 6 = 8 ∧ fld w 13 1 = 0 then some (.shliQ (fld w 20 6) (fld w 14 6) (fld w 8 5) (bit w 7) (bit w 0)) else
  if fld w 1 6 = 9 ∧ fld w 13 1 = 0 then some (.shriQ (fld w 20 6) (fld w 14 6) (fld w 8 5) (bit w 7) (bit w 0)) else
  if fld w 1 6 = 10 ∧ fld w 13 1 = 0 then some (.sraiQ (fld w 20 6) (fld w 14 6) (fld w 8 5) (bit w 7) (bit w 0)) else
  none

/-- The words of major 0x0B in slots 1 and 3 (formats Q, I, E, C). -/
noncomputable def rows13M0B (w : Nat) : Option Instr :=
  if fld w 0 8 = 0 then some (.pandQ (fld w 20 6) (fld w 14 6) (fld w 8 6)) else
  if fld w 0 8 = 1 then some (.porQ (fld w 20 6) (fld w 14 6) (fld w 8 6)) else
  if fld w 0 8 = 2 then some (.pxorQ (fld w 20 6) (fld w 14 6) (fld w 8 6)) else
  if fld w 0 8 = 3 then some (.pandnQ (fld w 20 6) (fld w 14 6) (fld w 8 6)) else
  if fld w 0 14 = 4 then some (.pnotQ (fld w 20 6) (fld w 14 6)) else
  if fld w 0 20 = 5 then some (.psetQ (fld w 20 6)) else
  if fld w 0 20 = 6 then some (.pclrQ (fld w 20 6)) else
  none

/-- The words of major 0x0C in slots 1 and 3 (formats Q, I, E, C). -/
noncomputable def rows13M0C (w : Nat) : Option Instr :=
  if fld w 0 3 = 0 ∧ fld w 4 3 = 0 ∧ fld w 8 6 = 0 then some (.cvtifQ (fld w 20 6) (fld w 14 6) (bit w 7) (bit w 3)) else
  if fld w 0 3 = 1 ∧ fld w 4 3 = 0 ∧ fld w 8 6 = 0 then some (.cvtufQ (fld w 20 6) (fld w 14 6) (bit w 7) (bit w 3)) else
  if fld w 0 3 = 2 ∧ fld w 4 3 = 0 ∧ fld w 8 6 = 0 then some (.cvtwfQ (fld w 20 6) (fld w 14 6) (bit w 7) (bit w 3)) else
  if fld w 0 3 = 3 ∧ fld w 4 3 = 0 ∧ fld w 8 6 = 0 then some (.cvtfiQ (fld w 20 6) (fld w 14 6) (bit w 7) (bit w 3)) else
  if fld w 0 3 = 4 ∧ fld w 4 3 = 0 ∧ fld w 8 6 = 0 then some (.cvtfuQ (fld w 20 6) (fld w 14 6) (bit w 7) (bit w 3)) else
  if fld w 0 3 = 5 ∧ fld w 4 3 = 0 ∧ fld w 8 6 = 0 then some (.cvtfwQ (fld w 20 6) (fld w 14 6) (bit w 7) (bit w 3)) else
  if fld w 0 3 = 6 ∧ fld w 4 3 = 0 ∧ fld w 8 6 = 0 then some (.cvtfwuQ (fld w 20 6) (fld w 14 6) (bit w 7) (bit w 3)) else
  none

/-- The words of major 0x0D in slots 1 and 3 (formats Q, I, E, C). -/
noncomputable def rows13M0D (w : Nat) : Option Instr :=
  if fld w 3 3 = 0 then some (.addxQ (fld w 20 6) (fld w 14 6) (fld w 8 6) (bit w 7) (bit w 6) (fld w 0 3)) else
  if fld w 3 3 = 1 then some (.subxQ (fld w 20 6) (fld w 14 6) (fld w 8 6) (bit w 7) (bit w 6) (fld w 0 3)) else
  none

/-- The words of major 0x10 in slots 1 and 3 (formats Q, I, E, C). -/
noncomputable def rows13M10 (w : Nat) : Option Instr :=
  if fld w 3 3 = 0 then some (.vadd (fld w 20 6) (fld w 14 6) (fld w 8 6) (bit w 7) (bit w 6) (fld w 0 3)) else
  if fld w 3 3 = 1 then some (.vsub (fld w 20 6) (fld w 14 6) (fld w 8 6) (bit w 7) (bit w 6) (fld w 0 3)) else
  if fld w 3 3 = 2 then some (.vmul (fld w 20 6) (fld w 14 6) (fld w 8 6) (bit w 7) (bit w 6) (fld w 0 3)) else
  if fld w 3 3 = 3 then some (.vmin (fld w 20 6) (fld w 14 6) (fld w 8 6) (bit w 7) (bit w 6) (fld w 0 3)) else
  if fld w 3 3 = 4 then some (.vmax (fld w 20 6) (fld w 14 6) (fld w 8 6) (bit w 7) (bit w 6) (fld w 0 3)) else
  if fld w 3 3 = 5 then some (.vadds (fld w 20 6) (fld w 14 6) (fld w 8 6) (bit w 7) (bit w 6) (fld w 0 3)) else
  if fld w 3 3 = 6 then some (.vsubs (fld w 20 6) (fld w 14 6) (fld w 8 6) (bit w 7) (bit w 6) (fld w 0 3)) else
  if fld w 3 3 = 7 then some (.vmulhi (fld w 20 6) (fld w 14 6) (fld w 8 6) (bit w 7) (bit w 6) (fld w 0 3)) else
  none

/-- The words of major 0x11 in slots 1 and 3 (formats Q, I, E, C). -/
noncomputable def rows13M11 (w : Nat) : Option Instr :=
  if fld w 2 2 = 0 ∧ fld w 13 7 = 0 then some (.vsplati (fld w 20 6) (fld w 4 9) (fld w 0 2)) else
  if fld w 2 2 = 1 then some (.vaddi (fld w 20 6) (fld w 14 6) (bit w 13) (fld w 4 9) (fld w 0 2)) else
  if fld w 2 2 = 2 then some (.vshli (fld w 20 6) (fld w 14 6) (bit w 13) (fld w 4 9) (fld w 0 2)) else
  if fld w 2 2 = 3 then some (.vsrai (fld w 20 6) (fld w 14 6) (bit w 13) (fld w 4 9) (fld w 0 2)) else
  none

/-- The words of major 0x12 in slots 1 and 3 (formats Q, I, E, C). -/
noncomputable def rows13M12 (w : Nat) : Option Instr :=
  if fld w 0 4 = 0 then some (.vfadd (fld w 20 6) (fld w 14 6) (fld w 8 6) (bit w 7) (bit w 6) (fld w 4 2)) else
  if fld w 0 4 = 1 then some (.vfsub (fld w 20 6) (fld w 14 6) (fld w 8 6) (bit w 7) (bit w 6) (fld w 4 2)) else
  if fld w 0 4 = 2 then some (.vfmul (fld w 20 6) (fld w 14 6) (fld w 8 6) (bit w 7) (bit w 6) (fld w 4 2)) else
  if fld w 0 4 = 3 then some (.vfma (fld w 20 6) (fld w 14 6) (fld w 8 6) (bit w 7) (bit w 6) (fld w 4 2)) else
  if fld w 0 4 = 4 then some (.vfmin (fld w 20 6) (fld w 14 6) (fld w 8 6) (bit w 7) (bit w 6) (fld w 4 2)) else
  if fld w 0 4 = 5 then some (.vfmax (fld w 20 6) (fld w 14 6) (fld w 8 6) (bit w 7) (bit w 6) (fld w 4 2)) else
  if fld w 0 4 = 6 ∧ fld w 6 1 = 0 ∧ fld w 8 6 = 0 then some (.vfabs (fld w 20 6) (fld w 14 6) (bit w 7) (fld w 4 2)) else
  if fld w 0 4 = 7 ∧ fld w 6 1 = 0 ∧ fld w 8 6 = 0 then some (.vfneg (fld w 20 6) (fld w 14 6) (bit w 7) (fld w 4 2)) else
  none

/-- The words of major 0x13 in slots 1 and 3 (formats Q, I, E, C). -/
noncomputable def rows13M13 (w : Nat) : Option Instr :=
  if fld w 0 6 = 0 then some (.vand (fld w 20 6) (fld w 14 6) (fld w 8 6) (bit w 7) (bit w 6)) else
  if fld w 0 6 = 8 then some (.vor (fld w 20 6) (fld w 14 6) (fld w 8 6) (bit w 7) (bit w 6)) else
  if fld w 0 6 = 16 then some (.vxor (fld w 20 6) (fld w 14 6) (fld w 8 6) (bit w 7) (bit w 6)) else
  if fld w 0 6 = 24 then some (.vandn (fld w 20 6) (fld w 14 6) (fld w 8 6) (bit w 7) (bit w 6)) else
  if fld w 2 4 = 8 then some (.vshl (fld w 20 6) (fld w 14 6) (fld w 8 6) (bit w 7) (bit w 6) (fld w 0 2)) else
  if fld w 2 4 = 10 then some (.vshr (fld w 20 6) (fld w 14 6) (fld w 8 6) (bit w 7) (bit w 6) (fld w 0 2)) else
  if fld w 2 4 = 12 then some (.vsra (fld w 20 6) (fld w 14 6) (fld w 8 6) (bit w 7) (bit w 6) (fld w 0 2)) else
  if fld w 0 7 = 56 ∧ fld w 8 6 = 0 then some (.vnot (fld w 20 6) (fld w 14 6) (bit w 7)) else
  none

/-- The words of major 0x14 in slots 1 and 3 (formats Q, I, E, C). -/
noncomputable def rows13M14 (w : Nat) : Option Instr :=
  if fld w 23 3 = 0 then some (.vcmp (fld w 20 3) (fld w 14 6) (fld w 8 6) (bit w 7) (bit w 6) (fld w 3 3) (fld w 0 3)) else
  none

/-- The words of major 0x15 in slots 1 and 3 (formats Q, I, E, C). -/
noncomputable def rows13M15 (w : Nat) : Option Instr :=
  if fld w 0 8 = 0 then some (.mand (fld w 20 6) (fld w 14 6) (fld w 8 6)) else
  if fld w 0 8 = 1 then some (.mor (fld w 20 6) (fld w 14 6) (fld w 8 6)) else
  if fld w 0 8 = 2 then some (.mxor (fld w 20 6) (fld w 14 6) (fld w 8 6)) else
  if fld w 0 8 = 3 then some (.mandn (fld w 20 6) (fld w 14 6) (fld w 8 6)) else
  if fld w 0 14 = 4 then some (.mnot (fld w 20 6) (fld w 14 6)) else
  if fld w 0 20 = 5 then some (.mset (fld w 20 6)) else
  if fld w 0 20 = 6 then some (.mclr (fld w 20 6)) else
  if fld w 0 14 = 7 then some (.mcnt (fld w 20 6) (fld w 14 6)) else
  none

/-- The words of major 0x16 in slots 1 and 3 (formats Q, I, E, C). -/
noncomputable def rows13M16 (w : Nat) : Option Instr :=
  if fld w 2 4 = 0 then some (.vperm (fld w 20 6) (fld w 14 6) (fld w 8 6) (bit w 7) (bit w 6) (fld w 0 2)) else
  if fld w 0 6 = 6 then some (.vpermt (fld w 20 6) (fld w 14 6) (fld w 8 6) (bit w 7) (bit w 6)) else
  none

/-- The words of major 0x17 in slots 1 and 3 (formats Q, I, E, C). -/
noncomputable def rows13M17 (w : Nat) : Option Instr :=
  if fld w 3 1 = 0 ∧ fld w 6 1 = 0 ∧ fld w 11 3 = 0 then some (.vred (fld w 20 6) (fld w 14 6) (fld w 8 3) (bit w 7) (fld w 4 2) (fld w 0 3)) else
  none

/-- The words of major 0x18 in slots 1 and 3 (formats Q, I, E, C). -/
noncomputable def rows13M18 (w : Nat) : Option Instr :=
  if fld w 3 4 = 0 ∧ fld w 8 6 = 0 ∧ fld w 20 6 = 0 then some (.vmaxe (fld w 14 6) (bit w 7) (bit w 2) (fld w 0 2)) else
  none

/-- The words of major 0x19 in slots 1 and 3 (formats Q, I, E, C). -/
noncomputable def rows13M19 (w : Nat) : Option Instr :=
  if fld w 4 3 = 0 ∧ fld w 12 2 = 0 then some (.vcvt (fld w 20 6) (fld w 14 6) (fld w 8 4) (bit w 7) (fld w 0 4)) else
  none

/-- The words of major 0x1A in slots 1 and 3 (formats Q, I, E, C). -/
noncomputable def rows13M1A (w : Nat) : Option Instr :=
  if fld w 5 2 = 0 ∧ fld w 8 6 = 0 then some (.vqnt (fld w 20 6) (fld w 14 6) (bit w 7) (bit w 4) (fld w 0 4)) else
  none

/-- The words of major 0x1B in slots 1 and 3 (formats Q, I, E, C). -/
noncomputable def rows13M1B (w : Nat) : Option Instr :=
  some (.vcvtsr (fld w 20 6) (fld w 14 6) (fld w 8 6) (bit w 7) (bit w 6) (fld w 4 2) (fld w 0 4))

/-- The words of major 0x1C in slots 1 and 3 (formats Q, I, E, C). -/
noncomputable def rows13M1C (w : Nat) : Option Instr :=
  if fld w 0 6 = 0 then some (.vlmul (fld w 20 6) (fld w 14 6) (fld w 8 6) (bit w 7) (bit w 6)) else
  if fld w 0 6 = 1 then some (.vldiv (fld w 20 6) (fld w 14 6) (fld w 8 6) (bit w 7) (bit w 6)) else
  if fld w 0 7 = 2 ∧ fld w 8 6 = 0 then some (.vlsqrt (fld w 20 6) (fld w 14 6) (bit w 7)) else
  if fld w 0 7 = 3 ∧ fld w 8 6 = 0 then some (.vlneg (fld w 20 6) (fld w 14 6) (bit w 7)) else
  if fld w 0 7 = 4 ∧ fld w 8 6 = 0 then some (.vlabs (fld w 20 6) (fld w 14 6) (bit w 7)) else
  none

/-- The words of major 0x1D in slots 1 and 3 (formats Q, I, E, C). -/
noncomputable def rows13M1D (w : Nat) : Option Instr :=
  if fld w 0 6 = 0 then some (.vladd (fld w 20 6) (fld w 14 6) (fld w 8 6) (bit w 7) (bit w 6)) else
  if fld w 0 6 = 1 then some (.vlsub (fld w 20 6) (fld w 14 6) (fld w 8 6) (bit w 7) (bit w 6)) else
  none

/-- The words of major 0x1E in slots 1 and 3 (formats Q, I, E, C). -/
noncomputable def rows13M1E (w : Nat) : Option Instr :=
  if fld w 2 5 = 0 ∧ fld w 11 3 = 0 then some (.vcbx (fld w 20 6) (fld w 14 6) (fld w 8 3) (bit w 7) (fld w 0 2)) else
  none

/-- The words of major 0x1F in slots 1 and 3 (formats Q, I, E, C). -/
noncomputable def rows13M1F (w : Nat) : Option Instr :=
  if fld w 2 5 = 0 ∧ fld w 11 3 = 0 then some (.vcbn (fld w 20 6) (fld w 14 6) (fld w 8 3) (bit w 7) (fld w 0 2)) else
  none

/-- The words of major 0x20 in slots 1 and 3 (formats Q, I, E, C). -/
noncomputable def rows13M20 (w : Nat) : Option Instr :=
  if fld w 2 11 = 0 then some (.vrng (fld w 20 6) (fld w 14 6) (bit w 13) (fld w 0 2)) else
  none

/-- The words of major 0x21 in slots 1 and 3 (formats Q, I, E, C). -/
noncomputable def rows13M21 (w : Nat) : Option Instr :=
  if fld w 0 6 = 0 then some (.vtwr (fld w 20 6) (fld w 14 6) (fld w 8 6) (bit w 7) (bit w 6)) else
  if fld w 4 2 = 2 then some (.vtwrCvt (fld w 20 6) (fld w 14 6) (fld w 8 6) (bit w 7) (bit w 6) (fld w 0 4)) else
  none

/-- The words of major 0x22 in slots 1 and 3 (formats Q, I, E, C). -/
noncomputable def rows13M22 (w : Nat) : Option Instr :=
  if fld w 0 6 = 0 ∧ fld w 7 1 = 0 then some (.vtrd (fld w 20 6) (fld w 14 6) (fld w 8 6) (bit w 6)) else
  if fld w 4 2 = 2 ∧ fld w 7 1 = 0 then some (.vtrdCvt (fld w 20 6) (fld w 14 6) (fld w 8 6) (bit w 6) (fld w 0 4)) else
  none

/-- The words of major 0x23 in slots 1 and 3 (formats Q, I, E, C). -/
noncomputable def rows13M23 (w : Nat) : Option Instr :=
  if fld w 2 4 = 0 ∧ fld w 7 1 = 0 then some (.vtcr (fld w 20 6) (fld w 14 6) (fld w 8 6) (bit w 6) (fld w 0 2)) else
  if fld w 4 2 = 2 ∧ fld w 7 1 = 0 then some (.vtcrCvt (fld w 20 6) (fld w 14 6) (fld w 8 6) (bit w 6) (fld w 0 4)) else
  none

/-- The words of major 0x24 in slots 1 and 3 (formats Q, I, E, C). -/
noncomputable def rows13M24 (w : Nat) : Option Instr :=
  if fld w 4 3 = 0 then some (.vct8 (fld w 20 6) (fld w 14 6) (fld w 8 6) (bit w 7) (fld w 0 4)) else
  none

/-- The words of major 0x25 in slots 1 and 3 (formats Q, I, E, C). -/
noncomputable def rows13M25 (w : Nat) : Option Instr :=
  if fld w 4 2 = 0 ∧ fld w 7 1 = 0 ∧ fld w 17 3 = 0 then some (.vacrd (fld w 20 6) (fld w 14 3) (fld w 8 6) (bit w 6) (fld w 0 4)) else
  none

/-- The words of major 0x26 in slots 1 and 3 (formats Q, I, E, C). -/
noncomputable def rows13M26 (w : Nat) : Option Instr :=
  if fld w 2 5 = 0 ∧ fld w 8 6 = 0 then some (.vsplat (fld w 20 6) (fld w 14 6) (bit w 7) (fld w 0 2)) else
  if fld w 2 4 = 1 then some (.vext (fld w 20 6) (fld w 14 6) (fld w 8 6) (bit w 7) (bit w 6) (fld w 0 2)) else
  none

/-- The words of major 0x27 in slots 1 and 3 (formats Q, I, E, C). -/
noncomputable def rows13M27 (w : Nat) : Option Instr :=
  if fld w 3 3 = 0 then some (.vsel (fld w 20 6) (fld w 14 6) (fld w 8 6) (bit w 7) (bit w 6) (fld w 0 3)) else
  if fld w 0 7 = 8 ∧ fld w 8 6 = 0 then some (.vmov (fld w 20 6) (fld w 14 6) (bit w 7)) else
  none

/-- The words of major 0x28 in slots 1 and 3 (formats Q, I, E, C). -/
noncomputable def rows13M28 (w : Nat) : Option Instr :=
  if fld w 0 2 = 0 then some (.mcall (fld w 20 6) (fld w 14 6) (fld w 8 6) (fld w 2 6)) else
  none

/-- The words of major 0x29 in slots 1 and 3 (formats Q, I, E, C). -/
noncomputable def rows13M29 (w : Nat) : Option Instr :=
  if fld w 0 7 = 0 ∧ fld w 8 6 = 0 ∧ fld w 23 3 = 0 then some (.mpset (fld w 20 3) (fld w 14 6) (bit w 7)) else
  if fld w 0 14 = 1 ∧ fld w 17 3 = 0 then some (.mpget (fld w 20 6) (fld w 14 3)) else
  if fld w 0 7 = 2 ∧ fld w 8 6 = 0 ∧ fld w 23 3 = 0 then some (.mpadd (fld w 20 3) (fld w 14 6) (bit w 7)) else
  none

/-- The words of major 0x2A in slots 1 and 3 (formats Q, I, E, C). -/
noncomputable def rows13M2A (w : Nat) : Option Instr :=
  if fld w 0 7 = 0 ∧ fld w 8 6 = 0 ∧ fld w 20 6 = 0 then some (.pcwset (fld w 14 6) (bit w 7)) else
  if fld w 0 7 = 1 ∧ fld w 8 6 = 0 ∧ fld w 20 6 = 0 then some (.pcwmem (fld w 14 6) (bit w 7)) else
  none

/-- The words of major 0x2B in slots 1 and 3 (formats Q, I, E, C). -/
noncomputable def rows13M2B (w : Nat) : Option Instr :=
  if fld w 0 13 = 0 ∧ fld w 22 4 = 0 then some (.scld (fld w 20 2) (fld w 14 6) (bit w 13)) else
  if fld w 13 7 = 0 ∧ fld w 24 2 = 2 then some (.scldi (fld w 20 4) (fld w 0 13)) else
  none

/-- The words of major 0x2C in slots 1 and 3 (formats Q, I, E, C). -/
noncomputable def rows13M2C (w : Nat) : Option Instr :=
  if fld w 0 26 = 0 then some (.wswap) else
  none

/-- The words of major 0x2D in slots 1 and 3 (formats Q, I, E, C). -/
noncomputable def rows13M2D (w : Nat) : Option Instr :=
  if fld w 0 20 = 0 ∧ fld w 23 3 = 0 then some (.aclr (fld w 20 3)) else
  if fld w 0 26 = 1 then some (.aclrAll) else
  none

/-- The words of major 0x2E in slots 1 and 3 (formats Q, I, E, C). -/
noncomputable def rows13M2E (w : Nat) : Option Instr :=
  if fld w 6 2 = 0 then some (.acdrn (fld w 20 6) (fld w 14 6) (fld w 8 6) (bit w 5) (fld w 0 5)) else
  none

/-- The words of major 0x2F in slots 1 and 3 (formats Q, I, E, C). -/
noncomputable def rows13M2F (w : Nat) : Option Instr :=
  if fld w 0 7 = 0 ∧ fld w 8 6 = 0 ∧ fld w 20 6 = 0 then some (.gsset (fld w 14 6) (bit w 7)) else
  none

/-- The words of major 0x30 in slots 1 and 3 (formats Q, I, E, C). -/
noncomputable def rows13M30 (w : Nat) : Option Instr :=
  some (.fld (fld w 20 6) (fld w 14 6) (fld w 8 6) (fld w 5 3) (fld w 0 5))

/-- The words of major 0x31 in slots 1 and 3 (formats Q, I, E, C). -/
noncomputable def rows13M31 (w : Nat) : Option Instr :=
  some (.fst (fld w 20 6) (fld w 14 6) (fld w 8 6) (fld w 5 3) (fld w 0 5))

/-- The words of major 0x32 in slots 1 and 3 (formats Q, I, E, C). -/
noncomputable def rows13M32 (w : Nat) : Option Instr :=
  some (.fatom (fld w 20 6) (fld w 14 6) (fld w 8 6) (fld w 5 3) (fld w 0 5))

/-- The words of major 0x33 in slots 1 and 3 (formats Q, I, E, C). -/
noncomputable def rows13M33 (w : Nat) : Option Instr :=
  if fld w 5 3 = 0 then some (.copy (fld w 20 6) (fld w 14 6) (fld w 8 6) (fld w 0 5)) else
  none

/-- The words of major 0x34 in slots 1 and 3 (formats Q, I, E, C). -/
noncomputable def rows13M34 (w : Nat) : Option Instr :=
  if fld w 5 3 = 0 then some (.gath (fld w 20 6) (fld w 14 6) (fld w 8 6) (fld w 0 5)) else
  if fld w 5 3 = 1 then some (.scat (fld w 20 6) (fld w 14 6) (fld w 8 6) (fld w 0 5)) else
  none

/-- The words of major 0x35 in slots 1 and 3 (formats Q, I, E, C). -/
noncomputable def rows13M35 (w : Nat) : Option Instr :=
  if fld w 5 3 = 0 then some (.mcst (fld w 20 6) (fld w 14 6) (fld w 8 6) (fld w 0 5)) else
  none

/-- The words of major 0x36 in slots 1 and 3 (formats Q, I, E, C). -/
noncomputable def rows13M36 (w : Nat) : Option Instr :=
  if fld w 5 3 = 0 then some (.cgath (fld w 20 6) (fld w 14 6) (fld w 8 6) (fld w 0 5)) else
  none

/-- The words of major 0x37 in slots 1 and 3 (formats Q, I, E, C). -/
noncomputable def rows13M37 (w : Nat) : Option Instr :=
  if fld w 0 7 = 0 ∧ fld w 8 6 = 0 ∧ fld w 20 6 = 0 then some (.twany (fld w 14 6) (bit w 7)) else
  if fld w 0 7 = 1 ∧ fld w 8 6 = 0 ∧ fld w 20 6 = 0 then some (.twall (fld w 14 6) (bit w 7)) else
  if fld w 0 7 = 2 ∧ fld w 8 6 = 0 then some (.tfind (fld w 20 6) (fld w 14 6) (bit w 7)) else
  if fld w 0 7 = 3 ∧ fld w 8 6 = 0 ∧ fld w 20 6 = 0 then some (.tclr (fld w 14 6) (bit w 7)) else
  none

/-- The words of major 0x38 in slots 1 and 3 (formats Q, I, E, C). -/
noncomputable def rows13M38 (w : Nat) : Option Instr :=
  if fld w 0 5 = 0 then some (.drn (fld w 20 6) (fld w 14 6) (fld w 8 6) (fld w 5 3)) else
  none

/-- The words of major 0x39 in slots 1 and 3 (formats Q, I, E, C). -/
noncomputable def rows13M39 (w : Nat) : Option Instr :=
  if fld w 0 8 = 0 then some (.txb (fld w 20 6) (fld w 14 6) (fld w 8 6)) else
  if fld w 5 3 = 1 then some (.txc (fld w 20 6) (fld w 14 6) (fld w 8 6) (fld w 0 5)) else
  if fld w 0 8 = 64 then some (.txa (fld w 20 6) (fld w 14 6) (fld w 8 6)) else
  none

/-- The words of major 0x3A in slots 1 and 3 (formats Q, I, E, C). -/
noncomputable def rows13M3A (w : Nat) : Option Instr :=
  if fld w 5 3 = 0 then some (.spawn (fld w 20 6) (fld w 14 6) (fld w 8 6) (fld w 0 5)) else
  if fld w 5 3 = 1 then some (.take (fld w 20 6) (fld w 14 6) (fld w 8 6) (fld w 0 5)) else
  if fld w 5 3 = 2 then some (.join (fld w 20 6) (fld w 14 6) (fld w 8 6) (fld w 0 5)) else
  none

/-- The words of major 0x3B in slots 1 and 3 (formats Q, I, E, C). -/
noncomputable def rows13M3B (w : Nat) : Option Instr :=
  if fld w 0 8 = 0 then some (.ckpt (fld w 20 6) (fld w 14 6) (fld w 8 6)) else
  none

/-- The words of major 0x3C in slots 1 and 3 (formats Q, I, E, C). -/
noncomputable def rows13M3C (w : Nat) : Option Instr :=
  if fld w 5 3 = 0 then some (.cbld (fld w 20 6) (fld w 14 6) (fld w 8 6) (fld w 0 5)) else
  if fld w 5 3 = 1 then some (.cwtld (fld w 20 6) (fld w 14 6) (fld w 8 6) (fld w 0 5)) else
  if fld w 5 3 = 2 then some (.mpsld (fld w 20 6) (fld w 14 6) (fld w 8 6) (fld w 0 5)) else
  if fld w 5 3 = 3 then some (.gtld (fld w 20 6) (fld w 14 6) (fld w 8 6) (fld w 0 5)) else
  if fld w 5 3 = 4 then some (.latld (fld w 20 6) (fld w 14 6) (fld w 8 6) (fld w 0 5)) else
  if fld w 5 3 = 5 then some (.ovld (fld w 20 6) (fld w 14 6) (fld w 8 6) (fld w 0 5)) else
  none

/-- The words of major 0x3D in slots 1 and 3 (formats Q, I, E, C). -/
noncomputable def rows13M3D (w : Nat) : Option Instr :=
  if fld w 0 20 = 0 ∧ fld w 23 3 = 0 then some (.cbsel (fld w 20 3)) else
  none

/-- The word of a given major in slots 1 and 3 (formats Q, I, E, C); a zero word is the NOP form (R64). -/
noncomputable def rows13 (maj w : Nat) : Option Instr :=
  match maj with
  | 0 => if w = 0 then some .nop else none
  | 0x01 => rows13M01 w
  | 0x02 => rows13M02 w
  | 0x03 => rows13M03 w
  | 0x04 => rows13M04 w
  | 0x05 => rows13M05 w
  | 0x06 => rows13M06 w
  | 0x07 => rows13M07 w
  | 0x08 => rows13M08 w
  | 0x09 => rows13M09 w
  | 0x0A => rows13M0A w
  | 0x0B => rows13M0B w
  | 0x0C => rows13M0C w
  | 0x0D => rows13M0D w
  | 0x10 => rows13M10 w
  | 0x11 => rows13M11 w
  | 0x12 => rows13M12 w
  | 0x13 => rows13M13 w
  | 0x14 => rows13M14 w
  | 0x15 => rows13M15 w
  | 0x16 => rows13M16 w
  | 0x17 => rows13M17 w
  | 0x18 => rows13M18 w
  | 0x19 => rows13M19 w
  | 0x1A => rows13M1A w
  | 0x1B => rows13M1B w
  | 0x1C => rows13M1C w
  | 0x1D => rows13M1D w
  | 0x1E => rows13M1E w
  | 0x1F => rows13M1F w
  | 0x20 => rows13M20 w
  | 0x21 => rows13M21 w
  | 0x22 => rows13M22 w
  | 0x23 => rows13M23 w
  | 0x24 => rows13M24 w
  | 0x25 => rows13M25 w
  | 0x26 => rows13M26 w
  | 0x27 => rows13M27 w
  | 0x28 => rows13M28 w
  | 0x29 => rows13M29 w
  | 0x2A => rows13M2A w
  | 0x2B => rows13M2B w
  | 0x2C => rows13M2C w
  | 0x2D => rows13M2D w
  | 0x2E => rows13M2E w
  | 0x2F => rows13M2F w
  | 0x30 => rows13M30 w
  | 0x31 => rows13M31 w
  | 0x32 => rows13M32 w
  | 0x33 => rows13M33 w
  | 0x34 => rows13M34 w
  | 0x35 => rows13M35 w
  | 0x36 => rows13M36 w
  | 0x37 => rows13M37 w
  | 0x38 => rows13M38 w
  | 0x39 => rows13M39 w
  | 0x3A => rows13M3A w
  | 0x3B => rows13M3B w
  | 0x3C => rows13M3C w
  | 0x3D => rows13M3D w
  | _ => none

/-- The words of major 0x01 in slot 2 (format M). -/
noncomputable def rows2M01 (w : Nat) : Option Instr :=
  if fld w 13 1 = 0 then some (.lds (bit w 25) (fld w 20 5) (bit w 19) (fld w 14 5) (fld w 2 11) (fld w 0 2)) else
  none

/-- The words of major 0x02 in slot 2 (format M). -/
noncomputable def rows2M02 (w : Nat) : Option Instr :=
  if fld w 25 1 = 0 then some (.sts (fld w 20 5) (bit w 19) (fld w 14 5) (bit w 13) (fld w 2 11) (fld w 0 2)) else
  none

/-- The words of major 0x03 in slot 2 (format M). -/
noncomputable def rows2M03 (w : Nat) : Option Instr :=
  if fld w 13 1 = 0 then some (.ldv (fld w 20 6) (bit w 19) (fld w 14 5) (fld w 0 13)) else
  none

/-- The words of major 0x04 in slot 2 (format M). -/
noncomputable def rows2M04 (w : Nat) : Option Instr :=
  some (.stv (fld w 20 6) (bit w 19) (fld w 14 5) (bit w 13) (fld w 0 13))

/-- The words of major 0x05 in slot 2 (format M). -/
noncomputable def rows2M05 (w : Nat) : Option Instr :=
  if fld w 13 1 = 0 ∧ fld w 24 2 = 0 then some (.ldt (fld w 20 4) (bit w 19) (fld w 14 5) (fld w 7 6) (fld w 0 7)) else
  none

/-- The words of major 0x06 in slot 2 (format M). -/
noncomputable def rows2M06 (w : Nat) : Option Instr :=
  if fld w 13 1 = 0 ∧ fld w 24 2 = 0 then some (.stt (fld w 20 4) (bit w 19) (fld w 14 5) (fld w 7 6) (fld w 0 7)) else
  none

/-- The words of major 0x07 in slot 2 (format M). -/
noncomputable def rows2M07 (w : Nat) : Option Instr :=
  if fld w 25 1 = 0 then some (.natom (fld w 20 5) (bit w 19) (fld w 14 5) (bit w 13) (fld w 5 8) (bit w 4) (fld w 0 4)) else
  none

/-- The words of major 0x08 in slot 2 (format M). -/
noncomputable def rows2M08 (w : Nat) : Option Instr :=
  if fld w 0 5 = 0 ∧ fld w 13 1 = 0 ∧ fld w 25 1 = 0 then some (.ncas (fld w 20 5) (bit w 19) (fld w 14 5) (fld w 5 8)) else
  none

/-- The word of a given major in slot 2 (format M); a zero word is the NOP form (R64). -/
noncomputable def rows2 (maj w : Nat) : Option Instr :=
  match maj with
  | 0 => if w = 0 then some .nop else none
  | 0x01 => rows2M01 w
  | 0x02 => rows2M02 w
  | 0x03 => rows2M03 w
  | 0x04 => rows2M04 w
  | 0x05 => rows2M05 w
  | 0x06 => rows2M06 w
  | 0x07 => rows2M07 w
  | 0x08 => rows2M08 w
  | _ => none

/-- The majors R87 reserves in each class; slot 1 also reserves 0x28 and above. -/
def majorReserved (slot maj : Nat) : Bool :=
  match slot with
  | 0 => !(decide (maj ≤ 0x0D) || decide (0x10 ≤ maj ∧ maj ≤ 0x1F))
  | 1 => decide (maj = 0x0E ∨ maj = 0x0F ∨ 0x28 ≤ maj)
  | 2 => decide (9 ≤ maj)
  | _ => decide (maj = 0x0E ∨ maj = 0x0F ∨ 0x3E ≤ maj)

/-- The slot class of a slot position. -/
def slotClass (slot : Nat) : SlotClass :=
  if slot = 0 then .slot0 else if slot = 2 then .slot2 else .slot13

/-- The instruction of the 32-bit word w in slot position slot (R65, R67, R87). For slot 0, w is the slot-0 body
with the form field [31:30] clear. -/
noncomputable def decodeSlot (slot w : Nat) : Except DecodeError Instr :=
  let maj := if slot = 0 then fld w 24 6 else fld w 26 6
  if majorReserved slot maj = true ∨ slot = 0 ∧ fld w 30 2 ≠ 0 ∨ 2 ^ 32 ≤ w then .error .reservedMajor
  else
    match (match slotClass slot with
      | .slot0 => rows0 maj w
      | .slot13 => rows13 maj w
      | .slot2 => rows2 maj w) with
    | none => .error .noEncoding
    | some i => if i.wf then .ok i else .error .illFormed

/-- The micro-operation of a 128-bit micro-word w (R220, R221): the fields its row does not list are 0. -/
def microRow (uop w : Nat) : Option Instr :=
  match uop with
  | 0x00 => if fld w 6 122 = 0 then some (.uUnop) else none
  | 0x01 => if fld w 12 13 = 0 ∧ fld w 27 37 = 0 ∧ fld w 65 63 = 0 then some (.uWld (fld w 6 3) (fld w 9 3) (bit w 25) (bit w 26) (bit w 64)) else none
  | 0x02 => if fld w 6 122 = 0 then some (.uWsw) else none
  | 0x03 => if fld w 6 19 = 0 ∧ fld w 26 102 = 0 then some (.uWz (bit w 25)) else none
  | 0x04 => if fld w 9 3 = 0 ∧ fld w 25 7 = 0 ∧ fld w 64 64 = 0 then some (.uStrm (fld w 12 3) (fld w 15 5) (fld w 20 5) (fld w 6 3) (fld w 32 32)) else none
  | 0x05 => if fld w 9 3 = 0 ∧ fld w 25 7 = 0 ∧ fld w 64 64 = 0 then some (.uStrmz (fld w 12 3) (fld w 15 5) (fld w 20 5) (fld w 6 3) (fld w 32 32)) else none
  | 0x06 => if fld w 6 6 = 0 ∧ fld w 15 113 = 0 then some (.uAclr (fld w 12 3)) else none
  | 0x07 => if fld w 9 3 = 0 ∧ fld w 25 103 = 0 then some (.uDrn (fld w 12 3) (fld w 15 5) (fld w 20 5) (fld w 6 3)) else none
  | 0x08 => if fld w 9 3 = 0 ∧ fld w 25 103 = 0 then some (.uAst (fld w 12 3) (fld w 15 5) (fld w 20 5) (fld w 6 3)) else none
  | 0x09 => if fld w 9 3 = 0 ∧ fld w 25 103 = 0 then some (.uAaddm (fld w 12 3) (fld w 15 5) (fld w 20 5) (fld w 6 3)) else none
  | 0x0A => if fld w 6 3 = 0 ∧ fld w 25 103 = 0 then some (.uAadd (fld w 12 3) (fld w 15 5) (fld w 20 5) (fld w 9 3)) else none
  | 0x0B => if fld w 9 55 = 0 ∧ fld w 80 48 = 0 then some (.uAdv (fld w 6 3) (fld w 64 16)) else none
  | 0x0C => if fld w 9 55 = 0 ∧ fld w 80 48 = 0 then some (.uAdvs (fld w 6 3) (fld w 64 16)) else none
  | 0x0D => if fld w 12 116 = 0 then some (.uMovp (fld w 6 3) (fld w 9 3)) else none
  | 0x0E => if fld w 6 3 = 0 ∧ fld w 12 116 = 0 then some (.uIdxl (fld w 9 3)) else none
  | 0x0F => if fld w 6 58 = 0 ∧ fld w 80 48 = 0 then some (.uIdxa (fld w 64 16)) else none
  | 0x10 => if fld w 6 58 = 0 ∧ fld w 80 48 = 0 then some (.uMems (fld w 64 16)) else none
  | 0x11 => if fld w 6 58 = 0 ∧ fld w 80 48 = 0 then some (.uMema (fld w 64 16)) else none
  | 0x12 => if fld w 6 6 = 0 ∧ fld w 14 50 = 0 ∧ fld w 80 48 = 0 then some (.uLset (fld w 12 2) (fld w 64 16)) else none
  | 0x13 => if fld w 6 6 = 0 ∧ fld w 14 66 = 0 ∧ fld w 90 38 = 0 then some (.uLdec (fld w 12 2) (fld w 80 10)) else none
  | 0x14 => if fld w 6 74 = 0 ∧ fld w 90 38 = 0 then some (.uJmp (fld w 80 10)) else none
  | 0x15 => if fld w 6 58 = 0 ∧ fld w 80 48 = 0 then some (.uWait (fld w 64 16)) else none
  | 0x16 => if fld w 6 122 = 0 then some (.uSync) else none
  | 0x17 => if fld w 6 122 = 0 then some (.uEnd) else none
  | _ => none

/-- Decoding a micro-word (R220, R221). -/
def decodeMicro (w : Nat) : Except DecodeError Instr :=
  if 0x18 ≤ fld w 0 6 ∨ 2 ^ 128 ≤ w then .error .reservedMajor
  else
    match microRow (fld w 0 6) w with
    | none => .error .noEncoding
    | some i => if i.wf then .ok i else .error .illFormed

/-- The slot position a constructor's word is written for: 0, 1 (slots 1 and 3), 2, or 3 (slot 3 only, majors from
0x28). Micro-operations and events stand in no slot. -/
def Instr.slotOf : Instr → Option Nat
  | .bundleIssue _ => none
  | .compactGroup2Issue _ => none
  | .resultLanding _ => none
  | .slot2Perform _ => none
  | .tbpwrTransitionStart _ _ => none
  | .tbpwrTransitionEnd _ _ => none
  | .callEntryStart _ => none
  | .aclrEntryExecute _ => none
  | .acdrnRowWrite _ => none
  | .acdrnTagSet _ => none
  | .microWaitExpiry _ => none
  | .microSyncResume _ => none
  | .accumulatorRowLanding _ => none
  | .weightBankLoadDone _ => none
  | .mcallCompletion _ => none
  | .commandStart _ _ => none
  | .commandCompletion _ _ => none
  | .farAccessArrival _ _ => none
  | .postedWriteDrain _ => none
  | .multicastRowLanding _ _ => none
  | .tableLoadLanding _ => none
  | .collectiveContributionLanding _ _ => none
  | .checkpointComplete _ => none
  | .barrierRelease _ => none
  | .trapTake _ => none
  | .lockstepCoreStop _ => none
  | .corectlResume _ => none
  | .corectlHenter _ _ => none
  | .coreResume _ => none
  | .preemption _ => none
  | .kernelResume _ => none
  | .priorityAging _ => none
  | .budgetPeriodStart _ => none
  | .qnotifyWrite _ _ => none
  | .ctxenSet _ => none
  | .ctxenClear _ => none
  | .contextDeactivate _ => none
  | .ctxstWrite _ => none
  | .ctxseedWrite _ _ => none
  | .dispatchBegin _ => none
  | .kernelStart _ => none
  | .kernelEnd _ => none
  | .tlbinvWrite _ => none
  | .tlbInvalidationDone => none
  | .pageWalk _ _ => none
  | .correctedError _ _ => none
  | .scrubRow _ _ => none
  | .uncorrectableError _ _ _ _ => none
  | .unownedError _ _ _ _ => none
  | .clusterClearDone _ => none
  | .uestatWrite _ _ => none
  | .ckstWrite _ _ => none
  | .retireCore _ _ => none
  | .retireRow _ _ _ => none
  | .retireCluster _ => none
  | .repairComplete => none
  | .frameReceive _ => none
  | .frameAckReceive _ _ _ => none
  | .frameResend _ => none
  | .pcfgWrite _ _ _ => none
  | .portRetrain _ => none
  | .ridarFlitFailure => none
  | .mgmtRequest _ _ _ _ _ => none
  | .msemAcquire _ _ _ => none
  | .msemRelease _ _ => none
  | .leaseExpiry _ => none
  | .mailboxWriteFlashBlock _ _ => none
  | .mailboxReadFlashBlock _ _ => none
  | .mailboxReadMeasurement _ _ => none
  | .mailboxAdvanceCounter _ => none
  | .powerOnBoot => none
  | .getMeasurements _ => none
  | .deviceReset => none
  | .thermalAlarmBegin => none
  | .thermalAlarmEnd => none
  | .supplyTrip => none
  | .governorClock => none
  | .glimitWrite _ _ _ => none
  | .irouteWrite _ _ => none
  | .hartMemoryAccess _ _ => none
  | .hartRegisterAccessFault _ _ => none
  | .registerWrite _ _ _ => none
  | .pageWalkCompletion _ _ => none
  | .storageDmaAccess _ _ _ => none
  | .uUnop => none
  | .uWld _ _ _ _ _ => none
  | .uWsw => none
  | .uWz _ => none
  | .uStrm _ _ _ _ _ => none
  | .uStrmz _ _ _ _ _ => none
  | .uAclr _ => none
  | .uDrn _ _ _ _ => none
  | .uAst _ _ _ _ => none
  | .uAaddm _ _ _ _ => none
  | .uAadd _ _ _ _ => none
  | .uAdv _ _ => none
  | .uAdvs _ _ => none
  | .uMovp _ _ => none
  | .uIdxl _ => none
  | .uIdxa _ => none
  | .uMems _ => none
  | .uMema _ => none
  | .uLset _ _ => none
  | .uLdec _ _ => none
  | .uJmp _ => none
  | .uWait _ => none
  | .uSync => none
  | .uEnd => none
  | .nop => some 0
  | .add _ _ _ _ _ => some 0
  | .addQ _ _ _ _ _ => some 1
  | .sub _ _ _ _ _ => some 0
  | .subQ _ _ _ _ _ => some 1
  | .and _ _ _ _ _ => some 0
  | .andQ _ _ _ _ _ => some 1
  | .or _ _ _ _ _ => some 0
  | .orQ _ _ _ _ _ => some 1
  | .xor _ _ _ _ _ => some 0
  | .xorQ _ _ _ _ _ => some 1
  | .andn _ _ _ _ _ => some 0
  | .andnQ _ _ _ _ _ => some 1
  | .shl _ _ _ _ _ => some 0
  | .shlQ _ _ _ _ _ => some 1
  | .shr _ _ _ _ _ => some 0
  | .shrQ _ _ _ _ _ => some 1
  | .sra _ _ _ _ _ => some 0
  | .sraQ _ _ _ _ _ => some 1
  | .min _ _ _ _ _ => some 0
  | .minQ _ _ _ _ _ => some 1
  | .max _ _ _ _ _ => some 0
  | .maxQ _ _ _ _ _ => some 1
  | .minu _ _ _ _ _ => some 0
  | .minuQ _ _ _ _ _ => some 1
  | .maxu _ _ _ _ _ => some 0
  | .maxuQ _ _ _ _ _ => some 1
  | .addss _ _ _ _ _ => some 0
  | .addssQ _ _ _ _ _ => some 1
  | .subss _ _ _ _ _ => some 0
  | .subssQ _ _ _ _ _ => some 1
  | .mov _ _ _ => some 0
  | .movQ _ _ _ => some 1
  | .addi _ _ _ _ => some 0
  | .addiQ _ _ _ _ => some 1
  | .lui _ _ _ => some 0
  | .luiQ _ _ _ => some 1
  | .mul _ _ _ _ _ => some 0
  | .mulQ _ _ _ _ _ => some 1
  | .mulh _ _ _ _ _ => some 0
  | .mulhQ _ _ _ _ _ => some 1
  | .mulhu _ _ _ _ _ => some 0
  | .mulhuQ _ _ _ _ _ => some 1
  | .fadd _ _ _ _ _ _ => some 0
  | .faddQ _ _ _ _ _ _ => some 1
  | .fsub _ _ _ _ _ _ => some 0
  | .fsubQ _ _ _ _ _ _ => some 1
  | .fmul _ _ _ _ _ _ => some 0
  | .fmulQ _ _ _ _ _ _ => some 1
  | .fdiv _ _ _ _ _ _ => some 0
  | .fdivQ _ _ _ _ _ _ => some 1
  | .fsqrt _ _ _ _ => some 0
  | .fsqrtQ _ _ _ _ => some 1
  | .fmin _ _ _ _ _ => some 0
  | .fminQ _ _ _ _ _ => some 1
  | .fmax _ _ _ _ _ => some 0
  | .fmaxQ _ _ _ _ _ => some 1
  | .fabs _ _ _ => some 0
  | .fabsQ _ _ _ => some 1
  | .fneg _ _ _ => some 0
  | .fnegQ _ _ _ => some 1
  | .feq _ _ _ _ _ => some 0
  | .feqQ _ _ _ _ _ => some 1
  | .flt _ _ _ _ _ => some 0
  | .fltQ _ _ _ _ _ => some 1
  | .fle _ _ _ _ _ => some 0
  | .fleQ _ _ _ _ _ => some 1
  | .funord _ _ _ _ _ => some 0
  | .funordQ _ _ _ _ _ => some 1
  | .ceq _ _ _ _ _ => some 0
  | .ceqQ _ _ _ _ _ => some 1
  | .cne _ _ _ _ _ => some 0
  | .cneQ _ _ _ _ _ => some 1
  | .clt _ _ _ _ _ => some 0
  | .cltQ _ _ _ _ _ => some 1
  | .cle _ _ _ _ _ => some 0
  | .cleQ _ _ _ _ _ => some 1
  | .cltu _ _ _ _ _ => some 0
  | .cltuQ _ _ _ _ _ => some 1
  | .cleu _ _ _ _ _ => some 0
  | .cleuQ _ _ _ _ _ => some 1
  | .ceqi _ _ _ _ => some 0
  | .ceqiQ _ _ _ _ => some 1
  | .cnei _ _ _ _ => some 0
  | .cneiQ _ _ _ _ => some 1
  | .clti _ _ _ _ => some 0
  | .cltiQ _ _ _ _ => some 1
  | .cltui _ _ _ _ => some 0
  | .cltuiQ _ _ _ _ => some 1
  | .sel _ _ _ _ _ _ => some 0
  | .selQ _ _ _ _ _ _ => some 1
  | .clz _ _ _ => some 0
  | .clzQ _ _ _ => some 1
  | .ctz _ _ _ => some 0
  | .ctzQ _ _ _ => some 1
  | .popc _ _ _ => some 0
  | .popcQ _ _ _ => some 1
  | .shli _ _ _ _ _ => some 0
  | .shliQ _ _ _ _ _ => some 1
  | .shri _ _ _ _ _ => some 0
  | .shriQ _ _ _ _ _ => some 1
  | .srai _ _ _ _ _ => some 0
  | .sraiQ _ _ _ _ _ => some 1
  | .pand _ _ _ => some 0
  | .pandQ _ _ _ => some 1
  | .por _ _ _ => some 0
  | .porQ _ _ _ => some 1
  | .pxor _ _ _ => some 0
  | .pxorQ _ _ _ => some 1
  | .pandn _ _ _ => some 0
  | .pandnQ _ _ _ => some 1
  | .pnot _ _ => some 0
  | .pnotQ _ _ => some 1
  | .pset _ => some 0
  | .psetQ _ => some 1
  | .pclr _ => some 0
  | .pclrQ _ => some 1
  | .cvtif _ _ _ _ => some 0
  | .cvtifQ _ _ _ _ => some 1
  | .cvtuf _ _ _ _ => some 0
  | .cvtufQ _ _ _ _ => some 1
  | .cvtwf _ _ _ _ => some 0
  | .cvtwfQ _ _ _ _ => some 1
  | .cvtfi _ _ _ _ => some 0
  | .cvtfiQ _ _ _ _ => some 1
  | .cvtfu _ _ _ _ => some 0
  | .cvtfuQ _ _ _ _ => some 1
  | .cvtfw _ _ _ _ => some 0
  | .cvtfwQ _ _ _ _ => some 1
  | .cvtfwu _ _ _ _ => some 0
  | .cvtfwuQ _ _ _ _ => some 1
  | .addx _ _ _ _ _ _ => some 0
  | .addxQ _ _ _ _ _ _ => some 1
  | .subx _ _ _ _ _ _ => some 0
  | .subxQ _ _ _ _ _ _ => some 1
  | .brt _ _ => some 0
  | .brf _ _ => some 0
  | .jump _ => some 0
  | .call _ => some 0
  | .callt _ _ => some 0
  | .callf _ _ => some 0
  | .jr _ _ => some 0
  | .jrl _ _ _ => some 0
  | .brsw _ => some 0
  | .brswt _ _ => some 0
  | .brswf _ _ => some 0
  | .loop _ _ => some 0
  | .loopQ _ _ _ => some 0
  | .lpop => some 0
  | .lcnt _ => some 0
  | .lclr => some 0
  | .pblk _ _ _ => some 0
  | .qcnt _ _ => some 0
  | .qcntV _ _ => some 0
  | .qcntVn _ _ => some 0
  | .qclr _ => some 0
  | .qclrV _ => some 0
  | .qclrVn _ => some 0
  | .pfork _ _ => some 0
  | .pjoin _ => some 0
  | .sempost _ _ => some 0
  | .semwait _ _ => some 0
  | .barw _ _ => some 0
  | .rdcyc _ => some 0
  | .rdfrz _ => some 0
  | .rdid _ => some 0
  | .rdpix _ => some 0
  | .crget _ _ => some 0
  | .crset _ _ _ => some 0
  | .ifence => some 0
  | .trap _ => some 0
  | .eret => some 0
  | .halt => some 0
  | .vadd _ _ _ _ _ _ => some 1
  | .vsub _ _ _ _ _ _ => some 1
  | .vmul _ _ _ _ _ _ => some 1
  | .vmin _ _ _ _ _ _ => some 1
  | .vmax _ _ _ _ _ _ => some 1
  | .vadds _ _ _ _ _ _ => some 1
  | .vsubs _ _ _ _ _ _ => some 1
  | .vmulhi _ _ _ _ _ _ => some 1
  | .vsplati _ _ _ => some 1
  | .vaddi _ _ _ _ _ => some 1
  | .vshli _ _ _ _ _ => some 1
  | .vsrai _ _ _ _ _ => some 1
  | .vfadd _ _ _ _ _ _ => some 1
  | .vfsub _ _ _ _ _ _ => some 1
  | .vfmul _ _ _ _ _ _ => some 1
  | .vfma _ _ _ _ _ _ => some 1
  | .vfmin _ _ _ _ _ _ => some 1
  | .vfmax _ _ _ _ _ _ => some 1
  | .vfabs _ _ _ _ => some 1
  | .vfneg _ _ _ _ => some 1
  | .vand _ _ _ _ _ => some 1
  | .vor _ _ _ _ _ => some 1
  | .vxor _ _ _ _ _ => some 1
  | .vandn _ _ _ _ _ => some 1
  | .vshl _ _ _ _ _ _ => some 1
  | .vshr _ _ _ _ _ _ => some 1
  | .vsra _ _ _ _ _ _ => some 1
  | .vnot _ _ _ => some 1
  | .vcmp _ _ _ _ _ _ _ => some 1
  | .mand _ _ _ => some 1
  | .mor _ _ _ => some 1
  | .mxor _ _ _ => some 1
  | .mandn _ _ _ => some 1
  | .mnot _ _ => some 1
  | .mset _ => some 1
  | .mclr _ => some 1
  | .mcnt _ _ => some 1
  | .vperm _ _ _ _ _ _ => some 1
  | .vpermt _ _ _ _ _ => some 1
  | .vred _ _ _ _ _ _ => some 1
  | .vmaxe _ _ _ _ => some 1
  | .vcvt _ _ _ _ _ => some 1
  | .vqnt _ _ _ _ _ => some 1
  | .vcvtsr _ _ _ _ _ _ _ => some 1
  | .vlmul _ _ _ _ _ => some 1
  | .vldiv _ _ _ _ _ => some 1
  | .vlsqrt _ _ _ => some 1
  | .vlneg _ _ _ => some 1
  | .vlabs _ _ _ => some 1
  | .vladd _ _ _ _ _ => some 1
  | .vlsub _ _ _ _ _ => some 1
  | .vcbx _ _ _ _ _ => some 1
  | .vcbn _ _ _ _ _ => some 1
  | .vrng _ _ _ _ => some 1
  | .vtwr _ _ _ _ _ => some 1
  | .vtwrCvt _ _ _ _ _ _ => some 1
  | .vtrd _ _ _ _ => some 1
  | .vtrdCvt _ _ _ _ _ => some 1
  | .vtcr _ _ _ _ _ => some 1
  | .vtcrCvt _ _ _ _ _ => some 1
  | .vct8 _ _ _ _ _ => some 1
  | .vacrd _ _ _ _ _ => some 1
  | .vsplat _ _ _ _ => some 1
  | .vext _ _ _ _ _ _ => some 1
  | .vsel _ _ _ _ _ _ => some 1
  | .vmov _ _ _ => some 1
  | .lds _ _ _ _ _ _ => some 2
  | .sts _ _ _ _ _ _ => some 2
  | .ldv _ _ _ _ => some 2
  | .stv _ _ _ _ _ => some 2
  | .ldt _ _ _ _ _ => some 2
  | .stt _ _ _ _ _ => some 2
  | .natom _ _ _ _ _ _ _ => some 2
  | .ncas _ _ _ _ => some 2
  | .mcall _ _ _ _ => some 3
  | .mpset _ _ _ => some 3
  | .mpget _ _ => some 3
  | .mpadd _ _ _ => some 3
  | .pcwset _ _ => some 3
  | .pcwmem _ _ => some 3
  | .scld _ _ _ => some 3
  | .scldi _ _ => some 3
  | .wswap => some 3
  | .aclr _ => some 3
  | .aclrAll => some 3
  | .acdrn _ _ _ _ _ => some 3
  | .gsset _ _ => some 3
  | .fld _ _ _ _ _ => some 3
  | .fst _ _ _ _ _ => some 3
  | .fatom _ _ _ _ _ => some 3
  | .copy _ _ _ _ => some 3
  | .gath _ _ _ _ => some 3
  | .scat _ _ _ _ => some 3
  | .mcst _ _ _ _ => some 3
  | .cgath _ _ _ _ => some 3
  | .twany _ _ => some 3
  | .twall _ _ => some 3
  | .tfind _ _ _ => some 3
  | .tclr _ _ => some 3
  | .drn _ _ _ _ => some 3
  | .txb _ _ _ => some 3
  | .txc _ _ _ _ => some 3
  | .txa _ _ _ => some 3
  | .spawn _ _ _ _ => some 3
  | .take _ _ _ _ => some 3
  | .join _ _ _ _ => some 3
  | .ckpt _ _ _ => some 3
  | .cbld _ _ _ _ => some 3
  | .cwtld _ _ _ _ => some 3
  | .mpsld _ _ _ _ => some 3
  | .gtld _ _ _ _ => some 3
  | .latld _ _ _ _ => some 3
  | .ovld _ _ _ _ => some 3
  | .cbsel _ => some 3

/-- A word: the fixed bits of its row and its fields, each a value and the position of its lowest bit. -/
def putFields : Nat → List (Nat × Nat) → Nat
  | acc, [] => acc
  | acc, (v, lo) :: r => putFields (acc + v * 2 ^ lo) r

/-- The words of an instruction, 32 bits each: one for a slot word, four (lowest first) for a micro-word, none for an
event. -/
def encode : Instr → List Nat
  | .bundleIssue _ => []
  | .compactGroup2Issue _ => []
  | .resultLanding _ => []
  | .slot2Perform _ => []
  | .tbpwrTransitionStart _ _ => []
  | .tbpwrTransitionEnd _ _ => []
  | .callEntryStart _ => []
  | .aclrEntryExecute _ => []
  | .acdrnRowWrite _ => []
  | .acdrnTagSet _ => []
  | .microWaitExpiry _ => []
  | .microSyncResume _ => []
  | .accumulatorRowLanding _ => []
  | .weightBankLoadDone _ => []
  | .mcallCompletion _ => []
  | .commandStart _ _ => []
  | .commandCompletion _ _ => []
  | .farAccessArrival _ _ => []
  | .postedWriteDrain _ => []
  | .multicastRowLanding _ _ => []
  | .tableLoadLanding _ => []
  | .collectiveContributionLanding _ _ => []
  | .checkpointComplete _ => []
  | .barrierRelease _ => []
  | .trapTake _ => []
  | .lockstepCoreStop _ => []
  | .corectlResume _ => []
  | .corectlHenter _ _ => []
  | .coreResume _ => []
  | .preemption _ => []
  | .kernelResume _ => []
  | .priorityAging _ => []
  | .budgetPeriodStart _ => []
  | .qnotifyWrite _ _ => []
  | .ctxenSet _ => []
  | .ctxenClear _ => []
  | .contextDeactivate _ => []
  | .ctxstWrite _ => []
  | .ctxseedWrite _ _ => []
  | .dispatchBegin _ => []
  | .kernelStart _ => []
  | .kernelEnd _ => []
  | .tlbinvWrite _ => []
  | .tlbInvalidationDone => []
  | .pageWalk _ _ => []
  | .correctedError _ _ => []
  | .scrubRow _ _ => []
  | .uncorrectableError _ _ _ _ => []
  | .unownedError _ _ _ _ => []
  | .clusterClearDone _ => []
  | .uestatWrite _ _ => []
  | .ckstWrite _ _ => []
  | .retireCore _ _ => []
  | .retireRow _ _ _ => []
  | .retireCluster _ => []
  | .repairComplete => []
  | .frameReceive _ => []
  | .frameAckReceive _ _ _ => []
  | .frameResend _ => []
  | .pcfgWrite _ _ _ => []
  | .portRetrain _ => []
  | .ridarFlitFailure => []
  | .mgmtRequest _ _ _ _ _ => []
  | .msemAcquire _ _ _ => []
  | .msemRelease _ _ => []
  | .leaseExpiry _ => []
  | .mailboxWriteFlashBlock _ _ => []
  | .mailboxReadFlashBlock _ _ => []
  | .mailboxReadMeasurement _ _ => []
  | .mailboxAdvanceCounter _ => []
  | .powerOnBoot => []
  | .getMeasurements _ => []
  | .deviceReset => []
  | .thermalAlarmBegin => []
  | .thermalAlarmEnd => []
  | .supplyTrip => []
  | .governorClock => []
  | .glimitWrite _ _ _ => []
  | .irouteWrite _ _ => []
  | .hartMemoryAccess _ _ => []
  | .hartRegisterAccessFault _ _ => []
  | .registerWrite _ _ _ => []
  | .pageWalkCompletion _ _ => []
  | .storageDmaAccess _ _ _ => []
  | .uUnop => [putFields 0 [], putFields 0 [], putFields 0 [], putFields 0 []]
  | .uWld pa pb bk tr h => [putFields 1 [(pa, 6), (pb, 9), (b2n bk, 25), (b2n tr, 26)], putFields 0 [], putFields 0 [(b2n h, 0)], putFields 0 []]
  | .uWsw => [putFields 2 [], putFields 0 [], putFields 0 [], putFields 0 []]
  | .uWz bk => [putFields 3 [(b2n bk, 25)], putFields 0 [], putFields 0 [], putFields 0 []]
  | .uStrm acc row cnt pa osel => [putFields 4 [(acc, 12), (row, 15), (cnt, 20), (pa, 6)], putFields 0 [(osel, 0)], putFields 0 [], putFields 0 []]
  | .uStrmz acc row cnt pa osel => [putFields 5 [(acc, 12), (row, 15), (cnt, 20), (pa, 6)], putFields 0 [(osel, 0)], putFields 0 [], putFields 0 []]
  | .uAclr acc => [putFields 6 [(acc, 12)], putFields 0 [], putFields 0 [], putFields 0 []]
  | .uDrn acc row cnt pa => [putFields 7 [(acc, 12), (row, 15), (cnt, 20), (pa, 6)], putFields 0 [], putFields 0 [], putFields 0 []]
  | .uAst acc row cnt pa => [putFields 8 [(acc, 12), (row, 15), (cnt, 20), (pa, 6)], putFields 0 [], putFields 0 [], putFields 0 []]
  | .uAaddm acc row cnt pa => [putFields 9 [(acc, 12), (row, 15), (cnt, 20), (pa, 6)], putFields 0 [], putFields 0 [], putFields 0 []]
  | .uAadd acc row cnt pb => [putFields 10 [(acc, 12), (row, 15), (cnt, 20), (pb, 9)], putFields 0 [], putFields 0 [], putFields 0 []]
  | .uAdv pa imm => [putFields 11 [(pa, 6)], putFields 0 [], putFields 0 [(imm, 0)], putFields 0 []]
  | .uAdvs pa imm => [putFields 12 [(pa, 6)], putFields 0 [], putFields 0 [(imm, 0)], putFields 0 []]
  | .uMovp pa pb => [putFields 13 [(pa, 6), (pb, 9)], putFields 0 [], putFields 0 [], putFields 0 []]
  | .uIdxl pb => [putFields 14 [(pb, 9)], putFields 0 [], putFields 0 [], putFields 0 []]
  | .uIdxa imm => [putFields 15 [], putFields 0 [], putFields 0 [(imm, 0)], putFields 0 []]
  | .uMems imm => [putFields 16 [], putFields 0 [], putFields 0 [(imm, 0)], putFields 0 []]
  | .uMema imm => [putFields 17 [], putFields 0 [], putFields 0 [(imm, 0)], putFields 0 []]
  | .uLset lc imm => [putFields 18 [(lc, 12)], putFields 0 [], putFields 0 [(imm, 0)], putFields 0 []]
  | .uLdec lc tgt => [putFields 19 [(lc, 12)], putFields 0 [], putFields 0 [(tgt, 16)], putFields 0 []]
  | .uJmp tgt => [putFields 20 [], putFields 0 [], putFields 0 [(tgt, 16)], putFields 0 []]
  | .uWait imm => [putFields 21 [], putFields 0 [], putFields 0 [(imm, 0)], putFields 0 []]
  | .uSync => [putFields 22 [], putFields 0 [], putFields 0 [], putFields 0 []]
  | .uEnd => [putFields 23 [], putFields 0 [], putFields 0 [], putFields 0 []]
  | .nop => [putFields 0x00000000 []]
  | .add d a b k m => [putFields 0x01000000 [(d, 19), (a, 14), (b, 9), (b2n k, 8), (b2n m, 7)]]
  | .addQ d a b k m => [putFields 0x04000000 [(d, 20), (a, 14), (b, 8), (b2n k, 7), (b2n m, 6)]]
  | .sub d a b k m => [putFields 0x01000001 [(d, 19), (a, 14), (b, 9), (b2n k, 8), (b2n m, 7)]]
  | .subQ d a b k m => [putFields 0x04000001 [(d, 20), (a, 14), (b, 8), (b2n k, 7), (b2n m, 6)]]
  | .and d a b k m => [putFields 0x01000002 [(d, 19), (a, 14), (b, 9), (b2n k, 8), (b2n m, 7)]]
  | .andQ d a b k m => [putFields 0x04000002 [(d, 20), (a, 14), (b, 8), (b2n k, 7), (b2n m, 6)]]
  | .or d a b k m => [putFields 0x01000003 [(d, 19), (a, 14), (b, 9), (b2n k, 8), (b2n m, 7)]]
  | .orQ d a b k m => [putFields 0x04000003 [(d, 20), (a, 14), (b, 8), (b2n k, 7), (b2n m, 6)]]
  | .xor d a b k m => [putFields 0x01000004 [(d, 19), (a, 14), (b, 9), (b2n k, 8), (b2n m, 7)]]
  | .xorQ d a b k m => [putFields 0x04000004 [(d, 20), (a, 14), (b, 8), (b2n k, 7), (b2n m, 6)]]
  | .andn d a b k m => [putFields 0x01000005 [(d, 19), (a, 14), (b, 9), (b2n k, 8), (b2n m, 7)]]
  | .andnQ d a b k m => [putFields 0x04000005 [(d, 20), (a, 14), (b, 8), (b2n k, 7), (b2n m, 6)]]
  | .shl d a b k m => [putFields 0x01000006 [(d, 19), (a, 14), (b, 9), (b2n k, 8), (b2n m, 7)]]
  | .shlQ d a b k m => [putFields 0x04000006 [(d, 20), (a, 14), (b, 8), (b2n k, 7), (b2n m, 6)]]
  | .shr d a b k m => [putFields 0x01000007 [(d, 19), (a, 14), (b, 9), (b2n k, 8), (b2n m, 7)]]
  | .shrQ d a b k m => [putFields 0x04000007 [(d, 20), (a, 14), (b, 8), (b2n k, 7), (b2n m, 6)]]
  | .sra d a b k m => [putFields 0x01000008 [(d, 19), (a, 14), (b, 9), (b2n k, 8), (b2n m, 7)]]
  | .sraQ d a b k m => [putFields 0x04000008 [(d, 20), (a, 14), (b, 8), (b2n k, 7), (b2n m, 6)]]
  | .min d a b k m => [putFields 0x01000009 [(d, 19), (a, 14), (b, 9), (b2n k, 8), (b2n m, 7)]]
  | .minQ d a b k m => [putFields 0x04000009 [(d, 20), (a, 14), (b, 8), (b2n k, 7), (b2n m, 6)]]
  | .max d a b k m => [putFields 0x0100000A [(d, 19), (a, 14), (b, 9), (b2n k, 8), (b2n m, 7)]]
  | .maxQ d a b k m => [putFields 0x0400000A [(d, 20), (a, 14), (b, 8), (b2n k, 7), (b2n m, 6)]]
  | .minu d a b k m => [putFields 0x0100000B [(d, 19), (a, 14), (b, 9), (b2n k, 8), (b2n m, 7)]]
  | .minuQ d a b k m => [putFields 0x0400000B [(d, 20), (a, 14), (b, 8), (b2n k, 7), (b2n m, 6)]]
  | .maxu d a b k m => [putFields 0x0100000C [(d, 19), (a, 14), (b, 9), (b2n k, 8), (b2n m, 7)]]
  | .maxuQ d a b k m => [putFields 0x0400000C [(d, 20), (a, 14), (b, 8), (b2n k, 7), (b2n m, 6)]]
  | .addss d a b k m => [putFields 0x0100000D [(d, 19), (a, 14), (b, 9), (b2n k, 8), (b2n m, 7)]]
  | .addssQ d a b k m => [putFields 0x0400000D [(d, 20), (a, 14), (b, 8), (b2n k, 7), (b2n m, 6)]]
  | .subss d a b k m => [putFields 0x0100000E [(d, 19), (a, 14), (b, 9), (b2n k, 8), (b2n m, 7)]]
  | .subssQ d a b k m => [putFields 0x0400000E [(d, 20), (a, 14), (b, 8), (b2n k, 7), (b2n m, 6)]]
  | .mov d a k => [putFields 0x0100000F [(d, 19), (a, 14), (b2n k, 8)]]
  | .movQ d a k => [putFields 0x0400000F [(d, 20), (a, 14), (b2n k, 7)]]
  | .addi d a k i => [putFields 0x02000000 [(d, 19), (a, 14), (b2n k, 13), (i, 0)]]
  | .addiQ d a k i => [putFields 0x08000000 [(d, 20), (a, 14), (b2n k, 13), (i, 0)]]
  | .lui d s i => [putFields 0x03000000 [(d, 19), (s, 14), (i, 0)]]
  | .luiQ d s i => [putFields 0x0C000000 [(d, 20), (s, 14), (i, 0)]]
  | .mul d a b k m => [putFields 0x04000000 [(d, 19), (a, 14), (b, 9), (b2n k, 8), (b2n m, 7)]]
  | .mulQ d a b k m => [putFields 0x10000000 [(d, 20), (a, 14), (b, 8), (b2n k, 7), (b2n m, 6)]]
  | .mulh d a b k m => [putFields 0x04000001 [(d, 19), (a, 14), (b, 9), (b2n k, 8), (b2n m, 7)]]
  | .mulhQ d a b k m => [putFields 0x10000001 [(d, 20), (a, 14), (b, 8), (b2n k, 7), (b2n m, 6)]]
  | .mulhu d a b k m => [putFields 0x04000002 [(d, 19), (a, 14), (b, 9), (b2n k, 8), (b2n m, 7)]]
  | .mulhuQ d a b k m => [putFields 0x10000002 [(d, 20), (a, 14), (b, 8), (b2n k, 7), (b2n m, 6)]]
  | .fadd d a b k m r => [putFields 0x05000000 [(d, 19), (a, 14), (b, 9), (b2n k, 8), (b2n m, 7), (b2n r, 5)]]
  | .faddQ d a b k m r => [putFields 0x14000000 [(d, 20), (a, 14), (b, 8), (b2n k, 7), (b2n m, 6), (b2n r, 5)]]
  | .fsub d a b k m r => [putFields 0x05000001 [(d, 19), (a, 14), (b, 9), (b2n k, 8), (b2n m, 7), (b2n r, 5)]]
  | .fsubQ d a b k m r => [putFields 0x14000001 [(d, 20), (a, 14), (b, 8), (b2n k, 7), (b2n m, 6), (b2n r, 5)]]
  | .fmul d a b k m r => [putFields 0x05000002 [(d, 19), (a, 14), (b, 9), (b2n k, 8), (b2n m, 7), (b2n r, 5)]]
  | .fmulQ d a b k m r => [putFields 0x14000002 [(d, 20), (a, 14), (b, 8), (b2n k, 7), (b2n m, 6), (b2n r, 5)]]
  | .fdiv d a b k m r => [putFields 0x05000003 [(d, 19), (a, 14), (b, 9), (b2n k, 8), (b2n m, 7), (b2n r, 5)]]
  | .fdivQ d a b k m r => [putFields 0x14000003 [(d, 20), (a, 14), (b, 8), (b2n k, 7), (b2n m, 6), (b2n r, 5)]]
  | .fsqrt d a k r => [putFields 0x05000004 [(d, 19), (a, 14), (b2n k, 8), (b2n r, 5)]]
  | .fsqrtQ d a k r => [putFields 0x14000004 [(d, 20), (a, 14), (b2n k, 7), (b2n r, 5)]]
  | .fmin d a b k m => [putFields 0x05000005 [(d, 19), (a, 14), (b, 9), (b2n k, 8), (b2n m, 7)]]
  | .fminQ d a b k m => [putFields 0x14000005 [(d, 20), (a, 14), (b, 8), (b2n k, 7), (b2n m, 6)]]
  | .fmax d a b k m => [putFields 0x05000006 [(d, 19), (a, 14), (b, 9), (b2n k, 8), (b2n m, 7)]]
  | .fmaxQ d a b k m => [putFields 0x14000006 [(d, 20), (a, 14), (b, 8), (b2n k, 7), (b2n m, 6)]]
  | .fabs d a k => [putFields 0x05000007 [(d, 19), (a, 14), (b2n k, 8)]]
  | .fabsQ d a k => [putFields 0x14000007 [(d, 20), (a, 14), (b2n k, 7)]]
  | .fneg d a k => [putFields 0x05000008 [(d, 19), (a, 14), (b2n k, 8)]]
  | .fnegQ d a k => [putFields 0x14000008 [(d, 20), (a, 14), (b2n k, 7)]]
  | .feq d a b k m => [putFields 0x06000000 [(d, 19), (a, 14), (b, 9), (b2n k, 8), (b2n m, 7)]]
  | .feqQ d a b k m => [putFields 0x18000000 [(d, 20), (a, 14), (b, 8), (b2n k, 7), (b2n m, 6)]]
  | .flt d a b k m => [putFields 0x06000001 [(d, 19), (a, 14), (b, 9), (b2n k, 8), (b2n m, 7)]]
  | .fltQ d a b k m => [putFields 0x18000001 [(d, 20), (a, 14), (b, 8), (b2n k, 7), (b2n m, 6)]]
  | .fle d a b k m => [putFields 0x06000002 [(d, 19), (a, 14), (b, 9), (b2n k, 8), (b2n m, 7)]]
  | .fleQ d a b k m => [putFields 0x18000002 [(d, 20), (a, 14), (b, 8), (b2n k, 7), (b2n m, 6)]]
  | .funord d a b k m => [putFields 0x06000003 [(d, 19), (a, 14), (b, 9), (b2n k, 8), (b2n m, 7)]]
  | .funordQ d a b k m => [putFields 0x18000003 [(d, 20), (a, 14), (b, 8), (b2n k, 7), (b2n m, 6)]]
  | .ceq d a b k m => [putFields 0x07000000 [(d, 19), (a, 14), (b, 9), (b2n k, 8), (b2n m, 7)]]
  | .ceqQ d a b k m => [putFields 0x1C000000 [(d, 20), (a, 14), (b, 8), (b2n k, 7), (b2n m, 6)]]
  | .cne d a b k m => [putFields 0x07000001 [(d, 19), (a, 14), (b, 9), (b2n k, 8), (b2n m, 7)]]
  | .cneQ d a b k m => [putFields 0x1C000001 [(d, 20), (a, 14), (b, 8), (b2n k, 7), (b2n m, 6)]]
  | .clt d a b k m => [putFields 0x07000002 [(d, 19), (a, 14), (b, 9), (b2n k, 8), (b2n m, 7)]]
  | .cltQ d a b k m => [putFields 0x1C000002 [(d, 20), (a, 14), (b, 8), (b2n k, 7), (b2n m, 6)]]
  | .cle d a b k m => [putFields 0x07000003 [(d, 19), (a, 14), (b, 9), (b2n k, 8), (b2n m, 7)]]
  | .cleQ d a b k m => [putFields 0x1C000003 [(d, 20), (a, 14), (b, 8), (b2n k, 7), (b2n m, 6)]]
  | .cltu d a b k m => [putFields 0x07000004 [(d, 19), (a, 14), (b, 9), (b2n k, 8), (b2n m, 7)]]
  | .cltuQ d a b k m => [putFields 0x1C000004 [(d, 20), (a, 14), (b, 8), (b2n k, 7), (b2n m, 6)]]
  | .cleu d a b k m => [putFields 0x07000005 [(d, 19), (a, 14), (b, 9), (b2n k, 8), (b2n m, 7)]]
  | .cleuQ d a b k m => [putFields 0x1C000005 [(d, 20), (a, 14), (b, 8), (b2n k, 7), (b2n m, 6)]]
  | .ceqi p a k i => [putFields 0x08000000 [(p, 19), (a, 14), (b2n k, 13), (i, 0)]]
  | .ceqiQ p a k i => [putFields 0x20000000 [(p, 20), (a, 14), (b2n k, 13), (i, 0)]]
  | .cnei p a k i => [putFields 0x08400000 [(p, 19), (a, 14), (b2n k, 13), (i, 0)]]
  | .cneiQ p a k i => [putFields 0x20800000 [(p, 20), (a, 14), (b2n k, 13), (i, 0)]]
  | .clti p a k i => [putFields 0x08800000 [(p, 19), (a, 14), (b2n k, 13), (i, 0)]]
  | .cltiQ p a k i => [putFields 0x21000000 [(p, 20), (a, 14), (b2n k, 13), (i, 0)]]
  | .cltui p a k i => [putFields 0x08C00000 [(p, 19), (a, 14), (b2n k, 13), (i, 0)]]
  | .cltuiQ p a k i => [putFields 0x21800000 [(p, 20), (a, 14), (b2n k, 13), (i, 0)]]
  | .sel d a b k m p => [putFields 0x09000000 [(d, 19), (a, 14), (b, 9), (b2n k, 8), (b2n m, 7), (p, 0)]]
  | .selQ d a b k m p => [putFields 0x24000000 [(d, 20), (a, 14), (b, 8), (b2n k, 7), (b2n m, 6), (p, 0)]]
  | .clz d a k => [putFields 0x0A000000 [(d, 19), (a, 14), (b2n k, 8)]]
  | .clzQ d a k => [putFields 0x28000000 [(d, 20), (a, 14), (b2n k, 7)]]
  | .ctz d a k => [putFields 0x0A000001 [(d, 19), (a, 14), (b2n k, 8)]]
  | .ctzQ d a k => [putFields 0x28000001 [(d, 20), (a, 14), (b2n k, 7)]]
  | .popc d a k => [putFields 0x0A000002 [(d, 19), (a, 14), (b2n k, 8)]]
  | .popcQ d a k => [putFields 0x28000002 [(d, 20), (a, 14), (b2n k, 7)]]
  | .shli d a n k h => [putFields 0x0A000010 [(d, 19), (a, 14), (n, 9), (b2n k, 8), (b2n h, 0)]]
  | .shliQ d a n k h => [putFields 0x28000010 [(d, 20), (a, 14), (n, 8), (b2n k, 7), (b2n h, 0)]]
  | .shri d a n k h => [putFields 0x0A000012 [(d, 19), (a, 14), (n, 9), (b2n k, 8), (b2n h, 0)]]
  | .shriQ d a n k h => [putFields 0x28000012 [(d, 20), (a, 14), (n, 8), (b2n k, 7), (b2n h, 0)]]
  | .srai d a n k h => [putFields 0x0A000014 [(d, 19), (a, 14), (n, 9), (b2n k, 8), (b2n h, 0)]]
  | .sraiQ d a n k h => [putFields 0x28000014 [(d, 20), (a, 14), (n, 8), (b2n k, 7), (b2n h, 0)]]
  | .pand d a b => [putFields 0x0B000000 [(d, 19), (a, 14), (b, 9)]]
  | .pandQ d a b => [putFields 0x2C000000 [(d, 20), (a, 14), (b, 8)]]
  | .por d a b => [putFields 0x0B000001 [(d, 19), (a, 14), (b, 9)]]
  | .porQ d a b => [putFields 0x2C000001 [(d, 20), (a, 14), (b, 8)]]
  | .pxor d a b => [putFields 0x0B000002 [(d, 19), (a, 14), (b, 9)]]
  | .pxorQ d a b => [putFields 0x2C000002 [(d, 20), (a, 14), (b, 8)]]
  | .pandn d a b => [putFields 0x0B000003 [(d, 19), (a, 14), (b, 9)]]
  | .pandnQ d a b => [putFields 0x2C000003 [(d, 20), (a, 14), (b, 8)]]
  | .pnot d a => [putFields 0x0B000004 [(d, 19), (a, 14)]]
  | .pnotQ d a => [putFields 0x2C000004 [(d, 20), (a, 14)]]
  | .pset d => [putFields 0x0B000005 [(d, 19)]]
  | .psetQ d => [putFields 0x2C000005 [(d, 20)]]
  | .pclr d => [putFields 0x0B000006 [(d, 19)]]
  | .pclrQ d => [putFields 0x2C000006 [(d, 20)]]
  | .cvtif d a k r => [putFields 0x0C000000 [(d, 19), (a, 14), (b2n k, 8), (b2n r, 3)]]
  | .cvtifQ d a k r => [putFields 0x30000000 [(d, 20), (a, 14), (b2n k, 7), (b2n r, 3)]]
  | .cvtuf d a k r => [putFields 0x0C000001 [(d, 19), (a, 14), (b2n k, 8), (b2n r, 3)]]
  | .cvtufQ d a k r => [putFields 0x30000001 [(d, 20), (a, 14), (b2n k, 7), (b2n r, 3)]]
  | .cvtwf d a k r => [putFields 0x0C000002 [(d, 19), (a, 14), (b2n k, 8), (b2n r, 3)]]
  | .cvtwfQ d a k r => [putFields 0x30000002 [(d, 20), (a, 14), (b2n k, 7), (b2n r, 3)]]
  | .cvtfi d a k r => [putFields 0x0C000003 [(d, 19), (a, 14), (b2n k, 8), (b2n r, 3)]]
  | .cvtfiQ d a k r => [putFields 0x30000003 [(d, 20), (a, 14), (b2n k, 7), (b2n r, 3)]]
  | .cvtfu d a k r => [putFields 0x0C000004 [(d, 19), (a, 14), (b2n k, 8), (b2n r, 3)]]
  | .cvtfuQ d a k r => [putFields 0x30000004 [(d, 20), (a, 14), (b2n k, 7), (b2n r, 3)]]
  | .cvtfw d a k r => [putFields 0x0C000005 [(d, 19), (a, 14), (b2n k, 8), (b2n r, 3)]]
  | .cvtfwQ d a k r => [putFields 0x30000005 [(d, 20), (a, 14), (b2n k, 7), (b2n r, 3)]]
  | .cvtfwu d a k r => [putFields 0x0C000006 [(d, 19), (a, 14), (b2n k, 8), (b2n r, 3)]]
  | .cvtfwuQ d a k r => [putFields 0x30000006 [(d, 20), (a, 14), (b2n k, 7), (b2n r, 3)]]
  | .addx d a b k m s => [putFields 0x0D000000 [(d, 19), (a, 14), (b, 9), (b2n k, 8), (b2n m, 7), (s, 0)]]
  | .addxQ d a b k m s => [putFields 0x34000000 [(d, 20), (a, 14), (b, 8), (b2n k, 7), (b2n m, 6), (s, 0)]]
  | .subx d a b k m s => [putFields 0x0D000008 [(d, 19), (a, 14), (b, 9), (b2n k, 8), (b2n m, 7), (s, 0)]]
  | .subxQ d a b k m s => [putFields 0x34000008 [(d, 20), (a, 14), (b, 8), (b2n k, 7), (b2n m, 6), (s, 0)]]
  | .brt p d => [putFields 0x10880000 [(p, 20), (d, 0)]]
  | .brf p d => [putFields 0x10800000 [(p, 20), (d, 0)]]
  | .jump d => [putFields 0x11000000 [(d, 0)]]
  | .call d => [putFields 0x12000000 [(d, 0)]]
  | .callt p d => [putFields 0x12880000 [(p, 20), (d, 0)]]
  | .callf p d => [putFields 0x12800000 [(p, 20), (d, 0)]]
  | .jr a k => [putFields 0x13000000 [(a, 14), (b2n k, 8)]]
  | .jrl d a k => [putFields 0x13000001 [(d, 19), (a, 14), (b2n k, 8)]]
  | .brsw d => [putFields 0x14000000 [(d, 0)]]
  | .brswt p d => [putFields 0x14880000 [(p, 20), (d, 0)]]
  | .brswf p d => [putFields 0x14800000 [(p, 20), (d, 0)]]
  | .loop c d => [putFields 0x15000000 [(c, 13), (d, 0)]]
  | .loopQ k q d => [putFields 0x15800000 [(b2n k, 22), (q, 13), (d, 0)]]
  | .lpop => [putFields 0x16000000 []]
  | .lcnt d => [putFields 0x16000001 [(d, 19)]]
  | .lclr => [putFields 0x16000002 []]
  | .pblk p t l => [putFields 0x17000000 [(p, 21), (t, 13), (l, 10)]]
  | .qcnt d a => [putFields 0x18000000 [(d, 19), (a, 14)]]
  | .qcntV d a => [putFields 0x18000001 [(d, 19), (a, 14)]]
  | .qcntVn d a => [putFields 0x18000003 [(d, 19), (a, 14)]]
  | .qclr a => [putFields 0x18000004 [(a, 14)]]
  | .qclrV a => [putFields 0x18000005 [(a, 14)]]
  | .qclrVn a => [putFields 0x18000007 [(a, 14)]]
  | .pfork m i => [putFields 0x19000000 [(m, 15), (i, 0)]]
  | .pjoin s => [putFields 0x19080000 [(s, 14)]]
  | .sempost s n => [putFields 0x1A000000 [(s, 14), (n, 0)]]
  | .semwait s n => [putFields 0x1A080000 [(s, 14), (n, 0)]]
  | .barw c u => [putFields 0x1B000000 [(c, 19), (u, 0)]]
  | .rdcyc d => [putFields 0x1C000000 [(d, 19)]]
  | .rdfrz d => [putFields 0x1C000001 [(d, 19)]]
  | .rdid d => [putFields 0x1C000002 [(d, 19)]]
  | .rdpix d => [putFields 0x1C000003 [(d, 19)]]
  | .crget d c => [putFields 0x1D000000 [(d, 19), (c, 0)]]
  | .crset a k c => [putFields 0x1E000000 [(a, 14), (b2n k, 13), (c, 0)]]
  | .ifence => [putFields 0x1F000000 []]
  | .trap c => [putFields 0x1F080000 [(c, 0)]]
  | .eret => [putFields 0x1F100000 []]
  | .halt => [putFields 0x1F180000 []]
  | .vadd d a b k m t => [putFields 0x40000000 [(d, 20), (a, 14), (b, 8), (b2n k, 7), (b2n m, 6), (t, 0)]]
  | .vsub d a b k m t => [putFields 0x40000008 [(d, 20), (a, 14), (b, 8), (b2n k, 7), (b2n m, 6), (t, 0)]]
  | .vmul d a b k m t => [putFields 0x40000010 [(d, 20), (a, 14), (b, 8), (b2n k, 7), (b2n m, 6), (t, 0)]]
  | .vmin d a b k m t => [putFields 0x40000018 [(d, 20), (a, 14), (b, 8), (b2n k, 7), (b2n m, 6), (t, 0)]]
  | .vmax d a b k m t => [putFields 0x40000020 [(d, 20), (a, 14), (b, 8), (b2n k, 7), (b2n m, 6), (t, 0)]]
  | .vadds d a b k m t => [putFields 0x40000028 [(d, 20), (a, 14), (b, 8), (b2n k, 7), (b2n m, 6), (t, 0)]]
  | .vsubs d a b k m t => [putFields 0x40000030 [(d, 20), (a, 14), (b, 8), (b2n k, 7), (b2n m, 6), (t, 0)]]
  | .vmulhi d a b k m t => [putFields 0x40000038 [(d, 20), (a, 14), (b, 8), (b2n k, 7), (b2n m, 6), (t, 0)]]
  | .vsplati d v z => [putFields 0x44000000 [(d, 20), (v, 4), (z, 0)]]
  | .vaddi d a k v z => [putFields 0x44000004 [(d, 20), (a, 14), (b2n k, 13), (v, 4), (z, 0)]]
  | .vshli d a k v z => [putFields 0x44000008 [(d, 20), (a, 14), (b2n k, 13), (v, 4), (z, 0)]]
  | .vsrai d a k v z => [putFields 0x4400000C [(d, 20), (a, 14), (b2n k, 13), (v, 4), (z, 0)]]
  | .vfadd d a b k m t => [putFields 0x48000000 [(d, 20), (a, 14), (b, 8), (b2n k, 7), (b2n m, 6), (t, 4)]]
  | .vfsub d a b k m t => [putFields 0x48000001 [(d, 20), (a, 14), (b, 8), (b2n k, 7), (b2n m, 6), (t, 4)]]
  | .vfmul d a b k m t => [putFields 0x48000002 [(d, 20), (a, 14), (b, 8), (b2n k, 7), (b2n m, 6), (t, 4)]]
  | .vfma d a b k m t => [putFields 0x48000003 [(d, 20), (a, 14), (b, 8), (b2n k, 7), (b2n m, 6), (t, 4)]]
  | .vfmin d a b k m t => [putFields 0x48000004 [(d, 20), (a, 14), (b, 8), (b2n k, 7), (b2n m, 6), (t, 4)]]
  | .vfmax d a b k m t => [putFields 0x48000005 [(d, 20), (a, 14), (b, 8), (b2n k, 7), (b2n m, 6), (t, 4)]]
  | .vfabs d a k t => [putFields 0x48000006 [(d, 20), (a, 14), (b2n k, 7), (t, 4)]]
  | .vfneg d a k t => [putFields 0x48000007 [(d, 20), (a, 14), (b2n k, 7), (t, 4)]]
  | .vand d a b k m => [putFields 0x4C000000 [(d, 20), (a, 14), (b, 8), (b2n k, 7), (b2n m, 6)]]
  | .vor d a b k m => [putFields 0x4C000008 [(d, 20), (a, 14), (b, 8), (b2n k, 7), (b2n m, 6)]]
  | .vxor d a b k m => [putFields 0x4C000010 [(d, 20), (a, 14), (b, 8), (b2n k, 7), (b2n m, 6)]]
  | .vandn d a b k m => [putFields 0x4C000018 [(d, 20), (a, 14), (b, 8), (b2n k, 7), (b2n m, 6)]]
  | .vshl d a b k m z => [putFields 0x4C000020 [(d, 20), (a, 14), (b, 8), (b2n k, 7), (b2n m, 6), (z, 0)]]
  | .vshr d a b k m z => [putFields 0x4C000028 [(d, 20), (a, 14), (b, 8), (b2n k, 7), (b2n m, 6), (z, 0)]]
  | .vsra d a b k m z => [putFields 0x4C000030 [(d, 20), (a, 14), (b, 8), (b2n k, 7), (b2n m, 6), (z, 0)]]
  | .vnot d a k => [putFields 0x4C000038 [(d, 20), (a, 14), (b2n k, 7)]]
  | .vcmp d a b k m c t => [putFields 0x50000000 [(d, 20), (a, 14), (b, 8), (b2n k, 7), (b2n m, 6), (c, 3), (t, 0)]]
  | .mand d a b => [putFields 0x54000000 [(d, 20), (a, 14), (b, 8)]]
  | .mor d a b => [putFields 0x54000001 [(d, 20), (a, 14), (b, 8)]]
  | .mxor d a b => [putFields 0x54000002 [(d, 20), (a, 14), (b, 8)]]
  | .mandn d a b => [putFields 0x54000003 [(d, 20), (a, 14), (b, 8)]]
  | .mnot d a => [putFields 0x54000004 [(d, 20), (a, 14)]]
  | .mset d => [putFields 0x54000005 [(d, 20)]]
  | .mclr d => [putFields 0x54000006 [(d, 20)]]
  | .mcnt d a => [putFields 0x54000007 [(d, 20), (a, 14)]]
  | .vperm d a b k m z => [putFields 0x58000000 [(d, 20), (a, 14), (b, 8), (b2n k, 7), (b2n m, 6), (z, 0)]]
  | .vpermt d a b k m => [putFields 0x58000006 [(d, 20), (a, 14), (b, 8), (b2n k, 7), (b2n m, 6)]]
  | .vred d a g k o t => [putFields 0x5C000000 [(d, 20), (a, 14), (g, 8), (b2n k, 7), (o, 4), (t, 0)]]
  | .vmaxe a k c t => [putFields 0x60000000 [(a, 14), (b2n k, 7), (b2n c, 2), (t, 0)]]
  | .vcvt d a s k f => [putFields 0x64000000 [(d, 20), (a, 14), (s, 8), (b2n k, 7), (f, 0)]]
  | .vqnt d a k s f => [putFields 0x68000000 [(d, 20), (a, 14), (b2n k, 7), (b2n s, 4), (f, 0)]]
  | .vcvtsr d a b k m s f => [putFields 0x6C000000 [(d, 20), (a, 14), (b, 8), (b2n k, 7), (b2n m, 6), (s, 4), (f, 0)]]
  | .vlmul d a b k m => [putFields 0x70000000 [(d, 20), (a, 14), (b, 8), (b2n k, 7), (b2n m, 6)]]
  | .vldiv d a b k m => [putFields 0x70000001 [(d, 20), (a, 14), (b, 8), (b2n k, 7), (b2n m, 6)]]
  | .vlsqrt d a k => [putFields 0x70000002 [(d, 20), (a, 14), (b2n k, 7)]]
  | .vlneg d a k => [putFields 0x70000003 [(d, 20), (a, 14), (b2n k, 7)]]
  | .vlabs d a k => [putFields 0x70000004 [(d, 20), (a, 14), (b2n k, 7)]]
  | .vladd d a b k m => [putFields 0x74000000 [(d, 20), (a, 14), (b, 8), (b2n k, 7), (b2n m, 6)]]
  | .vlsub d a b k m => [putFields 0x74000001 [(d, 20), (a, 14), (b, 8), (b2n k, 7), (b2n m, 6)]]
  | .vcbx d a b k t => [putFields 0x78000000 [(d, 20), (a, 14), (b, 8), (b2n k, 7), (t, 0)]]
  | .vcbn d a b k t => [putFields 0x7C000000 [(d, 20), (a, 14), (b, 8), (b2n k, 7), (t, 0)]]
  | .vrng d a k f => [putFields 0x80000000 [(d, 20), (a, 14), (b2n k, 13), (f, 0)]]
  | .vtwr d a b k m => [putFields 0x84000000 [(d, 20), (a, 14), (b, 8), (b2n k, 7), (b2n m, 6)]]
  | .vtwrCvt d a b k m f => [putFields 0x84000020 [(d, 20), (a, 14), (b, 8), (b2n k, 7), (b2n m, 6), (f, 0)]]
  | .vtrd d a b m => [putFields 0x88000000 [(d, 20), (a, 14), (b, 8), (b2n m, 6)]]
  | .vtrdCvt d a b m f => [putFields 0x88000020 [(d, 20), (a, 14), (b, 8), (b2n m, 6), (f, 0)]]
  | .vtcr d a b m z => [putFields 0x8C000000 [(d, 20), (a, 14), (b, 8), (b2n m, 6), (z, 0)]]
  | .vtcrCvt d a b m f => [putFields 0x8C000020 [(d, 20), (a, 14), (b, 8), (b2n m, 6), (f, 0)]]
  | .vct8 d a b k f => [putFields 0x90000000 [(d, 20), (a, 14), (b, 8), (b2n k, 7), (f, 0)]]
  | .vacrd d a b m f => [putFields 0x94000000 [(d, 20), (a, 14), (b, 8), (b2n m, 6), (f, 0)]]
  | .vsplat d a k z => [putFields 0x98000000 [(d, 20), (a, 14), (b2n k, 7), (z, 0)]]
  | .vext d a b k m z => [putFields 0x98000004 [(d, 20), (a, 14), (b, 8), (b2n k, 7), (b2n m, 6), (z, 0)]]
  | .vsel d a b k m j => [putFields 0x9C000000 [(d, 20), (a, 14), (b, 8), (b2n k, 7), (b2n m, 6), (j, 0)]]
  | .vmov d a k => [putFields 0x9C000008 [(d, 20), (a, 14), (b2n k, 7)]]
  | .lds x d m b i z => [putFields 0x04000000 [(b2n x, 25), (d, 20), (b2n m, 19), (b, 14), (i, 2), (z, 0)]]
  | .sts d m b k i z => [putFields 0x08000000 [(d, 20), (b2n m, 19), (b, 14), (b2n k, 13), (i, 2), (z, 0)]]
  | .ldv d m b i => [putFields 0x0C000000 [(d, 20), (b2n m, 19), (b, 14), (i, 0)]]
  | .stv d m b k i => [putFields 0x10000000 [(d, 20), (b2n m, 19), (b, 14), (b2n k, 13), (i, 0)]]
  | .ldt t m b i r => [putFields 0x14000000 [(t, 20), (b2n m, 19), (b, 14), (i, 7), (r, 0)]]
  | .stt t m b i r => [putFields 0x18000000 [(t, 20), (b2n m, 19), (b, 14), (i, 7), (r, 0)]]
  | .natom q m b k i z o => [putFields 0x1C000000 [(q, 20), (b2n m, 19), (b, 14), (b2n k, 13), (i, 5), (b2n z, 4), (o, 0)]]
  | .ncas q m b i => [putFields 0x20000000 [(q, 20), (b2n m, 19), (b, 14), (i, 5)]]
  | .mcall p a b r => [putFields 0xA0000000 [(p, 20), (a, 14), (b, 8), (r, 2)]]
  | .mpset n a k => [putFields 0xA4000000 [(n, 20), (a, 14), (b2n k, 7)]]
  | .mpget d n => [putFields 0xA4000001 [(d, 20), (n, 14)]]
  | .mpadd n a k => [putFields 0xA4000002 [(n, 20), (a, 14), (b2n k, 7)]]
  | .pcwset a k => [putFields 0xA8000000 [(a, 14), (b2n k, 7)]]
  | .pcwmem a k => [putFields 0xA8000001 [(a, 14), (b2n k, 7)]]
  | .scld g a k => [putFields 0xAC000000 [(g, 20), (a, 14), (b2n k, 13)]]
  | .scldi x v => [putFields 0xAE000000 [(x, 20), (v, 0)]]
  | .wswap => [putFields 0xB0000000 []]
  | .aclr t => [putFields 0xB4000000 [(t, 20)]]
  | .aclrAll => [putFields 0xB4000001 []]
  | .acdrn p a b w q => [putFields 0xB8000000 [(p, 20), (a, 14), (b, 8), (b2n w, 5), (q, 0)]]
  | .gsset a k => [putFields 0xBC000000 [(a, 14), (b2n k, 7)]]
  | .fld p a b f q => [putFields 0xC0000000 [(p, 20), (a, 14), (b, 8), (f, 5), (q, 0)]]
  | .fst p a b f q => [putFields 0xC4000000 [(p, 20), (a, 14), (b, 8), (f, 5), (q, 0)]]
  | .fatom p a b f q => [putFields 0xC8000000 [(p, 20), (a, 14), (b, 8), (f, 5), (q, 0)]]
  | .copy p a b q => [putFields 0xCC000000 [(p, 20), (a, 14), (b, 8), (q, 0)]]
  | .gath p a b q => [putFields 0xD0000000 [(p, 20), (a, 14), (b, 8), (q, 0)]]
  | .scat p a b q => [putFields 0xD0000020 [(p, 20), (a, 14), (b, 8), (q, 0)]]
  | .mcst p a b q => [putFields 0xD4000000 [(p, 20), (a, 14), (b, 8), (q, 0)]]
  | .cgath p a b q => [putFields 0xD8000000 [(p, 20), (a, 14), (b, 8), (q, 0)]]
  | .twany a k => [putFields 0xDC000000 [(a, 14), (b2n k, 7)]]
  | .twall a k => [putFields 0xDC000001 [(a, 14), (b2n k, 7)]]
  | .tfind d a k => [putFields 0xDC000002 [(d, 20), (a, 14), (b2n k, 7)]]
  | .tclr a k => [putFields 0xDC000003 [(a, 14), (b2n k, 7)]]
  | .drn p a b f => [putFields 0xE0000000 [(p, 20), (a, 14), (b, 8), (f, 5)]]
  | .txb p a b => [putFields 0xE4000000 [(p, 20), (a, 14), (b, 8)]]
  | .txc p a b q => [putFields 0xE4000020 [(p, 20), (a, 14), (b, 8), (q, 0)]]
  | .txa p a b => [putFields 0xE4000040 [(p, 20), (a, 14), (b, 8)]]
  | .spawn p a b q => [putFields 0xE8000000 [(p, 20), (a, 14), (b, 8), (q, 0)]]
  | .take p a b q => [putFields 0xE8000020 [(p, 20), (a, 14), (b, 8), (q, 0)]]
  | .join p a b q => [putFields 0xE8000040 [(p, 20), (a, 14), (b, 8), (q, 0)]]
  | .ckpt p a b => [putFields 0xEC000000 [(p, 20), (a, 14), (b, 8)]]
  | .cbld p a b q => [putFields 0xF0000000 [(p, 20), (a, 14), (b, 8), (q, 0)]]
  | .cwtld p a b q => [putFields 0xF0000020 [(p, 20), (a, 14), (b, 8), (q, 0)]]
  | .mpsld p a b q => [putFields 0xF0000040 [(p, 20), (a, 14), (b, 8), (q, 0)]]
  | .gtld p a b q => [putFields 0xF0000060 [(p, 20), (a, 14), (b, 8), (q, 0)]]
  | .latld p a b q => [putFields 0xF0000080 [(p, 20), (a, 14), (b, 8), (q, 0)]]
  | .ovld p a b q => [putFields 0xF00000A0 [(p, 20), (a, 14), (b, 8), (q, 0)]]
  | .cbsel n => [putFields 0xF4000000 [(n, 20)]]

/-- Words, lowest first, as one number of 32 bits a word (R8). -/
def joinWords : List Nat → Nat
  | [] => 0
  | w :: ws => w + 2 ^ 32 * joinWords ws

/-- The instruction a row word of spec/opcode_table.json stands for. The same 32 bits can be an instruction of more
than one slot class (R65: the class is the slot position's, not the word's); the classes are tried in the order slot 0,
slots 1 and 3, slot 2 (assumption log 6). -/
noncomputable def decodeTableWord (nbits w : Nat) : Option Instr :=
  let w := w % 2 ^ nbits
  match decodeSlot 0 w with
  | .ok i => some i
  | .error _ =>
    match decodeSlot 3 w with
    | .ok i => some i
    | .error _ =>
      match decodeSlot 2 w with
      | .ok i => some i
      | .error _ => none

end Sys2Proof
end

