-- ==== Sys2Proof/Machine/Vector.lean ====
section
/-!
DEFINITION. The vector block, majors 0x10 to 0x20: integer, floating point, compares, masks, permutes, reductions,
conversions, LNS arithmetic, codebooks and generators (R162 to R178).
-/

namespace Sys2Proof.Machine

/-! ### Integer and logic (R162 to R164) -/

/-- VADD: (a + b) mod 2^b (R162). -/
def execVadd (d a b : Nat) (k m : Bool) (t : Nat) (s : State) : Out :=
  vector2 d a b k m 2 (vtBits t) (fun x y => vtWrap t (vtVal t x + vtVal t y)) s

/-- VSUB: (a - b) mod 2^b (R162). -/
def execVsub (d a b : Nat) (k m : Bool) (t : Nat) (s : State) : Out :=
  vector2 d a b k m 2 (vtBits t) (fun x y => vtWrap t (vtVal t x - vtVal t y)) s

/-- VMUL: (a * b) mod 2^b (R162). -/
def execVmul (d a b : Nat) (k m : Bool) (t : Nat) (s : State) : Out :=
  vector2 d a b k m 3 (vtBits t) (fun x y => vtWrap t (vtVal t x * vtVal t y)) s

/-- VMIN: the minimum, by the type's order (R162). -/
def execVmin (d a b : Nat) (k m : Bool) (t : Nat) (s : State) : Out :=
  vector2 d a b k m 2 (vtBits t) (fun x y => vtWrap t (Min.min (vtVal t x) (vtVal t y))) s

/-- VMAX: the maximum, by the type's order (R162). -/
def execVmax (d a b : Nat) (k m : Bool) (t : Nat) (s : State) : Out :=
  vector2 d a b k m 2 (vtBits t) (fun x y => vtWrap t (Max.max (vtVal t x) (vtVal t y))) s

/-- VADDS: the sum clamped to the stored range, SAT when clamped (R162). -/
def execVadds (d a b : Nat) (k m : Bool) (t : Nat) (s : State) : Out :=
  vector2 d a b k m 2 (vtBits t) (fun x y => vtSat t (vtVal t x + vtVal t y)) s

/-- VSUBS: the difference clamped to the stored range, SAT when clamped (R162). -/
def execVsubs (d a b : Nat) (k m : Bool) (t : Nat) (s : State) : Out :=
  vector2 d a b k m 2 (vtBits t) (fun x y => vtSat t (vtVal t x - vtVal t y)) s

/-- VMULHI: the high half of the exact product (R162). -/
def execVmulhi (d a b : Nat) (k m : Bool) (t : Nat) (s : State) : Out :=
  vector2 d a b k m 3 (vtBits t) (fun x y => vtWrap t (vtVal t x * vtVal t y / 2 ^ vtBits t)) s

/-- The value v of R163: sext(F[12:4]), or sext(F[18:4]) in the headed form. -/
def vimm (s : State) (v : Nat) : Int :=
  if s.cur.mod.headed then sgn 15 (s.cur.mod.ext * 2 ^ 9 + v) else sgn 9 v

/-- n elements of b bits, all enabled: the I form carries no mask (R163). -/
def vecImm (d a : Nat) (k : Bool) (z : Nat) (f : Nat → Nat) (s : State) : Out :=
  let b := szBits z
  let x := readV a k s
  .next (pushElems d 2 b ((List.range (s.width / b)).map fun i => ⟨f (elem b i x.1), 0⟩) x.2)

/-- VSPLATI: every element v mod 2^b (R163). -/
def execVsplati (d v z : Nat) (s : State) : Out :=
  let b := szBits z
  .next (pushElems d 2 b ((List.range (s.width / b)).map fun _ => ⟨low b (vimm s v), 0⟩) s)

/-- VADDI: (a + v) mod 2^b (R163). -/
def execVaddi (d a : Nat) (k : Bool) (v z : Nat) (s : State) : Out :=
  vecImm d a k z (fun x => low (szBits z) (x + vimm s v)) s

/-- VSHLI: a << (v mod b) (R163). -/
def execVshli (d a : Nat) (k : Bool) (v z : Nat) (s : State) : Out :=
  vecImm d a k z (fun x => shlB (szBits z) x (vimm s v % (szBits z : Int)).toNat) s

/-- VSRAI: a shifted right arithmetically by v mod b (R163). -/
def execVsrai (d a : Nat) (k : Bool) (v z : Nat) (s : State) : Out :=
  vecImm d a k z (fun x => sraB (szBits z) x (vimm s v % (szBits z : Int)).toNat) s

/-- VAND, masked by byte lane (R164). -/
def execVand (d a b : Nat) (k m : Bool) (s : State) : Out :=
  vector2 d a b k m 2 8 (fun x y => ⟨Nat.land x y, 0⟩) s

/-- VOR, masked by byte lane (R164). -/
def execVor (d a b : Nat) (k m : Bool) (s : State) : Out :=
  vector2 d a b k m 2 8 (fun x y => ⟨Nat.lor x y, 0⟩) s

/-- VXOR, masked by byte lane (R164). -/
def execVxor (d a b : Nat) (k m : Bool) (s : State) : Out :=
  vector2 d a b k m 2 8 (fun x y => ⟨Nat.xor x y, 0⟩) s

/-- VANDN: a & ~b, masked by byte lane (R164). -/
def execVandn (d a b : Nat) (k m : Bool) (s : State) : Out :=
  vector2 d a b k m 2 8 (fun x y => ⟨Nat.land x (255 - y), 0⟩) s

/-- VSHL: a << (b mod size) (R164). -/
def execVshl (d a b : Nat) (k m : Bool) (z : Nat) (s : State) : Out :=
  vector2 d a b k m 2 (szBits z) (fun x y => ⟨shlB (szBits z) x y, 0⟩) s

/-- VSHR: the logical right shift by b mod size (R164). -/
def execVshr (d a b : Nat) (k m : Bool) (z : Nat) (s : State) : Out :=
  vector2 d a b k m 2 (szBits z) (fun x y => ⟨shrB (szBits z) x y, 0⟩) s

/-- VSRA: the arithmetic right shift by b mod size (R164). -/
def execVsra (d a b : Nat) (k m : Bool) (z : Nat) (s : State) : Out :=
  vector2 d a b k m 2 (szBits z) (fun x y => ⟨sraB (szBits z) x y, 0⟩) s

/-- VNOT, masked by byte lane (R164). -/
def execVnot (d a : Nat) (k : Bool) (s : State) : Out :=
  vector1 d a k 2 8 (fun x => ⟨255 - x, 0⟩) s

/-! ### Floating point (R165) -/

/-- The element types of R165. -/
def vfFmt (t : Nat) : Flt := if t = 0 then fmtBinary32 else if t = 1 then fmtBinary16 else fmtBF16
def vfBits (t : Nat) : Nat := if t = 0 then 32 else 16

/-- A two-source operation rounded once in the RND mode (R165). -/
def vfloat2 (d a b : Nat) (k m : Bool) (t : Nat) (f : RMode → Num → Num → Num × Nat) (s : State) : Out :=
  let md := s.rnd
  let g := vfFmt t
  vector2 d a b k m 4 (vfBits t) (fun x y => finish (.flt g) md 0 false (f md (readFlt g x) (readFlt g y))) s

/-- VFADD (R165, R406). -/
def execVfadd (d a b : Nat) (k m : Bool) (t : Nat) (s : State) : Out :=
  vfloat2 d a b k m t (fun md x y => sumNums md [x, y]) s

/-- VFSUB (R165, R406). -/
def execVfsub (d a b : Nat) (k m : Bool) (t : Nat) (s : State) : Out :=
  vfloat2 d a b k m t (fun md x y => sumNums md [x, negNum y]) s

/-- VFMUL (R165). -/
def execVfmul (d a b : Nat) (k m : Bool) (t : Nat) (s : State) : Out :=
  vfloat2 d a b k m t (fun _ x y => mulNum x y) s

/-- A sum of exact products and addends: a NaN operand propagates without a flag, an invalid product sets IV (R110,
R111, R165, R181). -/
def dotNums (md : RMode) (ps : List (Num × Num)) (adds : List Num) : Num × Nat :=
  if ps.any (fun p => p.1.isNan || p.2.isNan) || adds.any Num.isNan then (.nan, 0)
  else
    let xs := ps.map fun p => mulNum p.1 p.2
    if xs.any fun x => x.2 != 0 then (.nan, fIV)
    else sumNums md (xs.map Prod.fst ++ adds)

/-- VFMA: a * b + c, c the oldest entry of d, popped after A and B (R165). -/
def execVfma (d a b : Nat) (k m : Bool) (t : Nat) (s : State) : Out :=
  let md := s.rnd
  let g := vfFmt t
  let n := vfBits t
  let x := readV a k s
  let y := readV b m x.2
  let z := readV d false y.2
  .next (pushElems d 4 n (mapElems s n (s.width / n) fun i =>
    finish (.flt g) md 0 false
      (dotNums md [(readFlt g (elem n i x.1), readFlt g (elem n i y.1))] [readFlt g (elem n i z.1)])) z.2)

/-- VFMIN: the smaller, -0 below +0 (R165). -/
def execVfmin (d a b : Nat) (k m : Bool) (t : Nat) (s : State) : Out :=
  vector2 d a b k m 4 (vfBits t) (fun x y => ⟨fltExtreme (vfFmt t) true x y, 0⟩) s

/-- VFMAX: the larger, -0 below +0 (R165). -/
def execVfmax (d a b : Nat) (k m : Bool) (t : Nat) (s : State) : Out :=
  vector2 d a b k m 4 (vfBits t) (fun x y => ⟨fltExtreme (vfFmt t) false x y, 0⟩) s

/-- VFABS (R165). -/
def execVfabs (d a : Nat) (k : Bool) (t : Nat) (s : State) : Out :=
  vector1 d a k 4 (vfBits t) (fun x => ⟨fltSetSign (vfFmt t) false x, 0⟩) s

/-- VFNEG (R165). -/
def execVfneg (d a : Nat) (k : Bool) (t : Nat) (s : State) : Out :=
  vector1 d a k 4 (vfBits t) (fun x => ⟨fltSetSign (vfFmt t) (!(readFlt (vfFmt t) x).neg) x, 0⟩) s

/-! ### Compares and masks (R166, R167) -/

def vcBits (t : Nat) : Nat := if t ≤ 4 then vtBits t else vfBits (t - 5)

/-- The truth of a compare of two elements (R166). -/
def vcHolds (c t x y : Nat) : Bool :=
  if t ≤ 4 then
    match c with
    | 0 => vtVal t x == vtVal t y
    | 1 => vtVal t x != vtVal t y
    | 2 => decide (vtVal t x < vtVal t y)
    | _ => decide (vtVal t x ≤ vtVal t y)
  else
    let g := vfFmt (t - 5)
    match c with
    | 0 => fltEq g x y
    | 1 => !fltEq g x y
    | 2 => fltLt g x y
    | 3 => fltLe g x y
    | _ => fltUn g x y

/-- VCMP: every byte-lane bit of an element takes the truth of its compare; disabled elements and lanes at w/8 and
above take 0 (R166). -/
def execVcmp (d a b : Nat) (k m : Bool) (c t : Nat) (s : State) : Out :=
  let n := vcBits t
  let x := readV a k s
  let y := readV b m x.2
  let bits := (List.range (s.width / n)).map fun i =>
    if s.enabled n i && vcHolds c t (elem n i x.1) (elem n i y.1) then 2 ^ (n / 8) - 1 else 0
  .next (writeM d 2 (BitVec.ofNat 128 (packNat (n / 8) bits)) y.2)

/-- MAND (R167). -/
def execMand (d a b : Nat) (s : State) : Out := .next (writeM d 2 (s.maskReg a &&& s.maskReg b) s)

/-- MOR (R167). -/
def execMor (d a b : Nat) (s : State) : Out := .next (writeM d 2 (s.maskReg a ||| s.maskReg b) s)

/-- MXOR (R167). -/
def execMxor (d a b : Nat) (s : State) : Out := .next (writeM d 2 (s.maskReg a ^^^ s.maskReg b) s)

/-- MANDN (R167). -/
def execMandn (d a b : Nat) (s : State) : Out := .next (writeM d 2 (s.maskReg a &&& ~~~s.maskReg b) s)

/-- MNOT (R167). -/
def execMnot (d a : Nat) (s : State) : Out := .next (writeM d 2 (~~~s.maskReg a) s)

/-- MSET (R167). -/
def execMset (d : Nat) (s : State) : Out := .next (writeM d 2 (BitVec.allOnes 128) s)

/-- MCLR (R167). -/
def execMclr (d : Nat) (s : State) : Out := .next (writeM d 2 0 s)

/-- MCNT: the number of one bits of a mask (R167). -/
def execMcnt (d a : Nat) (s : State) : Out :=
  .next (pushS d 2 0 (BitVec.ofNat 64 ((List.range 128).countP fun i => (s.maskReg a).getLsbD i)) s)

/-! ### Permutes and reductions (R168, R169) -/

/-- VPERM, index form: element k of a, zero where k is not below n (R168). -/
def execVperm (d a b : Nat) (k m : Bool) (z : Nat) (s : State) : Out :=
  let n := szBits z
  let x := readV a k s
  let y := readV b m x.2
  .next (pushElems d 3 n (mapElems s n (s.width / n) fun i =>
    let j := elem n i y.1
    ⟨if j < s.width / n then elem n j x.1 else 0, 0⟩) y.2)

/-- VPERM, template form: selector i of PERM picks from a's elements followed by b's (R168). -/
def execVpermt (d a b : Nat) (k m : Bool) (s : State) : Out :=
  let n := s.width / 32
  let x := readV a k s
  let y := readV b m x.2
  .next (pushElems d 3 32 (mapElems s 32 n fun i =>
    let j := Sys2Proof.fld s.cur.mod.perm (6 * i) 6
    ⟨if j < n then elem 32 j x.1 else if j < 2 * n then elem 32 (j - n) y.1 else 0, 0⟩) y.2)

def vrBits (t : Nat) : Nat := if t < 3 then vfBits t else if t = 3 then 32 else if t = 4 then 16 else 8

/-- The reduction of one group of enabled elements (R169). -/
def reduceGroup (md : RMode) (o t : Nat) (xs : List Nat) : Res :=
  match xs with
  | [] => ⟨0, 0⟩
  | x :: r =>
    if t < 3 then
      let g := vfFmt t
      if o = 0 then finish (.flt g) md 0 false (sumNums md (xs.map (readFlt g)))
      else if xs.any fun y => (readFlt g y).isNan then ⟨fltNan g, 0⟩
      else ⟨r.foldl (fltExtreme g (o == 2)) x, 0⟩
    else
      let n := vrBits t
      let vs := xs.map (sgn n)
      if o = 0 then
        let v := satInt (-(2 ^ (n - 1) : Int)) (2 ^ (n - 1) - 1) vs.sum
        ⟨low n v.1, v.2⟩
      else ⟨low n ((vs.tail).foldl (fun u v => if o = 1 then Max.max u v else Min.min u v) (sgn n x)), 0⟩

/-- VRED: groups of 2^g source elements reduced, the mask governing source elements (R169). -/
def execVred (d a g : Nat) (k : Bool) (o t : Nat) (s : State) : Out :=
  let n := vrBits t
  let x := readV a k s
  let md := s.rnd
  let size := 2 ^ g
  .next (pushElems d 6 n ((List.range (s.width / n / size)).map fun j =>
    reduceGroup md o t (((List.range size).map fun i => j * size + i).filterMap fun i =>
      if s.enabled n i then some (elem n i x.1) else none)) x.2)

/-! ### The scale latch, conversions (R170 to R173) -/

/-- e(x) of R170. -/
def expOf (x : Num) : Nat :=
  match x with
  | .fin _ n d => if n = 0 then 0 else (min (max (floorLog2 n d + 127) 0) 254).toNat
  | _ => 255

/-- VMAXE: the largest exponent of the enabled elements goes to SLATCH, three clocks after issue (R170). -/
def execVmaxe (a : Nat) (k c : Bool) (t : Nat) (s : State) : Out :=
  let n := vfBits t
  let x := readV a k s
  let es := (List.range (s.width / n)).map fun i =>
    if s.enabled n i then expOf (readFlt (vfFmt t) (elem n i x.1)) else 0
  let m := es.foldl Nat.max (if c then s.me.slatch.toNat else 0)
  .next (emit 3 0 (.creg 0x01 0xFF (BitVec.ofNat 64 m)) x.2)

/-- A value times 2^e, exactly. -/
def scaleNum (e : Int) (x : Num) : Num :=
  match x with
  | .fin s n d => if 0 ≤ e then .fin s (n * 2 ^ e.toNat) d else .fin s n (d * 2 ^ (-e).toNat)
  | y => y

/-- VCVT: element by element conversion under R106 to R109 (R172). -/
def execVcvt (d a src : Nat) (k : Bool) (f : Nat) (s : State) : Out :=
  let dst := s.dstFmt f
  let bs := fmtBits src
  let bd := fmtBits dst
  let x := readV a k s
  let md := s.rnd
  .next (pushElems d 4 bd (mapElems s bd (s.width / max bs bd) fun i =>
    if src = dst then ⟨elem bs i x.1, 0⟩
    else convertPat (fmtOf src) (fmtOf dst) md 0 s.a128 (elem bs i x.1)) x.2)

/-- T(dst) of R171. -/
def topExp (dst : Nat) : Int :=
  match dst with
  | 1 => 15 | 2 => 127 | 3 => 8 | 4 => 15 | 5 => 4 | 6 => 2 | 7 => 2 | 8 => 0 | 9 => 6 | 10 => 7 | 11 => 14
  | 12 => 15 | 13 => 30 | _ => 2

/-- VQNT: conversion under the scale latch as it stands at issue (R171). Of a source half as wide as the destination, only the
elements whose results lie within the width are converted (R31; DEDUCED, assumption log 37). -/
def execVqnt (d a : Nat) (k src : Bool) (f : Nat) (s : State) : Out :=
  let dst := s.dstFmt f
  let g := if src then fmtBF16 else fmtBinary32
  let bs := if src then 16 else 32
  let bd := fmtBits dst
  let l := s.me.slatch.toNat
  let x := readV a k s
  let md := s.rnd
  .next (pushElems d 4 bd (mapElems s bd (s.width / max bs bd) fun i =>
    if l = 0xFF then nanCase (fmtOf dst)
    else convertNum (fmtOf dst) md 0 s.a128 (scaleNum (topExp dst - ((l : Int) - 127)) (readFlt g (elem bs i x.1)))) x.2)

/-- VCVTSR: conversion with stochastic rounding, element i keyed by KSEED, GSTRM and index sb[47:0] + i (R173). -/
def execVcvtsr (d a b : Nat) (k m : Bool) (src f : Nat) (s : State) : Out :=
  let dst := s.dstFmt f
  let bs := vfBits src
  let bd := fmtBits dst
  let x := readV a k s
  let y := readS b m x.2
  .next (pushElems d 4 bd (mapElems s bd (s.width / max bs bd) fun i =>
    convertNum (fmtOf dst) .sr
      (roundUni s.myCore.kseed.toNat s.me.gstrm.toNat ((y.1.toNat + i) % 2 ^ 48))
      s.a128 (readFlt (vfFmt src) (elem bs i x.1))) y.2)

/-! ### LNS arithmetic (R174, R175) -/

/-- A sign and an L that a product or quotient gives, clamped with its flags (R174). -/
def lnsOut (neg : Bool) (l : Int) : Res :=
  if 16383 < l then ⟨lnsPat neg 16383, fOF + fNX⟩
  else if l < -16383 then ⟨lnsPat neg (-16384), fUF + fNX⟩
  else ⟨lnsPat neg l, 0⟩

def lnsMul (x y : Nat) : Res :=
  let neg := bit x 15 != bit y 15
  if lnsZero x || lnsZero y then ⟨lnsPat neg (-16384), 0⟩ else lnsOut neg (lnsL x + lnsL y)

def lnsDiv (x y : Nat) : Res :=
  let neg := bit x 15 != bit y 15
  if lnsZero y then (if lnsZero x then ⟨0x4000, fIV⟩ else ⟨lnsPat neg 16383, fDZ⟩)
  else if lnsZero x then ⟨lnsPat neg (-16384), 0⟩
  else lnsOut neg (lnsL x - lnsL y)

/-- An integer quotient v / 2^k rounded to nearest, ties to even, on its magnitude (R104). -/
def rneShift (v : Int) (k : Nat) : Int :=
  let c := (roundCount .rne 0 v.natAbs (2 ^ k)).1
  if v < 0 then -(c : Int) else c

def lnsSqrt (x : Nat) : Res :=
  if lnsZero x then ⟨x, 0⟩
  else if bit x 15 then ⟨0x4000, fIV⟩
  else ⟨lnsPat false (rneShift (lnsL x) 1), if lnsL x % 2 = 0 then 0 else fNX⟩

/-- VLMUL (R174). -/
def execVlmul (d a b : Nat) (k m : Bool) (s : State) : Out := vector2 d a b k m 2 16 lnsMul s

/-- VLDIV (R174). -/
def execVldiv (d a b : Nat) (k m : Bool) (s : State) : Out := vector2 d a b k m 2 16 lnsDiv s

/-- VLSQRT (R174). -/
def execVlsqrt (d a : Nat) (k : Bool) (s : State) : Out := vector1 d a k 2 16 lnsSqrt s

/-- VLNEG (R174). -/
def execVlneg (d a : Nat) (k : Bool) (s : State) : Out :=
  vector1 d a k 2 16 (fun x => ⟨x % 2 ^ 15 + b2n (!bit x 15) * 2 ^ 15, 0⟩) s

/-- VLABS (R174). -/
def execVlabs (d a : Nat) (k : Bool) (s : State) : Out :=
  vector1 d a k 2 16 (fun x => ⟨x % 2 ^ 15, 0⟩) s

/-- The log-add table of a core: its loaded entries over the reset contents (R175). -/
def Core.logAdd (c : Core) (k : Nat) : Nat := (Cells.get (BitVec.ofNat 32 (logAddReset.getD k 0)) k c.latab).toNat

/-- The correction of R175 for a distance dd and an entry k taken at p. -/
def logAddCorr (T : Nat → Nat) (k : Nat) (dd p : Int) : Int :=
  rneShift (sgn 16 (T k / 2 ^ 16) * 256 + sgn 16 (T k) * (dd - p)) 12

/-- Addition in the log domain through the table T (R175). -/
def lnsAdd (T : Nat → Nat) (a b : Nat) : Res :=
  let sa := bit a 15
  let sb := bit b 15
  if lnsZero a && lnsZero b then ⟨if sa && sb then 0xC000 else 0x4000, 0⟩
  else if lnsZero a then ⟨b, 0⟩
  else if lnsZero b then ⟨a, 0⟩
  else
    let x := if lnsL b ≤ lnsL a then a else b
    let y := if lnsL b ≤ lnsL a then b else a
    let dd := lnsL x - lnsL y
    if sa != sb && dd == 0 then ⟨0x4000, 0⟩
    else
      let c : Int :=
        if 16384 ≤ dd then 0
        else if sa == sb then logAddCorr T (dd / 512).toNat dd (512 * (dd / 512))
        else logAddCorr T (32 + (dd / 512).toNat) dd (512 * (dd / 512 + 1))
      let r := lnsOut (bit x 15) (lnsL x + c)
      ⟨r.pat, r.flags ||| (if dd = 0 then 0 else fNX)⟩

/-- VLADD (R175). -/
def execVladd (d a b : Nat) (k m : Bool) (s : State) : Out :=
  vector2 d a b k m 5 16 (lnsAdd s.myCore.logAdd) s

/-- VLSUB: the sign of b inverted first (R175). -/
def execVlsub (d a b : Nat) (k m : Bool) (s : State) : Out :=
  vector2 d a b k m 5 16 (fun x y => lnsAdd s.myCore.logAdd x (y % 2 ^ 15 + b2n (!bit y 15) * 2 ^ 15)) s

/-! ### Codebooks (R176, R177) -/

/-- Index bits of CB4, CB6, CB8 and CB12. -/
def idxBits (t : Nat) : Nat := match t with
  | 0 => 4 | 1 => 6 | 2 => 8 | _ => 12

/-- The first of a list of indices that is not below the valid count, marked (R44). -/
def checkIndices (k valid : Nat) (xs : List Nat) (s : State) : State :=
  match xs.find? fun x => decide (valid ≤ x) with
  | none => s
  | some x => s.markIndex k x

/-- A value with the bytes of disabled lanes cleared (R158). -/
def maskBytes (s : State) (n : Nat) (v : Nat) : Nat :=
  packNat 8 ((List.range n).map fun i => if s.lane i then v / 2 ^ (8 * i) % 256 else 0)

/-- VCBX: indices expanded through bank k's active half as it stands at issue (R176). -/
def execVcbx (d a bk : Nat) (k : Bool) (t : Nat) (s : State) : Out :=
  let g := s.myCore.cbcfgOf bk
  let ib := idxBits t
  let e := cbElen g * etypeBits (cbEtype g)
  let n := min (s.width / e) (s.width / ib)
  let x := readV a k s
  let xs := (List.range n).map fun i => elem ib i x.1
  let v := packNat e (xs.map fun i => s.myCore.cbEntry bk (cbEntryNo (cbWhole g) (cbAct g) i))
  .next (pushV d 2 0 (BitVec.ofNat 1024 (maskBytes s (s.width / 8) v)) (checkIndices bk (cbValid g) xs x.2))

/-- An LNS16 magnitude to 256 fraction bits, for comparisons (assumption log 7). -/
def lnsApprox (x : Nat) : Num :=
  let neg := bit x 15
  if lnsZero x then .fin neg 0 1
  else
    let l := lnsL x
    let i := l / 1024
    let f := (l - 1024 * i).toNat
    let c := root1024 (2 ^ (f + 256 * 1024)) 257 0
    let k := i - 256
    if 0 ≤ k then .fin neg (c * 2 ^ k.toNat) 1 else .fin neg c (2 ^ (-k).toNat)

/-- The value of a codebook element for the nearest-entry search. -/
def searchNum (t x : Nat) : Num := if t = 7 then lnsApprox x else (readFmt (etypeFmt t) x).1

/-- |x - e| for finite values, as a numerator over a denominator. -/
def distNum (x e : Num) : Nat × Nat :=
  ((x.snum * (e.den : Int) - e.snum * (x.den : Int)).natAbs, x.den * e.den)

/-- Is e nearer to x than the best so far? Both are candidates, neither NaN (R177). -/
def nearer (x e best : Num) : Bool :=
  match x with
  | .nan => false
  | .inf s => if s then ltNum false e best else ltNum false best e
  | .fin .. =>
    if e.isInf then false
    else if best.isInf then true
    else decide ((distNum x e).1 * (distNum x best).2 < (distNum x best).1 * (distNum x e).2)

/-- The nearest of a list of numbered candidates to x, ties to the lowest number (R177, R245). -/
def nearest (x : Num) (cs : List (Nat × Num)) : Option Nat :=
  match cs with
  | [] => none
  | c :: r => some (r.foldl (fun b e => if nearer x e.2 b.2 then e else b) c).1

/-- VCBN: the index of the nearest entry of the searched range (R177). -/
def execVcbn (d a bk : Nat) (k : Bool) (t : Nat) (s : State) : Out :=
  let g := s.myCore.cbcfgOf bk
  let ib := idxBits t
  let ty := cbEtype g
  let b := etypeBits ty
  let v := cbValid g
  let x := readV a k s
  let cs := ((List.range (min v (2 ^ ib))).map fun i =>
    (i, searchNum ty (s.myCore.cbEntry bk (cbEntryNo (cbWhole g) (cbAct g) i) % 2 ^ b))).filter
      fun c => !c.2.isNan
  let r := (List.range (s.width / max b ib)).map fun i =>
    if s.enabled b i then
      let y := searchNum ty (elem b i x.1)
      if y.isNan then ⟨0, fIV⟩
      else match nearest y cs with
        | none => ⟨0, fIV⟩
        | some j => ⟨j, 0⟩
    else (⟨0, 0⟩ : Res)
  .next (pushElems d 4 ib r (if v = 0 then x.2.markIndex bk 0 else x.2))

/-! ### Generators (R178) -/

/-- The Gaussian table of a core: its loaded entries over the reset contents (R115). -/
def Core.gaussT (c : Core) (k : Nat) : Nat := (Cells.get (BitVec.ofNat 32 (gaussReset.getD k 0)) k c.gtab).toNat

/-- VRNG: element i drawn under KSEED, GSTRM, member sa[63:48] and index sa[47:0] + i (R178). -/
def execVrng (d a : Nat) (k : Bool) (f : Nat) (s : State) : Out :=
  let x := readS a k s
  let v := x.1.toNat
  let u := fun i => keyedMix s.myCore.kseed.toNat s.me.gstrm.toNat (v / 2 ^ 48) ((v + i) % 2 ^ 48)
  let b := if f = 2 then 16 else 32
  let r : List Res := (List.range (s.width / b)).map fun i =>
    if f = 0 then ⟨u i, 0⟩ else if f = 1 then ⟨uniBinary32 (u i), 0⟩ else gauss s.myCore.gaussT (u i)
  .next (pushElems d 4 b r (x.2.check (v / 2 ^ 48 != roundMember) causeGeneratorKey))

end Sys2Proof.Machine
end

