-- ==== Sys2Proof/Machine/Tile.lean ====
section
/-!
DEFINITION. Tile instructions, spectral-element contraction, accumulator reads and moves between queues (R179 to R183).
-/

namespace Sys2Proof.Machine

/-- Bits of the enabled elements of a row write: n elements of b bits (R158, R179). -/
def rowEnables (s : State) (b n : Nat) : V1024 :=
  pack b ((List.range n).map fun i => if s.enabled b i then 2 ^ b - 1 else 0)

/-- VTWR, raw: row bits [w-1:0] := a bits [w-1:0], masked by byte (R179). -/
def execVtwr (t a b : Nat) (k m : Bool) (s : State) : Out :=
  let x := readV a k s
  let y := readS b m x.2
  .next (emit 2 0 (.tileRow t (y.1.toNat % 128) (rowEnables s 8 (s.width / 8)) x.1) (y.2.needTile t))

/-- VTWR, converting: w/32 binary32 elements converted into row elements 0 upward (R179). -/
def execVtwrCvt (t a b : Nat) (k m : Bool) (f : Nat) (s : State) : Out :=
  let dst := s.dstFmt f
  let bd := fmtBits dst
  let n := s.width / 32
  let md := s.rnd
  let x := readV a k s
  let y := readS b m x.2
  let r := mapElems s bd n fun i => convertPat (.flt fmtBinary32) (fmtOf dst) md 0 s.a128 (elem 32 i x.1)
  .next (emit 2 (orFlags r)
    (.tileRow t (y.1.toNat % 128) (rowEnables s bd n) (pack bd (r.map Res.pat))) (y.2.needTile t))

/-- VTRD, raw: row bits [w-1:0], masked by byte (R179). -/
def execVtrd (d t b : Nat) (m : Bool) (s : State) : Out :=
  let y := readS b m s
  let v := s.me.row t (y.1.toNat % 128)
  .next (pushElems d 2 8 (mapElems s 8 (s.width / 8) fun i => ⟨elem 8 i v, 0⟩) (y.2.needTile t))

/-- VTRD, converting: row elements 0 to w/32 - 1 converted to binary32 by RNE (R179). -/
def execVtrdCvt (d t b : Nat) (m : Bool) (f : Nat) (s : State) : Out :=
  let y := readS b m s
  let v := s.me.row t (y.1.toNat % 128)
  .next (pushElems d 2 32 (mapElems s 32 (s.width / 32) fun i =>
    convertPat (fmtOf f) (.flt fmtBinary32) .rne 0 false (elem (fmtBits f) i v)) (y.2.needTile t))

/-- The element at column c of row (row0 + i) mod 128 of a tile (R33, R179). -/
def columnElem (p : Part) (t b c row0 i : Nat) : Nat := elem b c (p.row t ((row0 + i) % 128))

/-- VTCR, raw: one column position gathered from w/b rows (R179). -/
def execVtcr (d t b : Nat) (m : Bool) (z : Nat) (s : State) : Out :=
  let n := szBits z
  let y := readS b m s
  let c := y.1.toNat % 256 % (1024 / n)
  .next (pushElems d 3 n (mapElems s n (s.width / n) fun i =>
    ⟨columnElem s.me t n c (Sys2Proof.fld y.1.toNat 8 7) i, 0⟩) (y.2.needTile t))

/-- VTCR, converting: the column's elements converted to binary32 by RNE (R179). -/
def execVtcrCvt (d t b : Nat) (m : Bool) (f : Nat) (s : State) : Out :=
  let n := fmtBits f
  let y := readS b m s
  let c := y.1.toNat % 256 % (1024 / n)
  .next (pushElems d 3 32 (mapElems s 32 (s.width / 32) fun i =>
    convertPat (fmtOf f) (.flt fmtBinary32) .rne 0 false
      (columnElem s.me t n c (Sys2Proof.fld y.1.toNat 8 7) i)) (y.2.needTile t))

/-- VCT8: groups of eight binary32 nodes contracted with the operator in rows 8 blk to 8 blk + 7 of the tile (R181). -/
def execVct8 (d a t : Nat) (k : Bool) (blk : Nat) (s : State) : Out :=
  let x := readV a k s
  let md := s.rnd
  .next (pushElems d 6 32 (mapElems s 32 (s.width / 32) fun j =>
    finish (.flt fmtBinary32) md 0 false
      (dotNums md ((List.range 8).map fun m =>
        (readFlt fmtBinary32 (elem 32 m (s.me.row t (8 * blk + j % 8))),
         readFlt fmtBinary32 (elem 32 (8 * (j / 8) + m) x.1))) [])) (x.2.needTile t))

/-! ### Accumulator reads (R182) -/

def AccCell.zero : AccCell := ⟨0, false⟩
def Core.accRow (c : Core) (t r : Nat) : List AccCell :=
  Cells.get (List.replicate 256 AccCell.zero) (32 * t + r % 32) c.acc
def Core.accCell (c : Core) (t r col : Nat) : AccCell := (c.accRow t r).getD (col % 256) AccCell.zero
def Core.tagOf (c : Core) (t : Nat) : AccTag := Cells.get ⟨false, 0⟩ t c.accTag

/-- The exact value X * 2^(EA - 64) of a cell (R195); zero where the cells carry HOLD = 0. -/
def accNum (g : AccTag) (x : Int) : Num :=
  if g.hold then scaleNum ((g.ea : Int) - 64) (numOfInt false x 1) else .fin false 0 1

/-- The micro-words that may execute after word w (R221). -/
def microNext (c : Core) (w : Nat) : List Nat :=
  match decodeMicro (Cells.get 0 w c.mpst).toNat with
  | .error _ => []
  | .ok i => match i with
    | .uEnd => []
    | .uJmp t => [t]
    | .uLdec _ t => [w + 1, t]
    | _ => [w + 1]

/-- The micro-words reached from those of a list. Each of the 1,024 words adds at most two to the list. -/
def microReach (c : Core) : Nat → List Nat → List Nat → List Nat
  | 0, _, seen => seen
  | _, [], seen => seen
  | n + 1, w :: r, seen =>
    if seen.contains w || decide (1024 ≤ w) then microReach c n r seen
    else microReach c n (microNext c w ++ r) (w :: seen)

/-- Does a micro-word write row r of accumulator tile t (R221)? A STRM that enables no band contributes nothing (R193). -/
def microWrites (c : Core) (t r w : Nat) : Bool :=
  let rows := fun (acc row cnt : Nat) => acc == t && decide (row ≤ r) && decide (r ≤ row + cnt)
  match decodeMicro (Cells.get 0 w c.mpst).toNat with
  | .error _ => false
  | .ok i => match i with
    | .uStrm acc row cnt _ osel => rows acc row cnt && (List.range 8).any fun b => !Sys2Proof.bit osel (4 * b + 2)
    | .uStrmz acc row cnt _ _ => rows acc row cnt
    | .uAaddm acc row cnt _ => rows acc row cnt
    | .uAadd acc row cnt _ => rows acc row cnt
    | .uAclr acc => acc == t
    | _ => false

/-- A call whose produced tag is not yet set is still writing row r of tile t: a word that its routine reaches writes it, or its
completion clears the tile (R182, R221). -/
def Core.accBusy (c : Core) (t r : Nat) : Bool :=
  c.calls.any fun q => match q.kind with
    | .mcall n => Sys2Proof.bit q.acm t || (Sys2Proof.bit q.awm t
        && (microReach c 2049 [Sys2Proof.fld (Cells.get 0 (n / 4) c.mpst).toNat (32 * (n % 4)) 10] []).any (microWrites c t r))
    | _ => false

/-- VACRD: one row of an accumulator tile converted; a cell that a call is still writing gives an indeterminate element, and the
flags of converting some cell (R110, R182, R12). -/
def execVacrd (d t b : Nat) (m : Bool) (f : Nat) (s : State) : Out :=
  let dst := s.dstFmt f
  let bd := fmtBits dst
  let n := s.width / bd
  let md := s.rnd
  let y := readS b m s
  let v := y.1.toNat
  let c := s.myCore
  let busy := c.accBusy t (v % 32)
  let r := mapElems s bd n fun i =>
    if busy then
      let x := sgn 80 (Config.freeNat (s.freeCtr + 3 * i + 1))
      ⟨Config.freeNat (s.freeCtr + 3 * i) % 2 ^ bd,
        (convertNum (fmtOf dst) md 0 s.a128 (accNum ⟨true, Config.freeNat (s.freeCtr + 3 * i + 2) % 128⟩ x)).flags⟩
    else convertNum (fmtOf dst) md 0 s.a128
      (accNum (c.tagOf t) (c.accCell t (v % 32) (v / 2 ^ 8 % 256 + i)).x)
  .next (pushElems d 4 bd r (if busy then { y.2 with freeCtr := y.2.freeCtr + 3 * n } else y.2))

/-! ### Moves between queues (R183) -/

/-- VSPLAT: the low bits of a scalar entry in every element (R183). -/
def execVsplat (d a : Nat) (k : Bool) (z : Nat) (s : State) : Out :=
  let b := szBits z
  let x := readS a k s
  .next (pushElems d 2 b (mapElems s b (s.width / b) fun _ => ⟨x.1.toNat % 2 ^ b, 0⟩) x.2)

/-- VEXT: element sb[6:0] mod (w/b), zero-extended, to a scalar queue (R183). -/
def execVext (d a b : Nat) (k m : Bool) (z : Nat) (s : State) : Out :=
  let n := szBits z
  let x := readV a k s
  let y := readS b m x.2
  .next (pushS d 2 0 (BitVec.ofNat 64 (elem n (y.1.toNat % 128 % (s.width / n)) x.1)) y.2)

/-- VSEL: byte lanes of a where the mask is 1, of b elsewhere; both are read (R183). -/
def execVsel (d a b : Nat) (k m : Bool) (j : Nat) (s : State) : Out :=
  let x := readV a k s
  let y := readV b m x.2
  .next (pushElems d 2 8 ((List.range (s.width / 8)).map fun i =>
    ⟨if (s.maskReg j).getLsbD i then elem 8 i x.1 else elem 8 i y.1, 0⟩) y.2)

/-- VMOV: bits [w-1:0] of a, masked by byte (R183). -/
def execVmov (d a : Nat) (k : Bool) (s : State) : Out := vector1 d a k 2 8 (fun x => ⟨x, 0⟩) s

end Sys2Proof.Machine
end

