-- ==== Sys2Proof/Machine/Matrix.lean ====
section
/-!
DEFINITION. The arithmetic of the bit-serial matrix unit without its clocks: operands (R187, R188, R198), weight-bank
loads and their census (R191, R224, R228), band clocks (R193), contributions (R196, R197) and drains (R200).
-/

namespace Sys2Proof.Machine

/-! ### The precision control word (R189, R190) -/

def pcWfmt (p : W64) : Nat := pcwField p 0 5
def pcAfmt (p : W64) : Nat := pcwField p 5 5
def pcPlim (p : W64) : Nat := pcwField p 10 3
def pcEa (p : W64) : Nat := pcwField p 14 8
def pcDfmt (p : W64) : Nat := pcwField p 22 4
def pcDrnd (p : W64) : Nat := pcwField p 26 2
def pcSm (p : W64) : Bool := Sys2Proof.bit p.toNat 28
def pcZsk (p : W64) : Bool := Sys2Proof.bit p.toNat 29
def pcSwe (p : W64) : Bool := Sys2Proof.bit p.toNat 30
def pcA128 (p : W64) : Bool := Sys2Proof.bit p.toNat 31
def pcWcb (p : W64) : Nat := pcwField p 32 3
def pcAcb (p : W64) : Nat := pcwField p 35 3
def pcDcb (p : W64) : Nat := pcwField p 38 3
def pcDix (p : W64) : Bool := Sys2Proof.bit p.toNat 41
def pcMemb (p : W64) : Nat := pcwField p 48 16

/-- The drain fields that ACDRN checks too (R190). -/
def drainBad (p : W64) : Bool :=
  (decide (5 ≤ pcDfmt p) && decide (pcDfmt p ≤ 8)) || pcDrnd p == 3 || pcwField p 42 6 != 0

/-- The codebook codes of R187. -/
def isCb (code : Nat) : Bool := decide (9 ≤ code) && decide (code ≤ 11)

/-- The precision-word checks of MCALL (R190), against the bank configurations as they stand. -/
def pcwBad (c : Core) (p : W64) : Bool :=
  let w := pcWfmt p
  let a := pcAfmt p
  let nat := fun x => decide (x ≤ 6) || isCb x
  let com := fun x => decide (12 ≤ x) && decide (x ≤ 24)
  drainBad p || decide (25 ≤ w) || decide (25 ≤ a) || w == 8
    || (!pcSm p && (com w || com a)) || (pcSm p && (nat w || nat a))
    || (isCb w && (cbEtype (c.cbcfgOf (pcWcb p)) != 0 || cbElen (c.cbcfgOf (pcWcb p)) != 1))
    || (isCb a && ((cbEtype (c.cbcfgOf (pcAcb p)) != 0 && cbEtype (c.cbcfgOf (pcAcb p)) != 6)
        || cbElen (c.cbcfgOf (pcAcb p)) != 1))
    || (pcSwe p && ((w != 6 && w != 12) || cbEtype (c.cbcfgOf (pcDcb p)) != 4 || cbElen (c.cbcfgOf (pcDcb p)) != 1))

/-! ### Operand formats (R187, R188) -/

/-- Bits of one element in the scratchpad. -/
def codeBits (code : Nat) : Nat :=
  if code ≤ 6 then code + 2
  else match code with
    | 7 => 8 | 8 => 16 | 9 => 4 | 10 => 6 | 11 => 8 | 12 => 16
    | 15 => 6 | 16 => 6 | 17 => 4 | 21 => 6 | 22 => 6 | 23 => 4 | _ => 8

/-- The bytes of a block of 16 elements. -/
def blockBytes (code : Nat) : Nat := 2 * codeBits code

/-- Has the code an E8M0 scale for every 32 elements? -/
def isMx (code : Nat) : Bool := decide (19 ≤ code)

/-- The element format of the compatibility codes. -/
def codeFmt (code : Nat) : Fmt :=
  fmtOf (match code with
    | 12 => 2 | 13 => 3 | 19 => 3 | 14 => 4 | 20 => 4 | 15 => 5 | 21 => 5
    | 16 => 6 | 22 => 6 | 17 => 7 | 23 => 7 | _ => 8)

/-- The planes of a weight, and the width of an activation element (R187). -/
def planesOf (code : Nat) : Nat := if code ≤ 6 then code + 2 else 8
def actWidth (k : Call) : Nat :=
  let a := pcAfmt k.pcw
  if a ≤ 6 then a + 2
  else if isCb a then (match k.cbs.find? fun b => b.k == pcAcb k.pcw with
    | some b => if b.etype = 0 then 8 else 16
    | none => 8)
  else if a = 8 ∨ a = 12 then 16 else 8

/-- Fields of an operand descriptor (R188). -/
def dOfs (d : W64) : Nat := Sys2Proof.fld d.toNat 7 16 * 128
def dStr (d : W64) : Nat := Sys2Proof.fld d.toNat 23 16 * 128
def dCmp (d : W64) : Bool := Sys2Proof.bit d.toNat 39
def dNbl (d : W64) : Nat := Sys2Proof.fld d.toNat 40 5 + 1
def dBad (d : W64) : Bool := d.toNat / 2 ^ 45 != 0

/-- n bytes of a slice from offset a, wrapping (R188). -/
def sliceBytes (m : Mem) (a n : Nat) : List W8 :=
  let a := a % 2 ^ 23
  if a + n ≤ 2 ^ 23 then m.bytes a n else m.bytes a (2 ^ 23 - a) ++ m.bytes 0 (a + n - 2 ^ 23)

/-- The tiles that n bytes at a logical offset of a compressed operand lie in, each with the offset of its first byte. All
offsets are taken modulo 2^23, so a run of bytes goes on at tile 0 (R188). -/
def tilesAt (l n : Nat) : List (Nat × Nat) :=
  (List.range ((l + n - 1) / 256 - l / 256 + 1)).map fun i => ((l / 256 + i) % 2 ^ 15, 256 * (l / 256 + i))

/-- The slice and the side banks as the expander of a compressed operand read them: 4 clocks before it delivers (R345, R346). -/
def Core.expanded (c : Core) : Mem := (c.past.getD 4 (c.slice, c.side)).1
def Core.sideSeen (c : Core) : Mem := (c.past.getD 4 (c.slice, c.side)).2

/-- n bytes at a logical offset of an operand: in place, or through the read-port expander (R188, R251). -/
def operandBytes (c : Core) (d : W64) (l n : Nat) : Except LateFault (List W8) :=
  if dCmp d then do
    let l := l % 2 ^ 23
    let ts ← (tilesAt l n).mapM fun t => readTile c.expanded (dOfs d) t.1
    return (ts.flatten.drop (l % 256)).take n
  else .ok (sliceBytes c.slice (dOfs d + l) n)

/-- Where the bytes of an operand lie, as first and last offsets: of a compressed one its base and the stored bytes of each
tile (R209; DEDUCED, assumption log 96). -/
def operandSpans (c : Core) (d : W64) (l n : Nat) : List (Nat × Nat) :=
  if dCmp d then
    (dOfs d, dOfs d) :: (tilesAt (l % 2 ^ 23) n).filterMap fun t => tileSpan c.expanded (dOfs d) t.1
  else [((dOfs d + l) % 2 ^ 23, (dOfs d + l + n - 1) % 2 ^ 23)]

/-- The bank-conflict check of an operand against its reserved group (R209). -/
def groupCheck (c : Core) (group : Nat) (d : W64) (l n : Nat) : Except LateFault Unit :=
  if (operandSpans c d l n).all fun x => x.1 / 2 ^ 21 == group && x.2 / 2 ^ 21 == group then .ok ()
  else .error ⟨causeBankConflict, 0, 0⟩

/-- A parameter register as a call holds it, and the bank group of a descriptor. -/
def Call.mp (k : Call) (i : Nat) : W64 := Cells.get 0 i k.mps
def groupOf (d : W64) : Nat := Sys2Proof.fld d.toNat 21 2

/-- The scale index of the block whose first byte is at an operand's logical offset (R235), as it stood on the clock on which that
byte was read (R341). -/
def sideIndex (c : Core) (d : W64) (l : Nat) : Nat :=
  ((if dCmp d then c.sideSeen else c.side).read ((dOfs d + l) % 2 ^ 23 / 2)).toNat % 16

/-- The value of a scale-table entry as a multiple and an exponent; none for E = 255 (R54). -/
def scaleOf (t : Cells W16) (i : Nat) : Option (Nat × Int) :=
  let e := (Cells.get 0x7F00 i t).toNat / 256
  if e = 255 then none
  else if e = 0 then some (0, 0)
  else some (256 + (Cells.get 0x7F00 i t).toNat % 256, (e : Int) - 135)

def scaleFault : LateFault := ⟨causeScale, 0, 0⟩
def microFault : LateFault := ⟨causeMicroroutine, 0, 0⟩

/-- A rational mult * 2^e. -/
def pow2Num (neg : Bool) (n : Nat) (e : Int) : Num :=
  if 0 ≤ e then .fin neg (n * 2 ^ e.toNat) 1 else .fin neg n (2 ^ (-e).toNat)

/-! ### Reading blocks (R99, R101, R198) -/

/-- The sixteen values of a block: exact, with the flags the read port raises. The scale bytes of MX codes are
multiplied in exactly (R94, R197); a non-finite element is read as zero. -/
structure Block where
  vals  : List Num
  idx   : Nat
  flags : Nat
deriving DecidableEq, Repr

/-- A finite reading, with IV for a NaN and OF for an infinity (R198). -/
def finiteOf (x : Num) : Num × Nat :=
  match x with
  | .nan => (.fin false 0 1, fIV)
  | .inf _ => (.fin false 0 1, fOF)
  | v => (v, 0)

/-- A block of format code from its bytes; cb is the captured bank of a codebook code, scale the E8M0 byte of an MX
code, idx its side-bank index, which it keeps in every format (R224). -/
def readBlock (c : Core) (code : Nat) (cb : Option CapBank) (scale : Option W8) (idx : Nat) (bs : List W8) :
    Except LateFault Block :=
  let v := joinBytes bs
  let b := codeBits code
  if code ≤ 6 then
    .ok ⟨(List.range 16).map fun j => .fin (Sys2Proof.bit v (16 * (b - 1) + j))
      (sgn b (packNat 1 ((List.range b).map fun k => b2n (Sys2Proof.bit v (16 * k + j))))).natAbs 1, idx, 0⟩
  else if code ≤ 8 then
    .ok ⟨(List.range 16).map fun j => readFix b true 0 (Sys2Proof.fld v (b * j) b), idx, 0⟩
  else if isCb code then
    match cb with
    | none => .error microFault
    | some k =>
      let ix := (List.range 16).map fun j => Sys2Proof.fld v (b * j) b
      match ix.find? fun i => decide (k.valid ≤ i) with
      | some i => .error ⟨causeInvalidIndex, i + 4096 * k.k, 0⟩
      | none =>
        let eb := if k.etype = 0 then 8 else 16
        .ok ⟨ix.map fun i => readFix eb true 0 (c.cbEntry k.k (cbEntryNo k.whole k.act i)), idx, 0⟩
  else
    let rs := (List.range 16).map fun j =>
      let x := (readFmt (codeFmt code) (Sys2Proof.fld v (b * j) b)).1
      finiteOf (match scale with
        | none => x
        | some e => if e.toNat = 255 then .nan else (mulNum x (pow2Num false 1 ((e.toNat : Int) - 127))).1)
    .ok ⟨rs.map Prod.fst, idx, rs.foldl (fun a r => a ||| r.2) 0⟩

/-! ### Weight banks (R184, R191, R192, R224, R228) -/

/-- The weight block of band b, column n, as WLD reads it from descriptor d (R188). The block must lie in the B group, the scale byte
of an MX block need not (R209; DEDUCED, assumption log 114). -/
def readWeights (c : Core) (k : Call) (d : W64) (b n : Nat) : Except LateFault Block := do
  let code := pcWfmt k.pcw
  let bw := blockBytes code
  let l := (256 * b + n) * bw
  groupCheck c k.bgrp d l bw
  let bs ← operandBytes c d l bw
  let scale ← if isMx code then do
      let x ← operandBytes c d (2048 * bw + 256 * (b / 2) + n) 1
      pure x.head?
    else pure none
  let r ← readBlock c code (k.cbs.find? fun x => x.k == pcWcb k.pcw) scale (sideIndex c d l) bs
  if code ≤ 6 && (scaleOf k.sctab r.idx).isNone then throw scaleFault else return r

/-- One weight formed from its mean, its deviation and its key (R228): its value and flags. For a PBF-8 mean the value
is the mantissa, for a BF16 mean the rounded BF16 value. -/
def formWeight (c : Core) (k : Call) (mean : Num) (sigma : Nat × Int) (delta : Num × Nat) (idx : Nat) : Num × Nat :=
  let g := gauss c.gaussT (keyedMix c.kseed.toNat k.gstrm.toNat k.mem idx)
  let eps := readFix 16 true 12 g.pat
  let dev := (mulNum delta.1 eps).1
  if pcWfmt k.pcw = 6 then
    if sigma.1 = 0 then (.fin false 0 1, delta.2 ||| g.flags)
    else
      -- in units of sigma * 2^-7
      let x := (sumNums .rne [mean, (divNum dev (pow2Num false sigma.1 (sigma.2 - 7))).1]).1
      let r := roundCount .rne 0 x.snum.natAbs x.den
      let bound := if pcA128 k.pcw && x.neg then 128 else 127
      if bound < r.1 then (.fin x.neg bound 1, delta.2 ||| g.flags ||| fSAT)
      else (.fin x.neg r.1 1, delta.2 ||| g.flags ||| (if r.2 then fNX else 0))
  else
    let r := convertNum (.flt fmtBF16) .rne 0 false (sumNums .rne [mean, dev]).1
    let v := finiteOf (readFlt fmtBF16 r.pat)
    (v.1, delta.2 ||| g.flags ||| r.flags ||| v.2)

/-- The stochastic weights of one source block (R228, R229): pb is the log-deviation descriptor. -/
def stochBlock (c : Core) (k : Call) (pb : W64) (b n : Nat) (r : Block) : Except LateFault Block := do
  let ib := if pcDix k.pcw then 6 else 4
  let l := (256 * b + n) * (2 * ib)
  groupCheck c k.bgrp pb l (2 * ib)
  let bs ← operandBytes c pb l (2 * ib)
  match k.cbs.find? fun x => x.k == pcDcb k.pcw with
  | none => throw microFault
  | some cb =>
    let ix := (List.range 16).map fun j => Sys2Proof.fld (joinBytes bs) (ib * j) ib
    match ix.find? fun i => decide (cb.valid ≤ i) with
    | some i => throw ⟨causeInvalidIndex, i + 4096 * cb.k, 0⟩
    | none =>
      let sigma := (scaleOf k.sctab r.idx).getD (0, 0)
      let ws := (ix.zip r.vals).zipIdx.map fun x =>
        let delta := match readFlt fmtBF16 (c.cbEntry cb.k (cbEntryNo cb.whole cb.act x.1.1)) with
          | .fin s p q => (Num.fin s p q, 0)
          | _ => (Num.fin false 0 1, fIV)
        formWeight c k x.1.2 sigma delta ((k.xb + 256 * (16 * b + x.2) + n) % 2 ^ 48)
      return ⟨ws.map Prod.fst, r.idx, ws.foldl (fun a w => a ||| w.2) r.flags⟩

/-- The expansion of a compatibility block (R197): counts of units of 2^x, signs kept, the exponent x, and NX where an
element rounds. top is the place of the leading bit: 7 for weights, a - 2 for activations. -/
def expandBlock (top : Int) (vals : List Num) : List (Bool × Nat) × Int × Nat :=
  let es := (vals.filter fun v => !v.isZero).map fun v => floorLog2 v.snum.natAbs v.den
  match es with
  | [] => (vals.map fun _ => (false, 0), 0, 0)
  | e :: r =>
    let x := r.foldl max e - top
    let cs := vals.map fun v =>
      let u := inUnits v.snum.natAbs v.den x
      (v.neg, roundCount .rne 0 u.1 u.2)
    (cs.map fun q => (q.1, q.2.1), x, if cs.any fun q => q.2.2 then fNX else 0)

/-- A weight's word of R332: its planes, sign latch and scale index. -/
def weightWord (planes : Nat) (latch : Bool) (idx : Nat) : W16 :=
  BitVec.ofNat 16 (planes % 256 + 256 * b2n latch + 512 * (idx % 16))

/-- Bits that a plane count needs: one below the width of the shortest two's complement form. -/
def signSize (v : Int) : Nat :=
  let n := if 0 ≤ v then v.toNat else (-v - 1).toNat
  if n = 0 then 0 else Nat.log2 n + 1

/-- Trailing zeros of a byte, 8 for zero. -/
def trailing (x : Nat) : Nat := ((List.range 8).find? fun k => Sys2Proof.bit x k).getD 8

/-- The census of one band's words (R191): native mode counts sign-extension planes, compatibility mode leading zero
planes; PLIM keeps at most k planes. -/
def censusOf (sm : Bool) (plim : Nat) (ws : List W16) : Census :=
  let ps := ws.map fun w => w.toNat % 256
  if ps.all fun p => p == 0 then ⟨0, 0, 0⟩
  else
    let hi := if sm then Nat.log2 (ps.foldl max 0) else (ps.map fun p => signSize (sgn 8 p)).foldl max 0
    let t := (ps.map trailing).foldl min 8
    let lo := if plim = 0 then t else max t (hi + 1 - plim)
    ⟨hi, lo, hi + 1 - lo⟩

/-- The source block that cell (16 b + j, n) of a bank takes its weight from, and the element there (R224). -/
def cellSource (tr h : Bool) (b n j : Nat) : Nat × Nat × Nat :=
  if tr then (n / 16, 128 * b2n h + 16 * b + j, n % 16) else (b, n, j)

/-- A weight-bank load (R224): the new bank and the call's flags, or its fault. The zeroed columns of a transposed load have scale
index 0 (DESIGN CHOICE, assumption log 113). -/
def loadBank (c : Core) (k : Call) (pa pb : W64) (tr h : Bool) : Except LateFault (WBank × Nat) := do
  if dBad pa || (pcSwe k.pcw && dBad pb) then throw microFault
  if pcSwe k.pcw && k.mem = 0xFFFF then throw ⟨causeGeneratorKey, 0, 0⟩
  let cols := if tr then 128 else 256
  let src ← (List.range (8 * cols)).mapM fun i => do
    let b := i / cols
    let n := i % cols + (if tr then 128 * b2n h else 0)
    let r ← readWeights c k pa b n
    let r ← if pcSwe k.pcw then stochBlock c k pb b n r else pure r
    pure (256 * b + n, r)
  let get := fun (b n : Nat) => Cells.get (⟨[], 0, 0⟩ : Block) (256 * b + n) src
  let blocks := (List.range 2048).map fun i =>
    let b := i / 256
    let n := i % 256
    let cells := (List.range 16).map fun j =>
      if tr && decide (128 ≤ n) then (Num.fin false 0 1, 0)
      else let q := cellSource tr h b n j; let r := get q.1 q.2.1; (r.vals.getD q.2.2 (.fin false 0 1), r.idx)
    if pcSm k.pcw then
      let e := expandBlock 7 (cells.map Prod.fst)
      ((e.1.zip cells).map fun x => weightWord x.1.2 x.1.1 x.2.2, e.2.1, e.2.2)
    else (cells.map fun x => weightWord (low 8 x.1.snum) false x.2, 0, 0)
  let census := (List.range 8).map fun b =>
    (b, censusOf (pcSm k.pcw) (pcPlim k.pcw) (((blocks.drop (256 * b)).take 256).flatMap fun x => x.1))
  let bank : WBank := ⟨0, blocks.zipIdx.map fun x => (x.2, x.1.1), blocks.zipIdx.map fun x => (x.2, x.1.2.1), census,
    pcPlim k.pcw⟩
  return (bank, src.foldl (fun a r => a ||| r.2.flags) (blocks.foldl (fun a x => a ||| x.2.2) 0))

/-- The words of a block, its exponent, and the census of a band: zero, or free where the bank is indeterminate. -/
def WBank.block (w : WBank) (i : Nat) : List W16 :=
  Cells.get (if w.fill = 0 then List.replicate 16 0
    else (List.range 16).map fun j => Config.freeWeight w.fill (16 * i + j)) i w.blocks
def WBank.expo (w : WBank) (i : Nat) : Int :=
  Cells.get (if w.fill = 0 then 0 else ((Config.freeWeight w.fill (32768 + i)).toNat : Int) - 2 ^ 15) i w.exps
def WBank.censusOf (w : WBank) (b : Nat) : Census :=
  let f := (Config.freeWeight w.fill (65536 + b)).toNat
  Cells.get (if w.fill = 0 then ⟨0, 0, 0⟩ else ⟨f % 8, f / 8 % 8 % (f % 8 + 1), f % 8 + 1 - f / 8 % 8 % (f % 8 + 1)⟩)
    b w.census

/-- The truncated weight m' of R192 from its word, under a band's census, in the mode of the call that streams (DEDUCED,
assumption log 92). -/
def truncWeight (sm : Bool) (g : Census) (w : W16) : Int :=
  if g.n = 0 then 0
  else if sm then
    let m : Int := (w.toNat % 2 ^ (g.hi + 1) % 256 / 2 ^ g.lo * 2 ^ g.lo : Nat)
    if Sys2Proof.bit w.toNat 8 then -m else m
  else sgn (g.hi + 1) (w.toNat % 256) / 2 ^ g.lo * 2 ^ g.lo

/-! ### Streams (R193, R196 to R198, R225) -/

/-- Band fields of OSEL (R220). -/
def bandOff (osel b : Nat) : Bool := Sys2Proof.bit osel (4 * b + 2)
def bandSel (osel b : Nat) : Nat := Sys2Proof.fld osel (4 * b) 2

/-- The plane limit kept with a bank, a free one where the bank is indeterminate (R191, R20). -/
def WBank.limit (w : WBank) : Nat := if w.fill = 0 then w.plim else (Config.freeWeight w.fill 65544).toNat % 8

/-- The clocks of each enabled band on a row (R186, R193): the width is that of the streaming call's PCW, the plane limit the
bank's (DEDUCED, assumption log 93). -/
def bandClocks (lock : Bool) (k : Call) (w : WBank) (osel : Nat) : List Nat :=
  let bpc := if actWidth k ≤ 8 && !Sys2Proof.bit k.pcw.toNat 13 then 2 else 1
  let lim := if w.limit = 0 then 8 else w.limit
  let pad := (min (planesOf (pcWfmt k.pcw)) lim + bpc - 1) / bpc
  ((List.range 8).filter fun b => !bandOff osel b).map fun b =>
    if !lock && pcZsk k.pcw then max 1 (((w.censusOf b).n + bpc - 1) / bpc) else pad

/-- An activation window: its blocks, as STRM reads and checks them (R188, R198, R225). -/
def readWindow (c : Core) (k : Call) (d : W64) (i : Nat) : Except LateFault (List Block) := do
  let code := pcAfmt k.pcw
  let bw := blockBytes code
  let n := dNbl d
  let l := i * dStr d
  groupCheck c k.agrp d l (n * bw + (if isMx code then n / 2 else 0))
  (List.range n).mapM fun j => do
    let bs ← operandBytes c d (l + j * bw) bw
    let scale ← if isMx code then do
        let x ← operandBytes c d (l + n * bw + j / 2) 1
        pure x.head?
      else pure none
    let r ← readBlock c code (k.cbs.find? fun x => x.k == pcAcb k.pcw) scale (sideIndex c d (l + j * bw)) bs
    if code ≤ 6 && (scaleOf k.sctab r.idx).isNone then throw scaleFault else return r

/-- An integer times 2^s rounded to an integer: to nearest even on its magnitude, or toward minus infinity; and
whether it was inexact. -/
def roundPow (down : Bool) (n s : Int) : Int × Bool :=
  if 0 ≤ s then (n * 2 ^ s.toNat, false)
  else
    let d : Nat := 2 ^ (-s).toNat
    if down then (n / (d : Int), n % (d : Int) != 0)
    else
      let r := roundCount .rne 0 n.natAbs d
      (if n < 0 then -(r.1 : Int) else (r.1 : Int), r.2)

/-- The scale of a weight's word in the streaming call's table; 1 where the weights carry none (R196). -/
def weightScale (k : Call) (w : W16) : Nat × Int :=
  if pcWfmt k.pcw ≤ 6 then (scaleOf k.sctab (Sys2Proof.fld w.toNat 9 4)).getD (0, 0) else (1, 0)

/-- The contribution of a band block and an activation block in native mode (R196). -/
def nativeTerm (k : Call) (g : Census) (ws : List W16) (act : Block) : Int × Bool :=
  let sa := if pcAfmt k.pcw ≤ 6 then (scaleOf k.sctab act.idx).getD (0, 0) else (1, 0)
  let terms := (ws.zip act.vals).map fun x =>
    let sw := weightScale k x.1
    (x.2.snum * truncWeight false g x.1 * (sw.1 : Int), sw.2)
  let e0 := (terms.map Prod.snd).foldl min 0
  let p := (terms.map fun t => t.1 * 2 ^ (t.2 - e0).toNat).sum * (sa.1 : Int)
  let fa : Int := if pcAfmt k.pcw ≤ 6 then 1 - (pcAfmt k.pcw + 2 : Nat) else 0
  let fw : Int := if pcWfmt k.pcw ≤ 6 then 1 - (pcWfmt k.pcw + 2 : Nat) else 0
  roundPow false p (e0 + sa.2 + fa + fw - ((pcEa k.pcw : Int) - 64))

/-- The contribution in compatibility mode (R197): the expanded activation's counts, signs and exponent. -/
def compatTerm (k : Call) (g : Census) (xw : Int) (ws : List W16) (act : List (Bool × Nat) × Int) : Int × Bool :=
  let p := ((ws.zip act.1).map fun x =>
    truncWeight true g x.1 * (if x.2.1 then -(x.2.2 : Int) else (x.2.2 : Int))).sum
  roundPow true p (xw + act.2 - ((pcEa k.pcw : Int) - 64))

/-- One activation row: every column's contributions in band order with their sticky bits, and the call's flags. -/
def streamRow (c : Core) (k : Call) (w : WBank) (d : W64) (osel i : Nat) :
    Except LateFault (List (List Int × Bool) × Nat) := do
  let win ← readWindow c k d i
  let bands := (List.range 8).filter fun b => !bandOff osel b
  let acts := bands.map fun b =>
    let r := win.getD (b + 8 * bandSel osel b) ⟨[], 0, 0⟩
    (b, r, expandBlock ((actWidth k : Int) - 2) r.vals)
  let allExp := if pcSm k.pcw
    then win.foldl (fun a r => a ||| (expandBlock ((actWidth k : Int) - 2) r.vals).2.2) 0 else 0
  let cols := (List.range 256).map fun n =>
    let ts := acts.map fun x =>
      let ws := w.block (256 * x.1 + n)
      if pcSm k.pcw then compatTerm k (w.censusOf x.1) (w.expo (256 * x.1 + n)) ws (x.2.2.1, x.2.2.2.1)
      else nativeTerm k (w.censusOf x.1) ws x.2.1
    (ts.map Prod.fst, ts.any Prod.snd)
  return (cols, win.foldl (fun a r => a ||| r.flags) allExp)

/-- The scale check at the start of a stream: every weight's recorded index (R196); a weight of no source block has index 0 (DESIGN
CHOICE, assumption log 113). -/
def bankScalesOk (k : Call) (w : WBank) : Bool :=
  decide (6 < pcWfmt k.pcw) || (List.range 2048).all fun i => (w.block i).all fun x =>
    (scaleOf k.sctab (Sys2Proof.fld x.toNat 9 4)).isSome

/-! ### Accumulation and drains (R199, R200, R226) -/

/-- Adding one integer into a cell, with saturation (R199). -/
def addCell (x t : Int) : Int × Nat :=
  if 2 ^ 79 - 1 < x + t then (2 ^ 79 - 1, fOF)
  else if x + t < -2 ^ 79 then (-2 ^ 79, fOF)
  else (x + t, 0)

/-- A cell after the additions of one landing, and the flags. -/
def addTerms (a : AccCell) (ts : List Int × Bool) : AccCell × Nat :=
  let r := ts.1.foldl (fun (r : Int × Nat) t => let q := addCell r.1 t; (q.1, r.2 ||| q.2)) (a.x, 0)
  (⟨r.1, a.s || ts.2⟩, r.2)

/-- The drained element of a cell: pattern and flags (R200). -/
def drainCell (c : Core) (k : Call) (g : AccTag) (a : AccCell) (i col : Nat) : Res :=
  let mode : RMode := match pcDrnd k.pcw with
    | 0 => .rne | 1 => .rtz | _ => .sr
  let uni := roundUni c.kseed.toNat k.gstrm.toNat ((k.xb + 256 * i + col) % 2 ^ 48)
  let r := convertNum (fmtOf (pcDfmt k.pcw)) mode uni (pcA128 k.pcw) (accNum g a.x)
  if a.s && r.flags &&& (fSAT + fOF) == 0 then ⟨r.pat, r.flags ||| fNX⟩ else r

/-- The exact form of a cell (R226). -/
def exactForm (ea : Nat) (a : AccCell) : Nat := low 80 a.x + 2 ^ 80 * b2n a.s + 2 ^ 88 * ea

end Sys2Proof.Machine
end

