-- ==== Sys2Proof/Machine/MatrixOps.lean ====
section
/-!
DEFINITION. Slot-3 matrix instructions, the call queue, and the micro-operations (R202 to R229). A micro-operation runs
for the running call of its core; one that works on rows runs once for each row, on the clock the row is processed.
-/

namespace Sys2Proof.Machine

/-! ### Tags (R239) -/

/-- A command or call takes its produced tag at issue: cleared, and the new latest producer (R239). -/
def claimTag (g id : Nat) (s : State) : State :=
  s.updMe fun p => { p with tags := p.tags &&& ~~~(BitVec.ofNat 64 (2 ^ g)), owners := Cells.put g id p.owners }

/-- At completion the tag is set only by its latest producer, and flags are merged (R239, R52). -/
def completeTag (p g id flags : Nat) (s : State) : State :=
  s.updPart p fun x =>
    let m := BitVec.ofNat 64 (if Cells.get 0 g x.owners = id then 2 ^ g else 0)
    { x with tags := x.tags ||| m, setNow := x.setNow ||| m,
             flags := x.flags ||| BitVec.ofNat 6 flags, orNow := x.orNow ||| BitVec.ofNat 6 flags }

/-- The tags a C or E word consumes: GA, GB and the header's X3, those equal to GP left out (R66, R72). -/
def consumed (s : State) (p a b : Nat) : List Nat :=
  ([a, b] ++ (if s.cur.mod.headed then [s.cur.mod.ext] else [])).filter fun g => g != p

def Part.tagsSet (p : Part) (gs : List Nat) : Bool := gs.all fun g => p.tags.getLsbD g

/-! ### Entering the call queue (R204, R206) -/

/-- The CBCFG fields a call captures of bank k (R204). -/
def captureBank (c : Core) (k : Nat) : CapBank :=
  let g := c.cbcfgOf k
  ⟨k, cbWhole g, cbAct g, cbEtype g, cbElen g, cbValid g⟩

/-- The banks a call's formats use (R204). -/
def capturedBanks (c : Core) (p : W64) : List CapBank :=
  ((if isCb (pcWfmt p) then [pcWcb p] else []) ++ (if isCb (pcAfmt p) then [pcAcb p] else []) ++
    (if pcSwe p then [pcDcb p] else [])).map (captureBank c)

/-- A new entry, with what it captures at issue. -/
def newCall (s : State) (kind : CallKind) (tag : Option Nat) (needs : List Nat) : Call where
  id := s.nextId
  kind := kind
  gpi := s.cur.gpi
  bno := s.me.bno
  pc := s.me.pc
  half := s.me.half
  grp := s.cur.group
  tag := tag
  needs := needs
  age := 0
  stage := .queued
  pcw := s.me.pcw
  gstrm := s.me.gstrm
  mps := s.me.mps
  agrp := groupOf (Cells.get 0 0 s.me.mps)
  bgrp := groupOf (Cells.get 0 1 s.me.mps)
  sctab := s.myCore.sctab
  cbs := []
  awm := 0
  acm := 0
  word := 0
  row := 0
  xb := 0
  mem := pcMemb s.me.pcw
  loops := []
  btag := false
  flags := 0
  rows := 0
  moved := 0
  busy := 0
  primed := false
  waiting := false
  syncing := false
  stepped := false
  bands := []
  land := 0
  ended := 0
  held := false
  fault := none

/-- The queue is full: eight entries that have not ended (R206; DEDUCED, assumption log 111). -/
def Core.queueFull (c : Core) : Bool := decide (8 ≤ (c.calls.filter fun k => k.stage != .ended).length)

/-- An entry joins the queue; the bundle waits where the queue is full (R206). -/
def enqueue (k : Call) (s : State) : State :=
  let t := s.waitIf s.myCore.queueFull
  let t := match k.tag with
    | some g => claimTag g k.id t
    | none => t
  { (t.updMyCore fun c => { c with calls := c.calls ++ [k] }) with nextId := s.nextId + 1 }

/-- Table loads of the core in flight, captured ones included: is any of a kind selected by f? -/
def tableInFlight (s : State) (n : Nat) (f : Nat → Bool) : Bool :=
  let hit := fun (a : LandAct) => match a with
    | .table t _ _ _ _ _ => f t
    | _ => false
  ((s.core n).pend.any fun l => hit l.act) || (List.range 4).any fun q => (s.part (4 * n + q)).snap.any fun e => hit e.act

/-- The routine-table entry of routine r (R219). -/
def Core.routine (c : Core) (r : Nat) : Nat := Sys2Proof.fld (Cells.get 0 (r / 4) c.mpst).toNat (32 * (r % 4)) 32

/-- Tiles named by a mask. -/
def tilesOf (m : Nat) : List Nat := (List.range 8).filter fun t => Sys2Proof.bit m t

/-- The issue view after an MCALL (R205). -/
def viewCall (awm acm ea : Nat) (v : Cells AccTag) : Cells AccTag :=
  let a := (tilesOf awm).foldl (fun v t => Cells.put t ⟨true, ea⟩ v) v
  (tilesOf acm).foldl (fun v t => Cells.put t ⟨false, 0⟩ v) a

/-- The first failing check of MCALL (R203); the checks that read the store are left out while a load of it is in
flight, since the bundle then waits (R206). -/
def mcallFault (s : State) (loading : Bool) (e : Nat) : Option Nat :=
  let c := s.myCore
  let p := s.me.pcw
  if pcwBad c p then some causePrecisionWord
  else if !loading && (!Sys2Proof.bit e 26 || decide (Sys2Proof.fld e 0 10 < 16) || Sys2Proof.fld e 27 5 != 0) then
    some causeMicroroutine
  else if pcSwe p && pcMemb p == 0xFFFF then some causeGeneratorKey
  else if groupOf (Cells.get 0 0 s.me.mps) == groupOf (Cells.get 0 1 s.me.mps) then some causeBankConflict
  else if !loading && (tilesOf (Sys2Proof.fld e 10 8)).any (fun t =>
      let v := Cells.get ⟨false, 0⟩ t c.accView
      v.hold && v.ea != pcEa p) then some causeAccFormat
  else none

/-- MCALL: the checks of R203, the capture of R204, the issue view of R205, and the queue (R206). -/
def execMcall (p a b r : Nat) (s : State) : Out :=
  let c := s.myCore
  let e := c.routine r
  let loading := tableInFlight s s.cur.core fun t => t == 2
  .next (match mcallFault s loading e with
    | some cause => s.mark cause 0 0
    | none =>
      let k := { newCall s (.mcall r) (some p) (consumed s p a b) with
        cbs := capturedBanks c s.me.pcw, awm := Sys2Proof.fld e 10 8, acm := Sys2Proof.fld e 18 8,
        word := Sys2Proof.fld e 0 10 }
      (enqueue k (s.waitIf loading)).updMyCore fun c =>
        { c with accView := viewCall k.awm k.acm (pcEa s.me.pcw) c.accView })

/-- MPSET: mp[k] := sa, landing at c + 1 (R212). -/
def execMpset (n a : Nat) (k : Bool) (s : State) : Out :=
  let x := readS a k s
  .next (emit 1 0 (.mparam n x.1) x.2)

/-- MPGET (R212). -/
def execMpget (d n : Nat) (s : State) : Out := .next (pushS d 1 0 (Cells.get 0 n s.me.mps) s)

/-- MPADD: mp[k] as it stands at issue plus sa, landing at c + 1 (R212). -/
def execMpadd (n a : Nat) (k : Bool) (s : State) : Out :=
  let x := readS a k s
  .next (emit 1 0 (.mparam n (Cells.get 0 n s.me.mps + x.1)) x.2)

/-- PCWSET (R213). -/
def execPcwset (a : Nat) (k : Bool) (s : State) : Out :=
  let x := readS a k s
  .next (emit 1 0 (.creg 0x02 0xFF x.1) x.2)

/-- PCWMEM: PCW[63:48] := sa[15:0] (R213). -/
def execPcwmem (a : Nat) (k : Bool) (s : State) : Out :=
  let x := readS a k s
  .next (emit 1 0 (.creg 0x02 0xC0 (x.1 <<< 48)) x.2)

/-- SCLD: four scale-table entries, landing at c + 4 (R214). -/
def execScld (g a : Nat) (k : Bool) (s : State) : Out :=
  let x := readS a k s
  .next (emit 4 0 (.creg (0x20 + g) 0xFF x.1) x.2)

/-- SCLDI: one scale-table entry (R214). -/
def execScldi (x v : Nat) (s : State) : Out :=
  .next (emit 4 0 (.creg (0x20 + x / 4) (3 * 2 ^ (2 * (x % 4))) (BitVec.ofNat 64 (s.immRaw v % 2 ^ 16 * 2 ^ (16 * (x % 4))))) s)

/-- WSWAP (R215). -/
def execWswap (s : State) : Out := .next (enqueue (newCall s .wswap none []) s)

/-- An ACLR entry: the issue view of its tiles is cleared at issue (R205, R216). -/
def aclrEntry (tiles : Nat) (s : State) : Out :=
  .next ((enqueue (newCall s (.aclr tiles) none []) s).updMyCore fun c =>
    { c with accView := (tilesOf tiles).foldl (fun v t => Cells.put t ⟨false, 0⟩ v) c.accView })

/-- ACLR of one tile (R216). -/
def execAclr (t : Nat) (s : State) : Out := aclrEntry (2 ^ t) s

/-- ACLR.all (R216). -/
def execAclrAll (s : State) : Out := aclrEntry 255 s

/-- ACDRN: its argument words and the drain fields of the PCW are taken at issue (R190, R217). -/
def execAcdrn (p a b : Nat) (w : Bool) (q : Nat) (s : State) : Out :=
  let x := readWords q (1 + b2n w) s
  let xb := x.1.getD 1 0 % 2 ^ 48
  let k := { newCall s (.acdrn (x.1.headD 0) xb) (some p) (consumed s p a b) with xb := xb }
  .next (enqueue k (x.2.check (!drainBad s.me.pcw) causePrecisionWord))

/-- GSSET (R218). -/
def execGsset (a : Nat) (k : Bool) (s : State) : Out :=
  let x := readS a k s
  .next (emit 1 0 (.creg 0x03 0xFF (BitVec.ofNat 64 (lo32 x.1))) x.2)

/-! ### The running call -/

def Core.running (c : Core) : Option Call := c.calls.find? fun k => k.stage == .running

/-- A call's new state. -/
def putCall (n : Nat) (k : Call) (s : State) : State :=
  s.updCore n fun c => { c with calls := c.calls.map fun x => if x.id = k.id then k else x }

def dropCall (n id : Nat) (s : State) : State :=
  s.updCore n fun c => { c with calls := c.calls.filter fun x => x.id != id }

/-- A fault met after commit: the operation stops, and the fault is pending at its partition's next boundary (R210,
R241). Of the faults of one clock the matrix call's comes first, then the commands' in issue order (R318). -/
def pendFault (p id : Nat) (f : LateFault) (s : State) : State :=
  let call := fun (i : Nat) => (s.core (p / 4)).calls.any fun k => k.id == i
  let after := fun (e : LateFault × Nat) => if call id = call e.2 then decide (e.2 < id) else call e.2
  s.updPart p fun x =>
    let now := x.late.drop x.ripe
    { x with late := x.late.take x.ripe ++ now.takeWhile after ++ [(f, id)] ++ now.dropWhile after }

def faultCall (n : Nat) (k : Call) (f : LateFault) (s : State) : State :=
  pendFault k.gpi k.id f (putCall n { k with fault := some f } s)

/-- What a micro-operation does to its core's running call. -/
def micro (f : Core → Call → State → State) (s : State) : Out :=
  match s.myCore.running with
  | none => .next s
  | some k => .next (f s.myCore k s)

/-- The next micro-word. -/
def Call.advance (k : Call) : Call := { k with word := k.word + 1, row := 0, primed := false }
def Call.jump (k : Call) (w : Nat) : Call := { k with word := w, row := 0, primed := false }

/-- One row done of cnt + 1: the next row, or the next micro-word. -/
def Call.rowDone (k : Call) (cnt : Nat) : Call :=
  if k.row < cnt then { k with row := k.row + 1, rows := k.rows + 1 } else { k.advance with rows := k.rows + 1 }

/-- A landing of the call at a clock. -/
def Call.lands (k : Call) (x : Nat) : Call := { k with land := max k.land (x + 1) }

/-- A micro-operation that changes only the call and takes one clock. -/
def microCall (f : Call → Call) (s : State) : Out :=
  micro (fun _ k s => putCall s.cur.core (f k).advance s) s

/-- The first clock a reader of the rows given may take them: that after their last landing. -/
def Core.rowsReady (c : Core) (tile row cnt : Nat) : Nat :=
  ((List.range (cnt + 1)).map fun i => Cells.get 0 (32 * tile + (row + i) % 32) c.accReady).foldl max 0

/-- Landings noted for the rows of a tile. -/
def Core.noteRows (c : Core) (tile row cnt x : Nat) : Core :=
  { c with accReady := (List.range (cnt + 1)).foldl (fun a i =>
      let j := 32 * tile + (row + i) % 32
      Cells.put j (max (Cells.get 0 j a) (x + 1)) a) c.accReady }

/-- A compressed operand's first row or block starts 4 clocks later (R346). -/
def needsDelay (k : Call) (d : W64) : Bool := dCmp d && !k.primed && k.row == 0

def delayCall (n : Nat) (k : Call) (s : State) : State := putCall n { k with primed := true, busy := 3 } s

/-- A micro-operation that passes a compressed operand through a codec (R251): which (0 the expander, 1 the compressor), its
descriptor, its last row, the clocks of a row, those from now to its next row where it goes on, and whether something holds its
first row. -/
structure CodecRun where
  dir   : Nat
  desc  : W64
  last  : Nat
  pace  : Nat
  ahead : Nat
  waits : Bool
deriving DecidableEq, Repr

/-- What the running micro-operation of a call passes through a codec. -/
def Core.codecRun (c : Core) (k : Call) (i : Instr) : Option CodecRun :=
  let ahead := fun (d : W64) => if k.busy = 0 && needsDelay k d then 4 else k.busy
  let bank := fun (bk : Bool) => b2n (k.btag != bk)
  match i with
  | .uStrm acc _ cnt pa osel | .uStrmz acc _ cnt pa osel =>
    some ⟨0, k.mp pa, cnt, (bandClocks c.lock k (Cells.get WBank.zero (bank false) c.wbanks) osel).foldl max 1, ahead (k.mp pa),
      decide (c.lclk < Cells.get 0 (bank false) c.bankDone) || decide (c.lclk < Cells.get 0 acc c.addDone)⟩
  | .uWld pa _ bk _ _ => some ⟨0, k.mp pa, 0, 1, ahead (k.mp pa), decide (c.lclk < Cells.get 0 (bank bk) c.bankFree)⟩
  | .uDrn acc row cnt pa => some ⟨1, k.mp pa, cnt, 1, ahead (k.mp pa), decide (c.lclk < c.rowsReady acc row cnt)⟩
  | .uAst acc row cnt pa => some ⟨1, k.mp pa, cnt, 2, ahead (k.mp pa), decide (c.lclk < c.rowsReady acc row cnt)⟩
  | .uAaddm _ _ cnt pa =>
    some ⟨0, k.mp pa, cnt, 2, if k.primed then k.busy else if k.row = 0 then 5 else 1, false⟩
  | _ => none

/-- Does it take up a row's tiles on this clock, 4 clocks before the row (R345, R346)? -/
def CodecRun.now (r : CodecRun) (row : Nat) : Bool :=
  dCmp r.desc && !r.waits && decide (r.ahead ≤ 4) && (4 - r.ahead) % r.pace == 0 && decide (row + (4 - r.ahead) / r.pace ≤ r.last)

/-- The codec that the running call of a core uses on this clock (R345). -/
def noteCodec (n : Nat) (k : Call) (i : Instr) (s : State) : State :=
  match (s.core n).codecRun k i with
  | some r => if r.now k.row then s.updCore n fun c => { c with tilesNow := codecOf r.dir (dOfs r.desc) :: c.tilesNow } else s
  | none => s

/-! ### Micro-operations (R221) -/

/-- UNOP. -/
def execUUnop (s : State) : Out := microCall id s

/-- The bank a BK field names in the call's stream (R220). -/
def bankNo (k : Call) (bk : Bool) : Nat := b2n (k.btag != bk)

/-- A background change of a bank, in the clocks given (R221, R222). -/
def loadInto (k : Call) (bank clocks : Nat) (w : WBank) (flags : Nat) (s : State) : State :=
  let n := s.cur.core
  let t := s.myCore.lclk + clocks
  (putCall n { (k.lands (t - 1)).advance with flags := k.flags ||| flags } s).updCore n fun c =>
    { c with loads := c.loads ++ [⟨t, k.id, bank, w⟩],
             bankDone := Cells.put bank (max t (Cells.get 0 bank c.bankDone)) c.bankDone }

/-- WLD (R224): it waits until every row that carries the bank's tag has left the cells (R222). What it loads it reads on its first
clock, and then its faults arise (DESIGN CHOICE, assumption log 112). -/
def execUWld (pa pb : Nat) (bk tr h : Bool) (s : State) : Out :=
  micro (fun c k s =>
    let bank := bankNo k bk
    if c.lclk < Cells.get 0 bank c.bankFree then s
    else if needsDelay k (k.mp pa) || (pcSwe k.pcw && needsDelay k (k.mp pb)) then delayCall s.cur.core k s
    else match loadBank c k (k.mp pa) (k.mp pb) tr h with
      | .error f => faultCall s.cur.core k f s
      | .ok r => loadInto k bank 16 r.1 r.2 s) s

/-- WSW: flips the stream's bank tag (R215). -/
def execUWsw (s : State) : Out := microCall (fun k => { k with btag := !k.btag }) s

/-- WZ: zeroes a bank (R221). -/
def execUWz (bk : Bool) (s : State) : Out :=
  micro (fun c k s =>
    let bank := bankNo k bk
    if c.lclk < Cells.get 0 bank c.bankFree then s else loadInto k bank 4 WBank.zero 0 s) s

/-- Additions into one row of a tile, landing at a clock. -/
def landRow (k : Call) (tile row due : Nat) (clear : Bool) (cols : List (List Int × Bool)) (s : State) : State :=
  s.updCore s.cur.core fun c =>
    { (c.noteRows tile row 0 due) with
        matPend := c.matPend ++ [⟨due, k.id, .addRow tile row clear (pcEa k.pcw) cols⟩] }

/-- One row of STRM or STRMZ (R193, R222, R225): the stream waits for a load of its bank, an earlier call's too (DEDUCED,
assumption log 95), or for an AADDM of its call into its tile. Only the bands that it enables must select a block of the window
(DEDUCED, assumption log 115). -/
def strmRow (clear : Bool) (acc row cnt pa osel : Nat) (c : Core) (k : Call) (s : State) : State :=
  let n := s.cur.core
  let d := k.mp pa
  let bank := b2n k.btag
  let w := Cells.get WBank.zero bank c.wbanks
  let on := (List.range 8).filter fun b => !bandOff osel b
  if c.lclk < Cells.get 0 bank c.bankDone || c.lclk < Cells.get 0 acc c.addDone then s
  else if !Sys2Proof.bit k.awm acc || dBad d || on.any (fun b => decide (dNbl d ≤ b + 8 * bandSel osel b))
      || (isMx (pcAfmt k.pcw) && dNbl d % 2 == 1) then faultCall n k microFault s
  else if k.row = 0 && !bankScalesOk k w then faultCall n k scaleFault s
  else if needsDelay k d then delayCall n k s
  else match streamRow c k w d osel k.row with
    | .error f => faultCall n k f s
    | .ok r =>
      let cl := bandClocks c.lock k w osel
      let clocks := cl.foldl max 1
      let due := c.lclk + clocks + 9
      let lands := clear || !on.isEmpty
      let k1 := { (k.rowDone cnt) with busy := clocks - 1, bands := cl, flags := k.flags ||| r.2 }
      let t := putCall n (if lands then k1.lands due else k1) s
      let t := if lands then landRow k acc (row + k.row) due clear r.1 t else t
      t.updCore n fun c =>
        { c with bankFree := Cells.put bank (max (c.lclk + clocks) (Cells.get 0 bank c.bankFree)) c.bankFree }

/-- STRM (R225). -/
def execUStrm (acc row cnt pa osel : Nat) (s : State) : Out := micro (strmRow false acc row cnt pa osel) s

/-- STRMZ: each target row set to zero before its first contribution (R221). -/
def execUStrmz (acc row cnt pa osel : Nat) (s : State) : Out := micro (strmRow true acc row cnt pa osel) s

/-- ACLR: the tile clears on the clock after its execution and every earlier landing of the call to it (R222). -/
def execUAclr (acc : Nat) (s : State) : Out :=
  micro (fun c k s =>
    let n := s.cur.core
    if !Sys2Proof.bit k.awm acc then faultCall n k microFault s
    else
      let due := max (c.lclk + 1) (c.rowsReady acc 0 31)
      (putCall n (k.lands due).advance s).updCore n fun c =>
        { (c.noteRows acc 0 31 due) with matPend := c.matPend ++ [⟨due, k.id, .clearTile acc⟩] }) s

/-- Bytes written to the slice of core n, wrapping (R188), outside any transaction. -/
def writeSlice (n a : Nat) (bs : List W8) (s : State) : State :=
  let a := a % 2 ^ 23
  let k := 2 ^ 23 - a
  let t := s.wr (s.ctxOf n) none (.slice n) a (bs.take k)
  t.wr (s.ctxOf n) none (.slice n) 0 (bs.drop k)

/-- A list of writes to a slice. -/
def writeSlices (n : Nat) (ws : List (Nat × List W8)) (s : State) : State :=
  ws.foldl (fun t w => writeSlice n w.1 w.2 t) s

/-- Bytes at logical offset l merged into one 256-byte tile of a compressed region, given with the offset of its first byte,
and the tile recompressed. Only a tile that is written in part is expanded first (R251). -/
def mergeTile (n b l : Nat) (bs : List W8) (s : State) (t : Nat × Nat) : Except LateFault State := do
  let m := (s.core n).slice
  let old ← if l ≤ t.2 ∧ t.2 + 256 ≤ l + bs.length then pure (List.replicate 256 0) else readTile m b t.1
  let new := old.zipIdx.map fun x =>
    let a := t.2 + x.2
    if l ≤ a ∧ a < l + bs.length then bs.getD (a - l) x.1 else x.1
  let ws ← storeTile m b t.1 false new
  return writeSlices n ws s

/-- Bytes written at a logical offset of an operand: in place, or through the write-port compressor (R251), in the clocks that R221
and R346 give the micro-operation (assumption log 94). -/
def writeOperand (n : Nat) (d : W64) (l : Nat) (bs : List W8) (s : State) : Except LateFault State :=
  if dCmp d then (tilesAt (l % 2 ^ 23) bs.length).foldlM (fun t i => mergeTile n (dOfs d) (l % 2 ^ 23) bs t i) s
  else .ok (writeSlice n (dOfs d + l) bs s)

/-- A drained or stored row: written on its clock, which is a landing of the call (R222). -/
def putRow (k : Call) (d : W64) (bs : List W8) (cnt busy flags : Nat) (s : State) : State :=
  let n := s.cur.core
  match writeOperand n d (k.row * dStr d) bs s with
  | .error f => faultCall n k f s
  | .ok t => putCall n { (k.lands s.myCore.lclk).rowDone cnt with
      busy := busy, flags := k.flags ||| flags, moved := k.moved + bs.length } t

/-- UOP_DRN: one row, all 256 columns (R200, R221). -/
def execUDrn (acc row cnt pa : Nat) (s : State) : Out :=
  micro (fun c k s =>
    let d := k.mp pa
    if c.lclk < c.rowsReady acc row cnt then s
    else if dBad d then faultCall s.cur.core k microFault s
    else if needsDelay k d then delayCall s.cur.core k s
    else
      let rs := (List.range 256).map fun j =>
        drainCell c k (c.tagOf acc) (c.accCell acc (row + k.row) j) k.row j
      putRow k d (splitBytes (packNat (fmtBits (pcDfmt k.pcw)) (rs.map Res.pat)) (32 * fmtBits (pcDfmt k.pcw)))
        cnt 0 (orFlags rs) s) s

/-- AST: one row in exact form, two clocks a row (R226). -/
def execUAst (acc row cnt pa : Nat) (s : State) : Out :=
  micro (fun c k s =>
    let d := k.mp pa
    if c.lclk < c.rowsReady acc row cnt then s
    else if dBad d then faultCall s.cur.core k microFault s
    else if needsDelay k d then delayCall s.cur.core k s
    else
      let g := c.tagOf acc
      let ea := if g.hold then g.ea else pcEa k.pcw
      let bs := (List.range 256).flatMap fun j => splitBytes (exactForm ea (c.accCell acc (row + k.row) j)) 16
      putRow k d bs cnt 1 0 s) s

/-- AADDM: row i is processed on the (2 i + 2)-th clock and lands 10 clocks later (R222, R226). Of a cell it takes X, S and EA, and
looks at no other bit (DEDUCED, assumption log 116). -/
def execUAaddm (acc row cnt pa : Nat) (s : State) : Out :=
  micro (fun c k s =>
    let n := s.cur.core
    let d := k.mp pa
    if !Sys2Proof.bit k.awm acc || dBad d then faultCall n k microFault s
    else if !k.primed then putCall n { k with primed := true, busy := if dCmp d && k.row == 0 then 4 else 0 } s
    else match operandBytes c d (k.row * dStr d) 4096 with
      | .error f => faultCall n k f s
      | .ok bs =>
        let xs := (List.range 256).map fun j => joinBytes ((bs.drop (16 * j)).take 16)
        if xs.any fun x => Sys2Proof.fld x 88 8 != pcEa k.pcw then faultCall n k ⟨causeAccFormat, 0, 0⟩ s
        else
          let due := c.lclk + 10
          let cols := xs.map fun x => ([sgn 80 x], Sys2Proof.bit x 80)
          let t := putCall n { ((k.lands due).rowDone cnt) with primed := false } s
          (landRow k acc (row + k.row) due false cols t).updCore n fun c =>
            { c with addDone := Cells.put acc (max (due + 1) (Cells.get 0 acc c.addDone)) c.addDone }) s

/-- AADD: one row of tile ab added into the same row of acc, landing 10 clocks later. Its first row waits for the earlier
landings in the rows it reads (R221, R222). -/
def execUAadd (acc row cnt pb : Nat) (s : State) : Out :=
  micro (fun c k s =>
    let n := s.cur.core
    let g := c.tagOf pb
    if !Sys2Proof.bit k.awm acc then faultCall n k microFault s
    else if k.row = 0 ∧ c.lclk < c.rowsReady pb row cnt then s
    else if g.hold && g.ea != pcEa k.pcw then faultCall n k ⟨causeAccFormat, 0, 0⟩ s
    else
      let due := c.lclk + 10
      let cols := (List.range 256).map fun j =>
        let a := c.accCell pb (row + k.row) j
        ([a.x], a.s)
      landRow k acc (row + k.row) due false cols (putCall n ((k.lands due).rowDone cnt) s)) s

/-- The offset of a descriptor of the call advanced by a number of rows of 128 bytes (R221). -/
def advDesc (d : W64) (by_ : Int) : W64 :=
  let o := low 16 ((Sys2Proof.fld d.toNat 7 16 : Int) + by_)
  (d &&& ~~~(BitVec.ofNat 64 (0xFFFF * 2 ^ 7))) ||| BitVec.ofNat 64 (o * 2 ^ 7)

/-- ADV. It, ADVS and MOVP only change a descriptor and so make no check of its reserved bits (DEDUCED, assumption
log 91). -/
def execUAdv (pa imm : Nat) (s : State) : Out :=
  microCall (fun k => { k with mps := Cells.put pa (advDesc (k.mp pa) (sgn 16 imm)) k.mps }) s

/-- ADVS: by the immediate times the stride. -/
def execUAdvs (pa imm : Nat) (s : State) : Out :=
  microCall (fun k =>
    { k with mps := Cells.put pa (advDesc (k.mp pa) (sgn 16 imm * (Sys2Proof.fld (k.mp pa).toNat 23 16 : Int))) k.mps }) s

/-- MOVP. -/
def execUMovp (pa pb : Nat) (s : State) : Out := microCall (fun k => { k with mps := Cells.put pa (k.mp pb) k.mps }) s

/-- IDXL. -/
def execUIdxl (pb : Nat) (s : State) : Out := microCall (fun k => { k with xb := (k.mp pb).toNat % 2 ^ 48 }) s

/-- IDXA. -/
def execUIdxa (imm : Nat) (s : State) : Out :=
  microCall (fun k => { k with xb := low 48 ((k.xb : Int) + 256 * sgn 16 imm) }) s

/-- MEMS. -/
def execUMems (imm : Nat) (s : State) : Out := microCall (fun k => { k with mem := imm }) s

/-- MEMA. -/
def execUMema (imm : Nat) (s : State) : Out :=
  microCall (fun k => { k with mem := low 16 ((k.mem : Int) + sgn 16 imm) }) s

/-- LSET. -/
def execULset (lc imm : Nat) (s : State) : Out := microCall (fun k => { k with loops := Cells.put lc imm k.loops }) s

/-- LDEC: the counter wraps, and the branch is taken while it is not zero. -/
def execULdec (lc tgt : Nat) (s : State) : Out :=
  micro (fun _ k s =>
    let v := low 16 (((Cells.get 0 lc k.loops : Nat) : Int) - 1)
    let k1 := { k with loops := Cells.put lc v k.loops }
    putCall s.cur.core (if v = 0 then k1.advance else k1.jump tgt) s) s

/-- JMP. -/
def execUJmp (tgt : Nat) (s : State) : Out := micro (fun _ k s => putCall s.cur.core (k.jump tgt) s) s

/-- WAIT: the microsequencer idles; it goes on after imm + 1 clocks. -/
def execUWait (imm : Nat) (s : State) : Out :=
  micro (fun _ k s => putCall s.cur.core { k with waiting := true, busy := imm } s) s

/-- SYNC: waits until every row and write of the call has landed. -/
def execUSync (s : State) : Out := micro (fun _ k s => putCall s.cur.core { k with syncing := true } s) s

/-- END: the microsequencer ends; BTAG is left as the stream holds it (R208, R215). -/
def execUEnd (s : State) : Out :=
  micro (fun c k s =>
    (putCall s.cur.core { k with stage := .ended, ended := c.lclk + 1 } s).updCore s.cur.core fun c =>
      { c with btag := k.btag, lastEnd := c.lclk + 1 }) s

/-! ### Events of the call queue -/

/-- A tile cleared: X = 0, S = 0, HOLD = 0 (R216). -/
def Core.clearTile (c : Core) (t : Nat) : Core :=
  { c with acc := c.acc.filter (fun r => r.1 / 32 != t), accTag := Cells.put t ⟨false, 0⟩ c.accTag }

/-- CALL_ENTRY_START: the first entry that has not ended starts; a WSWAP executes at once (R207, R215). -/
def execCallEntryStart (n : Nat) (s : State) : Out :=
  let c := s.core n
  .next (match c.calls.find? fun k => k.stage == .queued with
    | none => s
    | some k =>
      match k.kind with
      | .wswap => (dropCall n k.id s).updCore n fun c => { c with btag := !c.btag, lastEnd := c.lclk + 1 }
      | .aclr tiles =>
        let ready := ((tilesOf tiles).map fun t => c.rowsReady t 0 31).foldl max 0
        putCall n { k with stage := .running, ended := max (c.lclk + 1) ready, waiting := false } s
      | .acdrn w _ =>
        putCall n { k with stage := .running, ended := max c.lclk (c.rowsReady (Sys2Proof.fld w 23 3) 0 31),
                           waiting := false } s
      | .mcall _ => (putCall n { k with stage := .running, btag := c.btag, waiting := false } s).updCore n fun c =>
          { c with addDone := [], past := [] })

/-- ACLR_ENTRY_EXECUTE (R216). -/
def execAclrEntryExecute (n : Nat) (s : State) : Out :=
  .next (match (s.core n).running with
    | none => s
    | some k =>
      match k.kind with
      | .aclr tiles => (dropCall n k.id s).updCore n fun c =>
          (tilesOf tiles).foldl Core.clearTile { c with lastEnd := c.lclk + 1 }
      | _ => s)

/-- ACDRN_ROW_WRITE: one row converted and written, on one clock (R217). -/
def execAcdrnRowWrite (n : Nat) (s : State) : Out :=
  let c := s.core n
  .next (match c.running with
    | none => s
    | some k =>
      match k.kind with
      | .acdrn w _ =>
        let t := Sys2Proof.fld w 23 3
        let nb := fmtBits (pcDfmt k.pcw) / 8
        let row := Sys2Proof.fld w 26 5 + k.row
        let col := fun j => (Sys2Proof.fld w 36 8 + j) % 256
        let rs := (List.range (Sys2Proof.fld w 44 8 + 1)).map fun j =>
          drainCell c k (c.tagOf t) (c.accCell t (row % 32) (col j)) k.row (col j)
        let a := w % 2 ^ 23 / nb * nb + 16 * Sys2Proof.fld w 52 12 * k.row
        let bs := rs.flatMap fun r => splitBytes r.pat nb
        let k1 := { (k.lands c.lclk) with
          row := k.row + 1, rows := k.rows + 1, moved := k.moved + bs.length, flags := k.flags ||| orFlags rs }
        let u := writeSlice n a bs s
        if k.row < Sys2Proof.fld w 31 5 then putCall n k1 u
        else (putCall n { k1 with stage := .ended, ended := c.lclk } u).updCore n fun c =>
          { c with lastEnd := c.lclk + 1 }
      | _ => s)

/-- The clock of an ended entry's tag: 2 clocks after its last landing, and an MCALL's at least 1 after its END (R208). -/
def Call.tagClock (k : Call) : Nat := max (k.land + 1) k.ended

/-- The first ended entry of core n whose tag is due, an MCALL or an ACDRN. -/
def Core.dueCall (c : Core) (isCall : Bool) : Option Call :=
  c.calls.find? fun k => k.stage == .ended && decide (k.tagClock ≤ c.lclk) && match k.kind with
    | .mcall _ => isCall
    | _ => !isCall

/-- ACDRN_TAG_SET (R208, R201). -/
def execAcdrnTagSet (n : Nat) (s : State) : Out :=
  .next (match (s.core n).dueCall false with
    | none => s
    | some k => completeTag k.gpi (k.tag.getD 0) k.id k.flags (dropCall n k.id s))

/-- MICRO_WAIT_EXPIRY: the microsequencer goes on (R221). -/
def execMicroWaitExpiry (n : Nat) (s : State) : Out :=
  .next (match (s.core n).running with
    | none => s
    | some k => putCall n { k.advance with waiting := false } s)

/-- MICRO_SYNC_RESUME (R221). -/
def execMicroSyncResume (n : Nat) (s : State) : Out :=
  .next (match (s.core n).running with
    | none => s
    | some k => putCall n { k.advance with syncing := false } s)

/-- One landing in a tile: additions in column order, with the tile's HOLD and EA (R199, R205). -/
def applyMat (c : Core) (a : MatAct) : Core × Nat :=
  match a with
  | .clearTile t => (c.clearTile t, 0)
  | .addRow t r clear ea cols =>
    let old := c.accRow t r
    let new := cols.zipIdx.map fun x => addTerms (if clear then AccCell.zero else old.getD x.2 AccCell.zero) x.1
    ({ c with acc := Cells.put (32 * t + r % 32) (new.map Prod.fst) c.acc, accTag := Cells.put t ⟨true, ea⟩ c.accTag },
      new.foldl (fun a x => a ||| x.2) 0)

/-- ACCUMULATOR_ROW_LANDING: the first matrix-unit result due on core n lands (R222). -/
def execAccumulatorRowLanding (n : Nat) (s : State) : Out :=
  let c := s.core n
  .next (match c.matPend.find? fun l => decide (l.due ≤ c.lclk) with
    | none => s
    | some l =>
      let r := applyMat { c with matPend := c.matPend.erase l } l.act
      let c1 := { r.1 with calls := r.1.calls.map fun k => if k.id = l.call then { k with flags := k.flags ||| r.2 } else k }
      (s.setCore n c1).weigh n (match l.act with
        | .addRow .. => 8
        | .clearTile _ => 0))

/-- WEIGHT_BANK_LOAD_DONE: the first background load due on core n completes (R221). -/
def execWeightBankLoadDone (n : Nat) (s : State) : Out :=
  let c := s.core n
  .next (match c.loads.find? fun l => decide (l.due ≤ c.lclk) with
    | none => s
    | some l => s.setCore n { c with loads := c.loads.erase l, wbanks := Cells.put l.bank l.new c.wbanks })

/-- MCALL_COMPLETION: the tag, the flags, the ACM clear and the end of the reservation (R208, R201, R221, R209). -/
def execMcallCompletion (n : Nat) (s : State) : Out :=
  .next (match (s.core n).dueCall true with
    | none => s
    | some k =>
      let t := (dropCall n k.id s).updCore n fun c => (tilesOf k.acm).foldl Core.clearTile c
      completeTag k.gpi (k.tag.getD 0) k.id k.flags t)

end Sys2Proof.Machine
end

