-- ==== Sys2Proof/Machine/Commands.lean ====
section
/-!
DEFINITION. Engine commands: what each moves and in what time (R237, R242 to R244, R253 to R255, R263, R266), and their
issue (R238 to R241).
-/

namespace Sys2Proof.Machine

/-! ### Kinds, scopes, fields -/

def Cmd.word (c : Cmd) (i : Nat) : Nat := c.words.getD i 0
def Cmd.core (c : Cmd) : Nat := c.gpi / 4

/-- The scopes by number (R269): 0 PART, 1 CORE, 2 CLUS, 3 DIE, 4 DEV, 5 SYS. A JOIN is acquire-release at DEV (R263);
none for the plain forms. -/
def Cmd.scope (c : Cmd) : Option Nat :=
  match c.kind with
  | .fld | .fst | .fatom => if c.fn = 0 then none else some (c.fn - 1)
  | .join => some 4
  | _ => none

/-- An acquire form (R275). -/
def Cmd.acquire (c : Cmd) : Bool := (c.kind == .fld || c.kind == .fatom || c.kind == .join) && c.scope.isSome

/-- A release form (R274). -/
def Cmd.release (c : Cmd) : Bool := (c.kind == .fst || c.kind == .fatom || c.kind == .join) && c.scope.isSome

/-- The accesses that are not forwarded and wait for the posting buffer (R271). -/
def Cmd.direct (c : Cmd) : Bool :=
  c.intx.isSome || c.kind == .fatom || c.kind == .join || (c.acquire && decide (3 ≤ c.scope.getD 0))

/-- Does the source, or the destination, of a command's own row stream lie in global memory, and where (R242, R253,
R266)? Positions are bytes from its start. -/
inductive Side where
  | near (a : Nat)
  | far (va : Nat)
  | code (a : Nat)
deriving DecidableEq, Repr

/-- 4 or 8 bytes of a FATOM (R242). -/
def Cmd.size (c : Cmd) : Nat := if Sys2Proof.bit (c.word 1) 45 then 8 else 4

/-- The alignment of FLD, FST and FATOM addresses (R242). -/
def Cmd.unit (c : Cmd) : Nat := if c.kind = .fatom then c.size else 8

def Cmd.va (c : Cmd) : Nat := c.word 0 % 2 ^ 56 / c.unit * c.unit
def Cmd.lofs (c : Cmd) : Nat := c.word 1 % 2 ^ 23 / c.unit * c.unit

/-- The transfer descriptor of COPY (R243). -/
def Cmd.dword (c : Cmd) (i : Nat) : Nat := c.desc.getD i 0
def Cmd.src (c : Cmd) : Nat := c.dword 0 % 2 ^ 56
def Cmd.dst (c : Cmd) : Nat := c.dword 1 % 2 ^ 56
def Cmd.len (c : Cmd) : Nat := Sys2Proof.fld (c.dword 2) 0 25
def Cmd.xf (c : Cmd) : Nat := Sys2Proof.fld (c.dword 2) 25 4
def Cmd.wantCrc (c : Cmd) : Bool :=
  match c.kind with
  | .copy => Sys2Proof.bit (c.dword 2) 29
  | .ovld => Sys2Proof.bit (c.word 1) 55
  | _ => false
def Cmd.cofs (c : Cmd) : Nat := if c.kind = .copy then c.dword 3 % 2 ^ 23 else Sys2Proof.fld (c.word 1) 32 23
def Cmd.kzs (c : Cmd) : Bool := Sys2Proof.bit (c.dword 2) 30
def Cmd.a128 (c : Cmd) : Bool := Sys2Proof.bit (c.dword 2) 31
def Cmd.efmt (c : Cmd) : Nat := Sys2Proof.fld (c.dword 2) 32 4
def Cmd.pw (c : Cmd) : Nat := Sys2Proof.fld (c.dword 2) 36 3 + 2
def Cmd.six (c : Cmd) : Nat := Sys2Proof.fld (c.dword 2) 39 4
def Cmd.cbk (c : Cmd) : Nat := Sys2Proof.fld (c.dword 2) 43 3
def Cmd.tile0 (c : Cmd) : Nat := Sys2Proof.fld (c.dword 3) 32 15
def Cmd.scl (c : Cmd) : Nat := c.dword 4 % 2 ^ 56

/-- Is an address in the slice window (R236)? At or above its end one is a window address that no core answers. -/
def inWindow (va : Nat) : Bool := decide (windowBase ≤ va)

/-- A descriptor that breaks a rule of R243 or R244. A compressed region begins at an aligned window address (R247;
DEDUCED, assumption log 14). -/
def Cmd.descBad (c : Core) (d : Cmd) : Bool :=
  let es := if d.efmt = 0 then 4 else 2
  let region := fun va => inWindow va && va % 128 == 0
  d.len == 0 || decide (2 ^ 24 < d.len) || decide (8 ≤ d.xf) || d.pw == 9 || decide (2 ^ 46 ≤ d.dword 2)
    || Sys2Proof.fld (d.dword 3) 23 9 != 0 || decide (2 ^ 47 ≤ d.dword 3)
    || d.dword 5 != 0 || d.dword 6 != 0 || d.dword 7 != 0
    || (d.xf == 1 && (d.efmt != 9 || d.len % 16 != 0 || !inWindow d.dst))
    || (d.xf == 2 && (d.efmt != 9 || d.len % (2 * d.pw) != 0 || !inWindow d.src))
    || (d.xf == 3 && ((d.efmt != 0 && d.efmt != 2) || d.len % (32 * es) != 0
        || (cbEtype (c.cbcfgOf d.cbk) != 4 && cbEtype (c.cbcfgOf d.cbk) != 9)))
    || (d.xf == 4 && (d.len % 256 != 0 || !region d.dst))
    || (d.xf == 5 && !region d.src)
    || (d.xf == 6 && !inWindow d.dst) || (d.xf == 7 && !inWindow d.src)

/-- Bytes of an element of XF 3. -/
def Cmd.es (c : Cmd) : Nat := if c.efmt = 0 then 4 else 2

/-- The 2-byte units that n bytes from a touch. -/
def unitsOf (a n : Nat) : Nat := (a + n - 1) / 2 - a / 2 + 1

/-! ### Rows of GATH, SCAT and CGATH -/

def Cmd.rowBytes (c : Cmd) : Nat := 16 * (Sys2Proof.fld (c.word 2) 16 16 + 1)
def Cmd.rowCount (c : Cmd) : Nat := Sys2Proof.fld (c.word 2) 0 16 + 1
def Cmd.gathVa (c : Cmd) (j : Nat) : Nat := (c.word 0 + 16 * Sys2Proof.fld (c.word 2) 32 24 * c.dword j) % 2 ^ 56
def Cmd.gathOfs (c : Cmd) (j : Nat) : Nat := Sys2Proof.fld (c.word 1) 0 23 + c.rowBytes * j

/-- Rows of an MCST (R254). -/
def Cmd.mcRows (c : Cmd) : Nat := Sys2Proof.fld (c.word 0) 39 5 + 1

/-- BYTES of a CGATH (R255). -/
def Cmd.cgBytes (c : Cmd) : Nat := Sys2Proof.fld (c.word 1) 0 25

/-- 128-byte rows of one contribution. -/
def Cmd.cgRows (c : Cmd) : Nat := (c.cgBytes + 127) / 128

/-! ### The byte stream of a command -/

/-- Bytes its source holds. -/
def Cmd.srcLen (c : Cmd) : Nat :=
  match c.kind with
  | .fld | .fst => (Sys2Proof.fld (c.word 1) 24 13 + 1) * 8
  | .copy => if c.xf = 6 then 0 else if c.xf = 7 then unitsOf c.src c.len else c.len
  | .gath | .scat => c.rowBytes * c.rowCount
  | .ovld => 16 * (Sys2Proof.fld (c.word 1) 18 14 + 1)
  | .cgath => c.cgBytes
  | _ => 0

/-- Bytes its destination takes. -/
def Cmd.dstLen (c : Cmd) : Nat :=
  match c.kind with
  | .copy =>
    match c.xf with
    | 1 => c.len / 16 * (2 * c.pw)
    | 2 => c.len / (2 * c.pw) * 16
    | 3 => c.len / (32 * c.es) * 16
    | 7 => (unitsOf c.src c.len + 1) / 2
    | _ => c.len
  | _ => c.srcLen

/-- Where position i of the source lies, and how many bytes follow it in one run. -/
def Cmd.srcAt (c : Cmd) (i : Nat) : Side × Nat :=
  match c.kind with
  | .fst => (.near ((c.lofs + i) % 2 ^ 23), c.srcLen - i)
  | .copy => (.far ((c.src + i) % 2 ^ 56), c.srcLen - i)
  | .gath => (.far ((c.gathVa (i / c.rowBytes) + i % c.rowBytes) % 2 ^ 56), c.rowBytes - i % c.rowBytes)
  | .scat => (.near ((c.gathOfs (i / c.rowBytes) + i % c.rowBytes) % 2 ^ 23), c.rowBytes - i % c.rowBytes)
  | .ovld => (.far ((c.word 0 + i) % 2 ^ 56), c.srcLen - i)
  | .cgath => (.near ((c.word 0 + i) % 2 ^ 23), c.srcLen - i)
  | _ => (.far ((c.va + i) % 2 ^ 56), c.srcLen - i)

/-- Where position i of the destination lies, and the run from it. The local rows of a GATH follow one another (R253). -/
def Cmd.dstAt (c : Cmd) (i : Nat) : Side × Nat :=
  match c.kind with
  | .fst => (.far ((c.va + i) % 2 ^ 56), c.dstLen - i)
  | .copy => (.far ((c.dst + i) % 2 ^ 56), c.dstLen - i)
  | .gath => (.near ((c.gathOfs 0 + i) % 2 ^ 23), c.dstLen - i)
  | .scat => (.far ((c.gathVa (i / c.rowBytes) + i % c.rowBytes) % 2 ^ 56), c.rowBytes - i % c.rowBytes)
  | .ovld => (.code ((Sys2Proof.fld (c.word 1) 0 18 / 16 * 16 + i) % 2 ^ 18), c.dstLen - i)
  | _ => (.near ((c.lofs + i) % 2 ^ 23), c.dstLen - i)

def Side.addr : Side → Nat
  | .near a => a
  | .far a => a
  | .code a => a

/-- The 128-byte-aligned rows that n bytes from a touch (R237). -/
def touched (a n : Nat) : Nat := if n = 0 then 0 else (a + n - 1) / 128 - a / 128 + 1

/-- The global byte ranges of a command, sources and then destinations: address and length. A compressed region is looked up at
its base: it lies in one slice (R247). -/
def Cmd.farSrc (c : Cmd) : List (Nat × Nat) :=
  match c.kind with
  | .fld => [(c.va, c.srcLen)]
  | .copy => if c.xf = 6 then [] else [(c.src, if c.xf = 5 then 0 else c.len)]
  | .gath => (List.range c.rowCount).map fun j => (c.gathVa j, c.rowBytes)
  | .ovld => [(c.word 0 % 2 ^ 56, c.srcLen)]
  | _ => []

def Cmd.farDst (c : Cmd) : List (Nat × Nat) :=
  match c.kind with
  | .fst => [(c.va, c.dstLen)]
  | .fatom => [(c.va, c.size)]
  | .copy => (c.dst, if c.xf = 4 then 0 else c.dstLen) :: (if c.xf = 3 then [(c.scl, c.len / (32 * c.es) * 2)] else [])
  | .scat => (List.range c.rowCount).map fun j => (c.gathVa j, c.rowBytes)
  | .join => [(c.word 0 % 2 ^ 56, 40)]
  | _ => []

/-- n_r of R237. -/
def Cmd.nr (c : Cmd) : Nat :=
  max 1 (match c.kind with
    | .fld | .fst => max (touched c.va c.srcLen) (touched c.lofs c.srcLen)
    | .copy =>
      if c.desc.isEmpty then 1
      else match c.xf with
        | 1 | 2 | 3 => max (touched c.src c.len) (touched c.dst c.dstLen)
        | 6 => touched c.dst c.len
        | 7 => max (touched c.src c.len) (touched c.dst c.dstLen)
        | _ => max (touched c.src c.len) (touched c.dst c.len)
    | .gath | .scat =>
      let far := ((List.range c.rowCount).map fun j => touched (c.gathVa j) c.rowBytes).sum
      let near := ((List.range c.rowCount).map fun j => touched (c.gathOfs j) c.rowBytes).sum
      max far near
    | .ovld => max (touched (c.word 0 % 2 ^ 56) c.srcLen) (touched (Sys2Proof.fld (c.word 1) 0 18 / 16 * 16) c.srcLen)
    | .mcst => c.mcRows
    | .cgath => c.cgRows
    | _ => 1)

/-! ### Translation and time -/

/-- The 4 KiB pages that a range touches. -/
def pagesOf (r : Nat × Nat) : List Nat :=
  if r.2 = 0 then [r.1 / 4096] else (List.range ((r.1 + r.2 - 1) / 4096 - r.1 / 4096 + 1)).map fun i => r.1 / 4096 + i

def Cmd.farPages (c : Cmd) : List Nat := ((c.farSrc ++ c.farDst).flatMap pagesOf).dedup

/-- Where a global address leads for a command, by the window or by the translation it holds. -/
def Cmd.whereIs (c : Cmd) (s : State) (va : Nat) (wr : Bool) : Where :=
  match s.windowVa (s.ctxOf c.core) va with
  | some x => x.place va wr
  | none => (Cells.get (.bad 0 0) (va / 4096) c.pages).place va wr

/-- The largest latency class of the pages of some ranges; a page that faults counts as the own cluster's (R237; DEDUCED, assumption
log 118). -/
def Cmd.classOf (c : Cmd) (s : State) (rs : List (Nat × Nat)) : Nat :=
  ((rs.flatMap pagesOf).map fun g => match c.whereIs s (g * 4096) false with
    | .at o _ => s.latency c.core (s.ctxOf c.core) o
    | .bad _ => 24).foldl max 24

/-- The collective group entry of a command (R367): its members as device and partition, by rank. -/
def Cmd.members (c : Cmd) (s : State) : List (Nat × Nat) :=
  match s.ctxOf c.core with
  | none => []
  | some k =>
    let a := Sys2Proof.fld (s.ctx k).cgbase.toNat 19 33 * 2 ^ 19 + 8192 * Sys2Proof.fld (c.word 0) 46 6
    (List.range (min 1024 (Sys2Proof.fld (s.hbm.readN a 8) 0 11))).map fun m =>
      let w := s.hbm.readN (a + 8 + 4 * m) 4
      (Sys2Proof.fld w 0 12, Sys2Proof.fld w 12 11)

/-- L_g of R367. -/
def Cmd.groupClass (c : Cmd) (s : State) : Nat :=
  let here := s.devid.toNat % 2 ^ 12
  ((c.members s).map fun m =>
    if m.1 = here then s.latency c.core (s.ctxOf c.core) (.slice (m.2 / 4))
    else s.latency c.core (s.ctxOf c.core) (.peer m.1)).foldl max 24

/-- The transaction that a command was issued in, while it lasts (R262). -/
def Cmd.tx (c : Cmd) (s : State) : Option Tx := (s.part c.gpi).tx.filter fun x => some x.no == c.intx

/-- The clocks from a command's start to its tag in lockstep mode (R237, R367). -/
def Cmd.time (c : Cmd) (s : State) : Nat :=
  match c.kind with
  | .fld | .ovld => c.classOf s c.farSrc + c.nr - 1
  | .fst => c.classOf s c.farDst + c.nr - 1
  | .fatom => c.classOf s c.farDst
  | .copy => (if c.xf = 6 then 0 else c.classOf s c.farSrc) + c.classOf s (c.farDst.take 1) + c.nr - 1
      + (if c.xf = 0 then 0 else 16)
  | .gath => c.classOf s c.farSrc + c.nr + 7
  | .scat => c.classOf s c.farDst + c.nr + 7
  | .mcst => 24 + c.nr + 1
  | .cgath => c.groupClass s + (c.members s).length * c.cgRows - 1
  | .spawn => 128
  | .take => 256
  | .join => c.classOf s c.farDst + 128
  | .txc => 2 * (match c.tx s with
      | some x => x.far
      | none => 24) + 4
  | .table => 6
  | .txb | .txa => 1
  | .drn | .ckpt => 2

/-! ### The pace of a command (R237, R307, R351) -/

/-- Does a command count its time? -/
def Cmd.counts (c : Cmd) : Bool := c.counting && !c.held && c.fault.isNone

/-- One of n ways in which a command may go on: free in elastic mode, fixed by its own progress in lockstep mode (R284, R307;
assumption log 5). -/
def Cmd.choose (tag n : Nat) (c : Cmd) (s : State) : Nat × State :=
  if (s.core c.core).lock
    then (Config.fixedChoice [tag, c.gpi, c.bno, c.grp, c.ran, c.rd, c.wr, c.rows, c.out.length, c.owed.length] % n, s)
    else s.draw n

/-- The rows left on a side of a command: those of its source, or of its destination (R237). -/
def Cmd.rowsLeft (c : Cmd) (dst : Bool) : Nat :=
  let i := if dst then c.wr else c.rd
  let n := if dst then c.dstLen else c.srcLen
  let at_ := if dst then c.dstAt else c.srcAt
  let touches := fun (i : Nat) => touched (at_ i).1.addr (at_ i).2
  if n ≤ i then 0
  else if (c.kind = .gath ∧ dst = false) ∨ c.kind = .scat then
    touches i + ((List.range (c.rowCount - i / c.rowBytes - 1)).map fun j => touches ((i / c.rowBytes + 1 + j) * c.rowBytes)).sum
  else touches i

/-- The 256-byte tiles that XF 4 has still to store, or XF 5 still to take up, in the compressed region of one group. -/
def Cmd.tilesLeft (c : Cmd) : Nat :=
  if c.kind ≠ .copy then 0
  else if c.xf = 4 then (c.dstLen - c.wr + 255) / 256 else if c.xf = 5 then (c.srcLen - c.rd + 255) / 256 else 0

/-- Are as many rows left to a command as clocks, so that it moves one on this clock (assumption log 5)? A tile takes 4 clocks
to pass its codec (R345). -/
def Cmd.behind (c : Cmd) : Bool :=
  c.left == 0 || decide (c.left < c.rowsLeft false) || decide (c.left < c.rowsLeft true)
    || (c.tilesLeft != 0 && decide (c.left < 2 * c.tilesLeft + 5))

/-- In lockstep mode, the clocks by which a row comes to its place before the command ends on it: the latency class of its owner
elsewhere (R351, R380; assumption log 5). -/
def Cmd.lead (c : Cmd) (s : State) : Nat :=
  if c.dstLen ≤ c.wr then 0
  else match (c.dstAt c.wr).1 with
    | .far va => match c.whereIs s va true with
      | .at o _ => s.latency c.core (s.ctxOf c.core) o
      | .bad _ => 0
    | _ => 0

/-- May a command write its next destination row now? In lockstep mode what it delivers stands held until it is due: row for row,
on the own core with the last on the clock of its tag, elsewhere a latency class before (R351, R380; assumption log 5). -/
def Cmd.due (c : Cmd) (s : State) : Bool :=
  !(s.core c.core).lock
    || decide (c.left < max 1 (c.rowsLeft true + c.lead s + (if c.kind = .copy ∧ c.xf = 4 ∧ c.tilesLeft ≠ 0 then 5 else 0)))

/-- The side of the command's stream whose rows are those that its transfer engine processes: the one with more of them
(R302; assumption log 10); none where no engine moves rows. -/
def Cmd.engineSide (c : Cmd) : Option Nat :=
  let whole := { c with rd := 0, wr := 0 }
  match c.kind with
  | .copy | .gath | .scat | .ovld => some (if whole.rowsLeft false < whole.rowsLeft true then 1 else 0)
  | .cgath | .mcst => some 0
  | _ => none

/-! ### Issue (R238 to R241) -/

/-- The local rows of a GATH from position wr on, each of its rows counted on its own (R237). -/
def Cmd.nearRowsLeft (c : Cmd) : Nat :=
  let j := c.wr / c.rowBytes
  if c.dstLen ≤ c.wr then 0
  else touched (c.gathOfs j + c.wr % c.rowBytes) (c.rowBytes - c.wr % c.rowBytes)
    + ((List.range (c.rowCount - j - 1)).map fun i => touched (c.gathOfs (j + 1 + i)) c.rowBytes).sum

/-- The rows that a command has still to move; a GATH's source rows may be more than the local rows that they make up. -/
def Cmd.rowsOwed (c : Cmd) : Nat := if c.kind = .gath then max (c.rowsLeft false) c.nearRowsLeft else c.nr - c.rows

/-- The rows that a partition's commands have asked for and not had: of those that have started (R240; DEDUCED, assumption
log 15). -/
def Part.rowsOut (p : Part) : Nat := ((p.cmds.filter Cmd.counting).map Cmd.rowsOwed).sum

/-- The waits of R240. -/
def Part.cmdLimit (p : Part) : Bool := decide (32 ≤ p.cmds.length) || decide (512 ≤ p.rowsOut)

/-- Is an acquire of an earlier bundle incomplete (R275)? -/
def Part.acquiring (p : Part) (bno : Nat) : Bool := p.cmds.any fun x => x.acquire && decide (x.bno < bno)

/-- A command as its issue leaves it. -/
def newCmd (s : State) (kind : EngKind) (fn p a b : Nat) (words : List Nat) : Cmd where
  id := s.nextId
  kind := kind
  fn := fn
  gpi := s.cur.gpi
  bno := s.me.bno
  pc := s.me.pc
  half := s.me.half
  grp := s.cur.group
  tag := p
  needs := consumed s p a b
  words := words
  intx := s.me.txActive.map Tx.no
  age := 0
  started := false
  looked := false
  counting := false
  ran := 0
  left := 0
  gate := none
  desc := []
  data := []
  out := []
  codec := []
  owed := []
  rd := 0
  wr := 0
  rows := 0
  crc := crcInit
  aux := 0
  flags := 0
  pages := []
  waits := []
  sent := 0
  landed := []
  place := 0
  held := false
  fault := none

/-- A command joins its partition's, taking its produced tag (R239), unless a limit makes its bundle wait (R240). -/
def issueCmd (f : Cmd → Cmd) (kind : EngKind) (fn p a b : Nat) (words : List Nat) (s : State) : State :=
  let t := s.waitIf s.me.cmdLimit
  let t := claimTag p s.nextId t
  { (t.updMe fun x => { x with cmds := x.cmds ++ [f (newCmd s kind fn p a b words)] }) with nextId := s.nextId + 1 }

/-- A command that an active transaction forbids (R259). -/
def noTx (s : State) : State := s.check s.me.txActive.isNone causeIllegalSequence

/-- The check of a word 0 in the slice window (R319, R236). -/
def windowCheck (va : Nat) (wr : Bool) (s : State) : State :=
  match s.windowVa (s.ctxOf s.cur.core) va with
  | some x => match x.place va wr with
    | .bad f => s.mark causeTranslation f.value f.aux
    | .at _ _ => s
  | none => s

/-- FLD, FST and FATOM share their words' rules (R242). -/
def issueFar (atomic wr : Bool) (kind : EngKind) (fn p a b n q : Nat) (s : State) : State :=
  let x := readWords q n s
  let w := x.1.getD 1 0
  let bad := Sys2Proof.bit w 23 || Sys2Proof.fld w 37 8 != 0 || decide (2 ^ 50 ≤ w) ||
    (if atomic then Sys2Proof.fld w 24 13 != 0 || decide (10 ≤ Sys2Proof.fld w 46 4)
     else Sys2Proof.bit w 45 || Sys2Proof.fld w 46 4 != 0)
  let t := x.2.check (!bad) causeEngineArgument
  let t := windowCheck (newCmd s kind fn p a b x.1).va wr t
  issueCmd id kind fn p a b x.1 t

/-- FLD (R242). -/
def execFld (p a b f q : Nat) (s : State) : Out := .next (issueFar false false .fld f p a b 2 q s)

/-- FST (R242). -/
def execFst (p a b f q : Nat) (s : State) : Out := .next (issueFar false true .fst f p a b 2 q s)

/-- FATOM (R242). -/
def execFatom (p a b f q : Nat) (s : State) : Out := .next (issueFar true true .fatom f p a b 3 q s)

/-- A command of n words with a check of them, illegal in a transaction. -/
def issueWords (ok : List Nat → Bool) (kind : EngKind) (fn p a b n q : Nat) (s : State) : State :=
  let x := readWords q n (noTx s)
  issueCmd id kind fn p a b x.1 (x.2.check (ok x.1) causeEngineArgument)

/-- COPY (R243). -/
def execCopy (p a b q : Nat) (s : State) : Out :=
  .next (issueWords (fun w => decide (w.getD 0 0 < 2 ^ 23)) .copy 0 p a b 1 q s)

/-- The reserved bits of GATH and SCAT (R253). -/
def rowWordsOk (w : List Nat) : Bool :=
  decide (w.getD 0 0 < 2 ^ 56) && decide (w.getD 1 0 < 2 ^ 46) && decide (w.getD 2 0 < 2 ^ 56)

/-- GATH (R253). -/
def execGath (p a b q : Nat) (s : State) : Out := .next (issueWords rowWordsOk .gath 0 p a b 3 q s)

/-- SCAT (R253). -/
def execScat (p a b q : Nat) (s : State) : Out := .next (issueWords rowWordsOk .scat 0 p a b 3 q s)

/-- A multicast window's target mask, base offset and size: an entry of zeros is empty, and the fields of another are not
given by the spec (assumption log 12). -/
def mcMask (w : W128) : Nat := if w = 0 then 0 else Config.mcMask w % 2 ^ 16
def mcBase (w : W128) : Nat := if w = 0 then 0 else Config.mcBase w % 2 ^ 23
def mcSize (w : W128) : Nat := if w = 0 then 0 else Config.mcSize w % (2 ^ 16 + 1)

/-- MCST (R254). -/
def execMcst (p a b q : Nat) (s : State) : Out :=
  let win := fun (w : Nat) => Cells.get 0 (Sys2Proof.fld w 23 4) (s.cluster (clusterOf s.cur.core)).mcwin
  let ok := fun (ws : List Nat) =>
    let w := ws.getD 0 0
    decide (w < 2 ^ 44) && mcMask (win w) != 0
      && decide (16 * Sys2Proof.fld w 27 12 + 128 * (Sys2Proof.fld w 39 5 + 1) ≤ mcSize (win w))
  .next (issueWords ok .mcst 0 p a b 1 q s)

/-- CGATH (R255). -/
def execCgath (p a b q : Nat) (s : State) : Out :=
  let ok := fun (w : List Nat) =>
    let n := w.getD 1 0
    decide (w.getD 0 0 < 2 ^ 52) && decide (16 ≤ n) && decide (n ≤ 2 ^ 24) && n % 16 == 0
  .next (issueWords ok .cgath 0 p a b 2 q s)

/-- A bundle that waits while none, or while not all, of the masked tags is set (R256). -/
def execTwany (a : Nat) (k : Bool) (s : State) : Out :=
  let x := readS a k s
  .next (x.2.waitIf (x.1 != 0 && s.me.tags &&& x.1 == 0))

/-- TWALL (R256). -/
def execTwall (a : Nat) (k : Bool) (s : State) : Out :=
  let x := readS a k s
  .next (x.2.waitIf (s.me.tags &&& x.1 != x.1))

/-- TFIND (R256). -/
def execTfind (d a : Nat) (k : Bool) (s : State) : Out :=
  let x := readS a k s
  .next (pushS d 1 0 (intCtz (s.me.tags &&& x.1)) x.2)

/-- TCLR (R256). -/
def execTclr (a : Nat) (k : Bool) (s : State) : Out :=
  let x := readS a k s
  .next (emit 1 0 (.tagClear x.1) x.2)

/-- DRN (R258). -/
def execDrn (p a b f : Nat) (s : State) : Out := .next (issueCmd id .drn f p a b [] s)

/-- A command whose tag is set at c + 1, with nothing to do before it (R259). -/
def Cmd.brief (c : Cmd) : Cmd := { c with started := true, looked := true, counting := true, left := 1, aux := 1 }

/-- TXB: the transaction opens on the issue clock (R259). -/
def execTxb (p a b : Nat) (s : State) : Out :=
  let t := s.check s.me.txActive.isNone causeIllegalSequence
  .next ((issueCmd Cmd.brief .txb 0 p a b [] t).updMe fun x => { x with tx := some ⟨s.nextId, 0, 0, [], [], 24, false, false⟩ })

/-- TXC (R259, R261). -/
def execTxc (p a b q : Nat) (s : State) : Out :=
  let x := readWords q 1 (s.check s.me.txActive.isSome causeIllegalSequence)
  let w := x.1.getD 0 0
  .next (issueCmd id .txc 0 p a b x.1 (x.2.check (decide (w < 2 ^ 23) && w % 8 == 0) causeEngineArgument))

/-- TXA: the transaction is abandoned with code 4; its marks go when the tag is set (R259, R260). -/
def execTxa (p a b : Nat) (s : State) : Out :=
  let t := s.check s.me.txActive.isSome causeIllegalSequence
  .next ((issueCmd Cmd.brief .txa 0 p a b [] t).updMe fun x =>
    { x with tx := x.tx.map fun y => { y.doom 4 0 with buf := [], gone := true } })

/-- SPAWN: a 32-byte-aligned offset (R263). -/
def execSpawn (p a b q : Nat) (s : State) : Out :=
  .next (issueWords (fun w => decide (w.getD 0 0 < 2 ^ 23) && w.getD 0 0 % 32 == 0) .spawn 0 p a b 1 q s)

/-- TAKE: where its context records, it takes its place in the ring and in its stream at issue; where it replays, it
finds its entry (R263, R308, R309). -/
def execTake (p a b q : Nat) (s : State) : Out :=
  let x := readWords q 1 (noTx s)
  let w := x.1.getD 0 0
  let t := x.2.check (decide (w < 2 ^ 23)) causeEngineArgument
  .next (match s.ctxOf s.cur.core with
    | none => issueCmd id .take 0 p a b [w] t
    | some k =>
      if (s.ctx k).replaying then
        let r := t.nextSeq k
        match s.findEntry k s.cur.gpi r.1 with
        | none => r.2.mark causeReplay 0 0
        | some e =>
          if Sys2Proof.fld (e.getD 0 0) 0 4 = 7 then issueCmd id .take 0 p a b (w :: r.1 :: e) r.2
          else r.2.mark causeReplay 0 0
      else if (s.ctx k).recording then
        if s.ringFull k then t.waitIf true
        else
          let r := t.nextSeq k
          let u := r.2.takePlace k
          issueCmd (fun c => { c with place := u.1 }) .take 0 p a b [w, r.1] u.2
      else issueCmd id .take 0 p a b [w] t)

/-- JOIN: a 64-byte-aligned global address (R263). -/
def execJoin (p a b q : Nat) (s : State) : Out :=
  .next (issueWords (fun w => decide (w.getD 0 0 < 2 ^ 56) && w.getD 0 0 % 64 == 0) .join 0 p a b 1 q s)

/-- CKPT: the partition issues nothing further until the checkpoint completes (R264, R334), group 2 of its own compact bundle neither
(DEDUCED, assumption log 108). -/
def execCkpt (p a b : Nat) (s : State) : Out :=
  .next ((issueCmd id .ckpt 0 p a b [] (noTx s)).updMe fun x => { x with ckpt := true })

/-- OVLD (R266). -/
def execOvld (p a b q : Nat) (s : State) : Out :=
  .next (issueWords (fun w => decide (w.getD 1 0 < 2 ^ 56)) .ovld 0 p a b 2 q s)

/-! ### Table loads (R265) -/

/-- The first index that a load's word names, and its bank. -/
def didx (w : Nat) : Nat := Sys2Proof.fld w 23 13

/-- A table load: it waits at issue for its tags and for earlier acquires, its row is read at c + 1, and its entries and
tag land at c + 6. -/
def issueTable (tbl step top : Nat) (busy : Nat → Bool) (p a b q : Nat) (s : State) : State :=
  let x := readWords q 1 (noTx s)
  let w := x.1.getD 0 0
  let bank := Sys2Proof.fld w 36 3
  let ok := decide (w < 2 ^ 39) && (tbl == 0 || bank == 0) && didx w % step == 0 && decide (didx w ≤ top)
  let t := (x.2.check (!busy w) causeCodebookBusy).check ok causeEngineArgument
  let t := t.waitIf (!s.me.tagsSet (consumed s p a b) || s.me.acquiring s.me.bno)
  let id := s.nextId
  emit 6 0 (.table tbl bank (didx w) [] p id)
    (issueCmd (fun c => { c with started := true, looked := true, counting := true, left := 6 }) .table tbl p a b x.1 t)

/-- Is a CBLD to the half that a call reads (R47, R204)? -/
def cbldBusy (s : State) (w : Nat) : Bool :=
  (s.myCore.readers (Sys2Proof.fld w 36 3)).any fun c => c.whole || decide (didx w / 2048 = b2n c.act)

/-- CBLD (R265). -/
def execCbld (p a b q : Nat) (s : State) : Out :=
  .next (issueTable 0 16 4080 (cbldBusy s) p a b q s)

/-- CWTLD (R265). -/
def execCwtld (p a b q : Nat) (s : State) : Out :=
  .next (issueTable 1 4 508 (fun _ => false) p a b q s)

/-- MPSLD: busy while a call is in flight (R219, R265). -/
def execMpsld (p a b q : Nat) (s : State) : Out :=
  let busy := s.myCore.calls.any fun k => match k.kind with
    | .mcall _ => true
    | _ => false
  .next (issueTable 2 8 1016 (fun _ => busy) p a b q s)

/-- GTLD: busy while a call that draws stochastic weights is in flight (R115, R265). -/
def execGtld (p a b q : Nat) (s : State) : Out :=
  let busy := s.myCore.calls.any fun k => match k.kind with
    | .mcall _ => pcSwe k.pcw
    | _ => false
  .next (issueTable 3 32 736 (fun _ => busy) p a b q s)

/-- LATLD (R265). -/
def execLatld (p a b q : Nat) (s : State) : Out :=
  .next (issueTable 4 32 32 (fun _ => false) p a b q s)

/-- CBSEL (R267). -/
def execCbsel (n : Nat) (s : State) : Out := .next (emit 1 0 (.cbsel n) s)

end Sys2Proof.Machine
end

