-- ==== Sys2Proof/Machine/Engine.lean ====
section
/-!
DEFINITION. Engine commands from their start to their completion: starts and ordering (R239, R271, R274, R275),
translation (R353, R354), the accesses they make (R242 to R255, R261 to R266), posting buffers (R271), drains (R258,
R277) and completion (R239).
-/

namespace Sys2Proof.Machine

/-! ### A command by its number -/

def State.cmd (s : State) (p id : Nat) : Option Cmd := (s.part p).cmds.find? fun c => c.id == id

def putCmd (c : Cmd) (s : State) : State :=
  s.updPart c.gpi fun x => { x with cmds := x.cmds.map fun y => if y.id = c.id then c else y }

def dropCmd (p id : Nat) (s : State) : State :=
  s.updPart p fun x => { x with cmds := x.cmds.filter fun y => y.id != id }

/-- The command stops at a row boundary with its fault pending (R241, R318). -/
def faultCmd (c : Cmd) (f : LateFault) (s : State) : State :=
  pendFault c.gpi c.id f (putCmd { c with fault := some f } s)

/-- What an event does to a command that exists. -/
def withCmd (p id : Nat) (f : Cmd → State → State) (s : State) : Out :=
  .next (match s.cmd p id with
    | none => s
    | some c => f c s)

def Cmd.ctx (c : Cmd) (s : State) : Option Nat := s.ctxOf c.core
def Cmd.cluster (c : Cmd) : Nat := clusterOf c.core
def State.lockOf (s : State) (n : Nat) : Bool := (s.core n).lock

/-! ### Translation buffers (R338, R353) -/

/-- Does an entry translate an address? -/
def TlbEntry.covers (e : TlbEntry) (k va : Nat) : Bool :=
  match e.x with
  | .page _ _ bits _ => e.ctx == k && e.base / 2 ^ bits == va / 2 ^ bits
  | .bad _ _ => false

/-- The sets and ways of a core's buffer (0) and of a die's (1) (R353). -/
def tlbSets (big : Nat) : Nat := if big = 0 then 32 else 1024
def tlbWays (big : Nat) : Nat := if big = 0 then 8 else 16

/-- The set that holds a translation, a fixed function of its page (assumption log 16). -/
def tlbSetOf (big k va : Nat) (x : Xlate) : Nat :=
  match x with
  | .page _ _ bits _ => Config.tlbSet big k (va / 2 ^ bits) % tlbSets big
  | .bad _ _ => 0

/-- The way of a set that a new entry takes: the lowest empty one, else that used the longest time ago, of several the lowest. -/
def tlbWay (big : Nat) (l : List TlbEntry) : Nat :=
  let at_ := fun (w : Nat) => l.find? fun e => e.way == w
  let ws := List.range (tlbWays big)
  match ws.find? fun w => (at_ w).isNone with
  | some w => w
  | none =>
    let age : Nat → Nat := fun w => match at_ w with
      | some e => e.used
      | none => 0
    (ws.find? fun w => ws.all fun v => decide (age w ≤ age v)).getD 0

/-- A translation placed in a buffer on a clock; one that it holds already is only used again. -/
def tlbPlace (big k va : Nat) (x : Xlate) (clock : Nat) (l : List TlbEntry) : List TlbEntry :=
  let set := tlbSetOf big k va x
  let way := tlbWay big (l.filter fun e => e.set == set)
  if l.any fun e => e.covers k va && e.x == x
    then l.map fun e => if e.covers k va && e.x == x then { e with used := clock } else e
    else ⟨k, va, x, set, way, clock⟩ :: l.filter fun e => !(e.set == set && e.way == way)

/-- The entry of a buffer that translates an address, and the buffer with its use noted. -/
def tlbFind (k va clock : Nat) (l : List TlbEntry) : Option Xlate × List TlbEntry :=
  match l.find? fun e => e.covers k va with
  | none => (none, l)
  | some e => (some e.x, l.map fun f => if f = e then { e with used := clock } else f)

def State.dieBuffer (s : State) (die : Nat) : List TlbEntry := Cells.get [] die s.dieTlb

/-- The translation of va for core n from its own buffer, or from its die's, which then fills its own. -/
def tlbLookup (n k va : Nat) (s : State) : Option Xlate × State :=
  let a := tlbFind k va s.clock (s.core n).tlb
  match a.1 with
  | some x => (some x, s.updCore n fun c => { c with tlb := a.2 })
  | none =>
    let b := tlbFind k va s.clock (s.dieBuffer (dieOf n))
    match b.1 with
    | none => (none, s)
    | some x =>
      let t := s.updCore n fun c => { c with tlb := tlbPlace 0 k va x s.clock c.tlb }
      (some x, { t with dieTlb := Cells.put (dieOf n) b.2 t.dieTlb })

/-- A completed walk fills both buffers; a fault is not held. -/
def tlbFill (n k va : Nat) (x : Xlate) (s : State) : State :=
  match x with
  | .bad _ _ => s
  | .page .. =>
    let t := s.updCore n fun c => { c with tlb := tlbPlace 0 k va x s.clock c.tlb }
    { t with dieTlb := Cells.put (dieOf n) (tlbPlace 1 k va x s.clock (t.dieBuffer (dieOf n))) t.dieTlb }

/-- One page of a command looked up: held, or a walk asked for (R353), which is a hold (R354). -/
def lookPage (k : Nat) (c : Cmd) (s : State) (g : Nat) : Cmd × State :=
  let r := tlbLookup c.core k (g * 4096) s
  match r.1 with
  | some x => ({ c with pages := Cells.put g x c.pages }, r.2)
  | none => ({ c with waits := c.waits ++ [g] },
      State.heldOver (some k) { r.2 with walks := r.2.walks ++ [⟨dieOf c.core, c.gpi, c.id, g * 4096, none, 0⟩] })

/-- The pages of a command looked up in turn; window addresses are not translated (R236). -/
def lookPages (c : Cmd) (s : State) : State :=
  match c.ctx s with
  | none => putCmd { c with looked := true } s
  | some k =>
    let r := (c.farPages.filter fun g => decide (g * 4096 < windowBase)).foldl
      (fun (a : Cmd × State) g => lookPage k a.1 a.2 g) ({ c with looked := true, waits := [], pages := [] }, s)
    putCmd r.1 r.2

/-- The addresses of the entries that the walk of R337 reads, from the table of level l at base: those of walkTables. -/
def walkReads (m : Mem) (va : Nat) : Nat → Nat → List Nat
  | 0, base => [base + 8 * Sys2Proof.fld va 12 9]
  | l + 1, base =>
    let a := base + 8 * Sys2Proof.fld va (21 + 9 * l) 9
    let e := m.readN a 8
    let next := Sys2Proof.fld e 12 40 * 4096
    if !Sys2Proof.bit e 0 || Sys2Proof.bit e 1 || Sys2Proof.fld e 3 9 != 0 || Sys2Proof.fld e 52 12 != 0
      || decide (hbmSize < next + 4096) then [a] else a :: walkReads m va l next

/-- What the reads of a walk use: each the flits from its die's walkers to the entry's controller, and the beat that it takes there
(R302, R353; assumption log 10). -/
def State.walkUsage (s : State) (k : Nat) (w : Walk) : List (Nat × Nat × Nat) :=
  (if hbmSize < (s.ctx k).root + 4096 then [] else walkReads s.hbm w.va 4 (s.ctx k).root).flatMap fun a =>
    pathFlits (meshRoute w.die (32 + w.die) (hbmDie a) (22 + hbmDevStack a)) 8 ++ [hbmBeats a 8]

/-- PAGE_WALK: the command's first walk that waits takes a walker of its die, 32 at a time, for a time that the spec does
not give (R353, R354). A walk above its context's budgets is held until the next period (R303). -/
def execPageWalk (p c : Nat) (s : State) : Out :=
  .next (match s.walks.find? fun w => w.gpi == p && w.cmd == c && w.left.isNone with
    | none => s
    | some w =>
      let k := s.ctxOf (p / 4)
      let xs := (k.map fun k => s.walkUsage k w).getD []
      let set := fun (f : Walk → Walk) (t : State) => { t with walks := t.walks.map fun x => if x = w then f x else x }
      if 32 ≤ (s.walks.filter fun x => x.die == w.die && x.left.isSome).length
          || k.any (fun k => decide (s.period k < w.due)) then s
      else if w.due == 0 && k.any fun k => xs.any fun x => (s.ctx k).exceeds x.1 x.2.1 x.2.2 then
        State.heldOver k (set (fun x => { x with due := (k.map s.period).getD 0 + 1 }) s)
      else
        let r := s.draw (2 ^ 32)
        let t := match k with
          | some k => r.2.updCtx k fun y => y.charge xs
          | none => r.2
        set (fun x => { x with left := some (r.1 + 1) }) t)

/-- PAGE_WALK_COMPLETION: the walk's result reaches its command and frees the walker (R353). -/
def execPageWalkCompletion (p c : Nat) (s : State) : Out :=
  .next (match s.walks.find? fun w => w.gpi == p && w.cmd == c && w.left == some 0 with
    | none => s
    | some w =>
      let t := { s with walks := s.walks.erase w }
      match s.cmd p c, s.ctxOf (p / 4) with
      | some d, some k =>
        let x := t.walkVa k w.va
        putCmd { d with pages := Cells.put (w.va / 4096) x d.pages, waits := d.waits.filter fun g => g != w.va / 4096 }
          (tlbFill (p / 4) k w.va x t)
      | _, _ => t)

/-! ### Starts (R239, R271, R274, R275) -/

/-- Has an earlier command performed its accesses at a scope (R274 (a))? -/
def State.performedAt (s : State) (scope : Nat) (c : Cmd) : Bool :=
  c.aux == 1 && c.owed.isEmpty && (decide (scope < 3)
    || (c.sent == 0 && !s.unanswered c.gpi c.id && !((s.cluster c.cluster).posted.any fun x => x.cmd == c.id)))

/-- The commands that a release or a drain of command c covers (R258, R274 (a)). -/
def State.covered (s : State) (c : Cmd) : List Cmd :=
  (s.part c.gpi).cmds.filter fun x => decide (x.id < c.id) && x.kind != .drn

/-- Does a release wait for its cluster's buffer: at DIE or wider (R274 (b))? -/
def Cmd.gated (c : Cmd) : Bool := c.release && decide (3 ≤ c.scope.getD 0)

/-- Does a release meet (a) of R274? -/
def State.meetsA (s : State) (c : Cmd) : Bool := (s.covered c).all (s.performedAt (c.scope.getD 0))

/-- A release notes the writes that its cluster's buffer holds on the clock that first meets (a) (R274 (b)). -/
def noteGate (s : State) (c : Cmd) : State :=
  if c.gated && c.gate.isNone && !c.started && s.meetsA c
    then putCmd { c with gate := some ((s.cluster c.cluster).posted.map Posted.id) } s else s

/-- The writes that a release at DIE or wider still waits for (R274 (b)). -/
def State.gateShut (s : State) (c : Cmd) : Bool :=
  c.gated && match c.gate with
  | none => true
  | some ids => (s.cluster c.cluster).posted.any fun x => ids.contains x.id

/-- Has every transactional access of a command reached its owner (R261)? -/
def Cmd.reached (c : Cmd) : Bool :=
  match c.kind with
  | .fld => decide (c.srcLen ≤ c.rd)
  | .fst => decide (c.dstLen ≤ c.wr)
  | .fatom => c.aux == 1 || !c.out.isEmpty
  | _ => true

/-- May command c begin (R239, R274, R275, R261)? Its tags are taken as the previous clock left them. -/
def State.mayBegin (s : State) (c : Cmd) : Bool :=
  let x := s.part c.gpi
  let tags := x.tags &&& ~~~x.setNow
  decide (2 ≤ c.age) && c.needs.all (fun g => tags.getLsbD g)
    && (x.cmds.all fun y => !(y.acquire && decide (y.bno < c.bno)))
    && (!c.release || s.meetsA c) && !s.gateShut c
    && (c.kind != .txc || x.cmds.all fun y => !(y.intx == c.intx && decide (y.id < c.id)) || y.reached)

/-- Is a byte that a command touches held in its cluster's buffer (R271)? -/
def State.buffered (s : State) (c : Cmd) : Bool :=
  let ps := (s.cluster c.cluster).posted
  !ps.isEmpty && (c.farSrc ++ c.farDst).any fun r => (pagesOf r).any fun g =>
    let lo := max r.1 (g * 4096)
    let hi := min (r.1 + r.2) (g * 4096 + 4096)
    match c.whereIs s lo false with
    | .at o a => decide (lo < hi) && ps.any fun x => x.overlaps o a (hi - lo)
    | .bad _ => false

/-- What a command reads at its start: a COPY its descriptor, GATH and SCAT their indices, a compare-and-swap of 8 bytes
the value it expects. -/
def Cmd.fetch (c : Cmd) (s : State) : List Nat :=
  let m := (s.core c.core).seen c.gpi c.id
  match c.kind with
  | .copy => (List.range 8).map fun i => m.readN (c.word 0 / 64 * 64 + 8 * i) 8
  | .gath | .scat => (List.range c.rowCount).map fun j =>
      joinBytes ((List.range 4).map fun i => m.read ((Sys2Proof.fld (c.word 1) 23 23 / 4 * 4 + 4 * j + i) % 2 ^ 23))
  | .fatom => [joinBytes ((List.range 8).map fun i => m.read ((c.lofs + i) % 2 ^ 23))]
  | _ => [1]

/-- Where in the own slice it reads that: an offset and a number of bytes. -/
def Cmd.fetchSpan (c : Cmd) : Nat × Nat :=
  match c.kind with
  | .copy => (c.word 0 / 64 * 64, 64)
  | .gath | .scat => (Sys2Proof.fld (c.word 1) 23 23 / 4 * 4, 4 * c.rowCount)
  | .fatom => (c.lofs, if Sys2Proof.fld (c.word 1) 46 4 = 9 ∧ c.size = 8 then 8 else 0)
  | _ => (0, 0)

/-- Does a committing transaction hold a tile of it (R261, R280)? -/
def State.fetchHeld (s : State) (c : Cmd) : Bool :=
  let x := c.fetchSpan
  s.heldTile c.gpi (.slice c.core) x.1 (min x.2 (2 ^ 23 - x.1)) || s.heldTile c.gpi (.slice c.core) 0 (x.1 + x.2 - 2 ^ 23)

/-- A command that reads what it reads at its start, once, its rows charged (R378). -/
def Cmd.fetched (c : Cmd) (s : State) : Cmd × State :=
  if c.desc.isEmpty then
    ({ c with desc := c.fetch s }, s.weigh c.core (2 * touched c.fetchSpan.1 c.fetchSpan.2))
  else (c, s)

/-- The fault that a command meets in what it reads at its start (R243, R367). -/
def startFault (c : Cmd) (s : State) : Option LateFault :=
  match c.kind with
  | .copy => if c.descBad (s.core c.core) then some ⟨causeTransferDescriptor, 0, 0⟩ else none
  | .cgath =>
    let ms := c.members s
    let here := s.devid.toNat % 2 ^ 12
    if ms.isEmpty || !ms.contains (here, c.gpi) || ms.dedup.length != ms.length
      then some ⟨causeCollective, 0, 0⟩ else none
  | _ => none

/-- The clocks to the tag, counted from now: exact in lockstep mode, free up to that in elastic mode (R237). A command
resumed after a fault counts the rows it has left (DEDUCED, assumption log 17). -/
def Cmd.span (c : Cmd) (s : State) : Nat × State :=
  let t := max 1 (c.time s - (c.nr - c.rowsOwed))
  if s.lockOf c.core || c.kind == .drn || c.kind == .ckpt then (t, s)
  else if c.kind = .mcst then
    let r := s.draw 3
    (24 + c.nr - 1 + r.1, r.2)
  else
    let r := s.draw t
    (r.1 + 1, r.2)

/-- A command whose translations have completed and which nothing holds begins to count its time; its accesses follow from the
next clock on. This is where a FATOM starts, and reads the value it expects (R242, R271). -/
def beginCount (c : Cmd) (s : State) : State :=
  if !c.looked || !c.waits.isEmpty || (c.direct && s.buffered c) || (c.kind == .fatom && s.fetchHeld c) then s
  else
    let e := c.fetched s
    let c := e.1
    let r := c.span e.2
    let d := { c with counting := true, left := r.1, aux := if c.kind == .drn || c.kind == .ckpt then 0 else c.aux }
    putCmd d r.2

/-- COMMAND_START: the command reads what it reads at its start, looks up its pages, and begins to count. It waits for a
transaction that commits to what it reads (R261). -/
def execCommandStart (p c : Nat) (s : State) : Out :=
  withCmd p c (fun d s =>
    if d.looked then beginCount d s
    else if d.kind != .fatom && s.fetchHeld d then s
    else
      let r := if d.kind == .fatom then (d, s) else d.fetched s
      let e := { r.1 with started := true }
      match startFault e s with
      | some f => faultCmd { e with desc := [] } f s
      | none =>
        let t := lookPages e r.2
        match t.cmd p c with
        | none => t
        | some e => beginCount e t) s

/-! ### Accesses to global memory -/

/-- What an access finds: a fault, or the bytes or nothing yet, and the state. -/
abbrev Found := Except LateFault (Option (List W8) × State)

/-- A command as the state holds it now. -/
def Cmd.again (c : Cmd) (s : State) : Cmd := (s.cmd c.gpi c.id).getD c

/-- The partition whose own marks a command's write spares (R262). -/
def Cmd.spares (c : Cmd) : Option Nat := if c.intx.isSome then some c.gpi else none

/-- The latency class of an access counts for its transaction's TXC (R237). -/
def noteClass (c : Cmd) (o : Owner) (s : State) : State :=
  let l := s.latency c.core (c.ctx s) o
  s.updPart c.gpi fun x => { x with tx := x.tx.map fun t => { t with far := max t.far l } }

/-- The mark of a command's access, where its transaction lasts. -/
def Cmd.mark (c : Cmd) (va : Nat) (wr : Bool) (s : State) : Option (Nat × Bool) :=
  if (c.tx s).isSome then some (va, wr) else none

/-- The bytes of an owner as a command finds them on this clock (R232). -/
def Cmd.sees (c : Cmd) (o : Owner) (a n : Nat) (s : State) : List W8 := (s.seen c.gpi c.id o).bytes a n

/-- A write of a command at its owner on this clock. -/
def Cmd.writes (c : Cmd) (except : Option Nat) (o : Owner) (a : Nat) (bs : List W8) (s : State) : State :=
  s.perform (c.ctx s) except c.gpi c.id false o a bs

/-! ### What holds an access (R261, R303, R340) -/

/-- A third row of a bank waits (R340; assumption log 100). -/
def Cmd.bankWait (c : Cmd) (o : Owner) (a n : Nat) (s : State) : Bool :=
  match o with
  | .slice m => (rowsOf a n).any fun r => (s.core m).bankFull c.gpi c.id r
  | _ => false

/-- Does an access of n bytes at an owner wait for a committing transaction or a bank? -/
def Cmd.blocked (c : Cmd) (o : Owner) (a n : Nat) (s : State) : Bool := s.heldTile c.gpi o a n || c.bankWait o a n s

/-- The rows that an access uses; those it finishes are charged to the core whose slice holds them (R340, R378). -/
def useRows (c : Cmd) (o : Owner) (a n : Nat) (last : Bool) (s : State) : State :=
  match o with
  | .slice m =>
    let t := s.updCore m fun x => x.useRows c.gpi c.id (rowsOf a n)
    if last then t.weigh m (2 * (rowsOf a n).length) else t
  | _ => s

/-- Does a request still wait at its core: its command goes on? -/
def State.holdLives (s : State) (h : Hold) : Bool :=
  match s.cmd h.gpi h.id with
  | some c => c.counts
  | none => false

/-- The bytes of a command's held request on a side. -/
def Cmd.heldSize (c : Cmd) (side : Nat) (s : State) : Option Nat :=
  ((s.core c.core).holds.find? fun h => h.gpi == c.gpi && h.id == c.id && h.side == side).map Hold.n

/-- The side of a command's held request, where it has one. -/
def Cmd.heldSide (c : Cmd) (s : State) : Option Nat :=
  ((s.core c.core).holds.find? fun h => h.gpi == c.gpi && h.id == c.id).map Hold.side

/-- A request held behind those that its core holds, once; OVR is set in lockstep mode (R303, R304). -/
def holdRequest (c : Cmd) (side n due : Nat) (s : State) : State :=
  let mine := fun (h : Hold) => h.gpi == c.gpi && h.id == c.id && h.side == side
  (State.heldOver (c.ctx s) s).updCore c.core fun x =>
    { x with holds := if x.holds.any mine then x.holds.map fun h => if mine h then { h with due := max h.due due } else h
        else x.holds ++ [⟨c.gpi, c.id, side, n, due⟩] }

/-- The amounts of a request charged; or the request held: it would take a counter above its budget, or another of its core is
held before it. A held one passes when the next period has begun, whatever it uses (R303; DEDUCED, assumption log 101). -/
def spend (c : Cmd) (side n : Nat) (xs : List (Nat × Nat × Nat)) (s : State) : Bool × State :=
  match c.ctx s with
  | none => (true, s)
  | some k =>
    let q := (s.core c.core).holds.filter s.holdLives
    let mine := fun (h : Hold) => h.gpi == c.gpi && h.id == c.id && h.side == side
    let above := xs.any fun x => (s.ctx k).exceeds x.1 x.2.1 x.2.2
    let pass := fun (rest : List Hold) =>
      (true, (s.updCore c.core fun x => { x with holds := rest }).updCtx k fun y => y.charge xs)
    if xs.isEmpty && !q.any mine then (true, s)
    else match q with
      | [] => if above then (false, holdRequest c side n (s.period k + 1) s) else pass []
      | h :: rest =>
        if !mine h then (false, holdRequest c side n 0 s)
        else if decide (s.period k < h.due) || (h.due == 0 && above) then
          (false, holdRequest c side n (if h.due = 0 then s.period k + 1 else h.due) s)
        else pass rest

/-- The engine slots of rows on a side (R302). -/
def Cmd.slots (c : Cmd) (side rows : Nat) : List (Nat × Nat × Nat) :=
  if c.engineSide = some side then [(dieOf c.core, 3, rows)] else []

/-- What an access that finishes a row's part of n bytes uses; its earlier pieces use nothing more (R302). -/
def Cmd.uses (c : Cmd) (o : Owner) (a n side : Nat) (last : Bool) : List (Nat × Nat × Nat) :=
  if last then usage c.cluster o a n ++ c.slots side 1 else []

/-! ### Accesses at owners -/

/-- One access of m bytes at a place: held while a committing transaction holds its tile, its bank is full or a budget is spent,
and at a peer sent as a frame and made on its acknowledgement (R365). It uses xs; rows says that it uses rows of its owner's
slice, and whether it finishes them: the write of an active transaction only marks its tiles, and uses none before TXC. A
transactional access is given by its mark, the virtual address and whether it writes (R262). The access itself is f. -/
def accessAt (c : Cmd) (o : Owner) (a m side : Nat) (rows : Option Bool) (xs : List (Nat × Nat × Nat)) (kind : Sys2Proof.FrameKind)
    (data : List W8) (mark : Option (Nat × Bool)) (f : State → List W8 × State) (s : State) : Option (List W8) × State :=
  let c := c.again s
  let go := fun (s : State) =>
    let s := match mark with
      | some x => (noteClass c o s).txTouches c.gpi o a x.1 m x.2
      | none => s
    let r := f (match rows with
      | some last => useRows c o a m last s
      | none => s)
    (some r.1, r.2)
  if s.heldTile c.gpi o a m || (rows.isSome && c.bankWait o a m s) then (none, s)
  else match o with
    | .peer d =>
      if c.sent = 2 then go (putCmd { c with sent := 0 } (s.refresh o))
      else if c.sent = 1 then (none, s)
      else
        let r := spend c side m xs s
        if !r.1 then (none, r.2)
        else match (c.ctx s).bind fun k => r.2.sendFrame k d kind a data (some (c.gpi, c.id)) none none with
          | some u => (none, putCmd { c with sent := 1 } u)
          | none => (none, holdRequest c side m 0 s)
    | _ =>
      let r := spend c side m xs s
      if r.1 then go r.2 else (none, r.2)

/-- A read of m bytes of a row's part: through the transaction's buffer, else forwarded from the posting buffer where the
form allows it (R260, R271). -/
def farRead (c : Cmd) (va m n : Nat) (last : Bool) (s : State) : Found :=
  match c.whereIs s va false with
  | .bad f => .error f
  | .at o a => .ok (accessAt c o a m 0 (some last) (c.uses o a n 0 last) .read [] (c.mark va false s) (fun s =>
      let bs := c.sees o a m s
      (match c.tx s with
        | some x => x.overlay o a bs
        | none => if c.direct || !outside c.cluster o then bs else forwarded (s.cluster c.cluster).posted o a bs, s)) s)

/-- How many of the k bytes at a global address one access moves: the size of a held request, all where they move as one, else
a piece that ends on an 8-byte unit or at k (R278, R303). -/
def Cmd.piece (c : Cmd) (side : Nat) (whole : Bool) (a k : Nat) (s : State) : Nat × State :=
  match c.heldSize side s with
  | some n => (min n k, s)
  | none =>
    if whole then (k, s)
    else
      let r := c.choose (4 + side) ((k + 7) / 8) s
      (min k (8 * (r.1 + 1) - a % 8), r.2)

/-! ### Posting buffers (R271) -/

/-- The entries of a buffer that no earlier one overlaps: those that may reach their owner next. -/
def drainable : List Posted → List Posted → List Posted
  | _, [] => []
  | before, x :: r =>
    let rest := drainable (before ++ [x]) r
    if before.any fun y => y.overlaps x.owner x.addr x.data.length then rest else x :: rest

/-- Must a buffered write reach its owner now, whole: its command has gone on without it, or has no more clocks left than writes
held; or the buffer fills (assumption log 5)? -/
def State.mustDrain (s : State) (cl : Nat) (x : Posted) : Bool :=
  let ps := (s.cluster cl).posted
  decide (64 ≤ ps.length) || match s.cmd x.gpi x.cmd with
    | some c => !c.counts || decide (c.left < (ps.filter fun y => y.cmd == x.cmd).length)
    | none => true

/-- One entry goes to its owner: to a peer in a frame, gone when it is acknowledged; elsewhere whole, where it is asked so, or a
piece of it (R271, R278). -/
def drainEntry (cl : Nat) (whole : Bool) (x : Posted) (s : State) : State :=
  let k := s.ctxOf (x.gpi / 4)
  let c := s.cmd x.gpi x.cmd
  let put := fun (f : Posted → Option Posted) (s : State) => s.updCluster cl fun b =>
    { b with posted := b.posted.filterMap fun y => if y.id = x.id then f y else some y }
  let stay := put (fun y => some { y with go := false }) s
  match x.owner, k with
  | .peer d, some k => match s.sendFrame k d .write x.addr x.data none (some x.id) none with
    | none => State.heldOver (some k) stay
    | some t => put (fun y => some { y with sent := true, go := false }) t
  | o, k =>
    let full := match o with
      | .slice m => (rowsOf x.addr x.data.length).any fun r => (s.core m).bankFull x.gpi x.cmd r
      | _ => false
    if s.heldTile x.gpi o x.addr x.data.length || full then stay
    else
      let n := x.data.length
      let r := match c with
        | some c => if whole then (n, s) else c.piece 3 false x.addr n s
        | none => (n, s)
      let t := r.2.perform k none x.gpi x.cmd false o x.addr (x.data.take r.1)
      let t := match o with
        | .slice m =>
          let u := t.updCore m fun y => y.useRows x.gpi x.cmd (rowsOf x.addr r.1)
          if r.1 = n then u.weigh m 2 else u
        | _ => t
      put (fun y => if r.1 = n then none
        else some { y with go := false, va := x.va + r.1, addr := x.addr + r.1, data := x.data.drop r.1 }) t

/-- Every buffered write of a cluster that may goes to its owner at once: one more waits for room (R352). -/
def makeRoom (cl : Nat) (s : State) : State :=
  ((drainable [] (s.cluster cl).posted).filter fun x => !x.sent).foldl (fun t x => drainEntry cl true x t) s

/-- The buffered writes of a cluster to one slice go to it in their order, as far as they may: a compressed write to a region of it
reads what they wrote (R249, R271). -/
def flushTo (cl n : Nat) (s : State) : State :=
  ((s.cluster cl).posted.filter fun x => x.owner == .slice n).foldl (fun t x =>
    if (t.cluster cl).posted.any fun y => y.owner == .slice n && decide (y.id < x.id) then t else drainEntry cl true x t) s

/-- A write of a row's part of n bytes: held by the transaction, which sends only its marks, posted where its owner lies outside
the cluster, else performed (R260, R262, R271). A buffer that is full, with nothing in it that may leave, holds it (R352). -/
def farWrite (c : Cmd) (va : Nat) (bs : List W8) (n side : Nat) (last : Bool) (s : State) : Found :=
  match c.whereIs s va true with
  | .bad f => .error f
  | .at o a =>
    if c.intx.isSome then
      .ok (accessAt c o a bs.length side none (if last then markUsage c.cluster o a else []) .read [] (c.mark va true s) (fun s =>
        ([], if (c.tx s).isSome then s.updPart c.gpi fun x => { x with tx := x.tx.map fun t => t.hold o a bs } else s)) s)
    else if outside c.cluster o then
      let t := if 256 ≤ (s.cluster c.cluster).posted.length then makeRoom c.cluster s else s
      if 256 ≤ (t.cluster c.cluster).posted.length then .ok (none, holdRequest c side bs.length 0 t)
      else
        let r := spend c side bs.length (c.uses o a n side last) t
        if !r.1 then .ok (none, r.2)
        else
          let u := r.2.updCluster c.cluster fun x =>
            { x with posted := x.posted ++ [⟨t.nextId, false, false, c.gpi, c.id, va, last && side == 1, o, a, bs⟩] }
          .ok (some [], { u with nextId := t.nextId + 1 })
    else .ok (accessAt c o a bs.length side (some last) (c.uses o a n side last) .write bs none
      (fun s => ([], c.writes c.spares o a bs s)) s)

/-! ### Accesses to the own core -/

/-- A part of a row of the own slice used on one side: none while it waits. -/
def nearRow (c : Cmd) (a n side : Nat) (s : State) : Option State × State :=
  let o := Owner.slice c.core
  if c.blocked o a n s then (none, s)
  else
    let r := spend c side n (c.slots side 1) s
    if r.1 then (some (useRows c o a n true r.2), s) else (none, r.2)

/-- Bytes written to the own slice, wrapping; nothing while they wait. -/
def putLocal (c : Cmd) (a : Nat) (bs : List W8) (s : State) : Bool × State :=
  let a := a % 2 ^ 23
  let k := 2 ^ 23 - a
  let o := Owner.slice c.core
  if c.blocked o a (min k bs.length) s || c.blocked o 0 (bs.drop k).length s then (false, s)
  else
    let t := useRows c o 0 (bs.drop k).length true (useRows c o a (min k bs.length) true s)
    (true, c.writes c.spares o 0 (bs.drop k) (c.writes c.spares o a (bs.take k) t))

/-- Bytes written to the instruction scratchpad, the bundles read ahead by each partition kept as they stood (R152). -/
def putCode (n a : Nat) (bs : List W8) (s : State) : State :=
  let old := (List.range ((a % 16 + bs.length + 15) / 16)).map fun i =>
    let b := a / 16 * 16 + 16 * i
    (b, BitVec.ofNat 128 ((s.core n).imem.readN b 16))
  let t := s.updCore n fun c => { c with imem := c.imem.writeBytes a bs }
  (List.range 4).foldl (fun t q => t.updPart (4 * n + q) fun x => { x with stale := x.stale ++ old }) t

/-! ### Transforms (R244, R245) -/

/-- The w planes of 16 mantissas (R99). -/
def planeBlock (w : Nat) (ms : List Int) : List W8 :=
  (List.range w).flatMap fun k => splitBytes (packNat 1 (ms.map fun m => b2n (Sys2Proof.bit (low w m) k))) 2

/-- The mantissas of a block of w planes. -/
def blockMants (w : Nat) (bs : List W8) : List Int :=
  (List.range 16).map fun j =>
    sgn w (packNat 1 ((List.range w).map fun k => b2n (Sys2Proof.bit (joinBytes ((bs.drop (2 * k)).take 2)) j)))

/-- The candidates of XF 3: element 0 of 16 entries (R245). -/
def quantEntries (c : Cmd) (m : Core) : List (Nat × Num) :=
  let g := m.cbcfgOf c.cbk
  (List.range 16).filterMap fun i =>
    let x := searchNum (cbEtype g) (m.cbEntry c.cbk (cbEntryNo (cbWhole g) (cbAct g) i) % 2 ^ etypeBits (cbEtype g))
    if x.isNan then none else some (i, x)

/-- One block of XF 3: its indices, its scale, and its flags, those of the scale's conversion or IV for a block that holds a NaN
or Inf (R106, R245). A block whose scale rounds to zero has no quotient: its indices are free (assumption log 18). -/
def quantBlock (c : Cmd) (m : Core) (bs : List W8) (s : State) : (List W8 × List W8 × Nat) × State :=
  let xs := (List.range 32).map fun i =>
    (readFmt (fmtOf c.efmt) (joinBytes ((bs.drop (c.es * i)).take c.es))).1
  let es := quantEntries c m
  let done := fun (ix : List Nat) (sc fl : Nat) => (splitBytes (packNat 4 ix) 16, splitBytes sc 2, fl)
  let near := fun (x : Num) => (nearest x es).getD 0
  if xs.any fun x => x.isNan || x.isInf then (done (List.replicate 32 0) 0x7FC0 fIV, s)
  else
    let big := xs.foldl (fun a x => if ltNum false a (x.withSign false) then x.withSign false else a) (.fin false 0 1)
    let sc := convertNum (.flt fmtBF16) .rne 0 false big
    let q := readFlt fmtBF16 sc.pat
    if big.isZero then (done (List.replicate 32 (near (.fin false 0 1))) sc.pat sc.flags, s)
    else if q.isZero then
      let r := (List.range 32).foldl (fun (a : List Nat × State) i =>
        let d := c.choose (16 + i) 16 a.2
        (a.1 ++ [d.1], d.2)) ([], s)
      (done r.1 sc.pat sc.flags, r.2)
    else (done (xs.map fun x => near (divNum x q).1) sc.pat sc.flags, s)

/-- Bytes at a global address cut at the ends of its rows. -/
def rowParts : Nat → Nat → List W8 → List (Nat × List W8)
  | 0, _, _ => []
  | n + 1, va, bs =>
    let k := 128 - va % 128
    if bs.isEmpty then [] else (va, bs.take k) :: rowParts n ((va + k) % 2 ^ 56) (bs.drop k)

/-- Bytes that a command owes at a global address: in the row of those before them where they follow them. -/
def owe (l : List (Nat × List W8)) (e : Nat × List W8) : List (Nat × List W8) :=
  match l.getLast? with
  | some x => if x.1 + x.2.length = e.1 ∧ e.1 % 128 ≠ 0 then l.dropLast ++ [(x.1, x.2 ++ e.2)] else l ++ [e]
  | none => [e]

/-- Is the first of the writes that a command owes whole: of the scales of XF 3 a row is, when the next has begun or none is still
to come (R240, R245)? -/
def Cmd.owesNow (c : Cmd) : Bool :=
  match c.owed with
  | [] => false
  | [_] => !(c.kind == .copy && c.xf == 3) || (c.rd == c.srcLen && c.data.isEmpty)
  | _ => true

/-- May it be written now? In lockstep mode a scale row stands held, as a destination row does, until it is due (R351, R380;
assumption log 5). -/
def Cmd.owesDue (c : Cmd) (s : State) : Bool :=
  c.owesNow && (!(s.core c.core).lock || c.kind != .copy || c.xf != 3 || match c.owed with
    | [] => false
    | x :: _ => match c.whereIs s x.1 true with
      | .at (.peer _) _ => true
      | .at o _ => decide (c.left < c.rowsLeft true + s.latency c.core (c.ctx s) o)
      | .bad _ => true)

/-- Source bytes converted into destination bytes, one block where enough are there; none where they are not. -/
def convertStep (c : Cmd) (s : State) : Option (Except LateFault State) :=
  let ended := c.rd = c.srcLen
  let whole := some (.ok (putCmd { c with out := c.out ++ c.data, data := [] } s))
  if c.data.isEmpty then none
  else if c.kind ≠ .copy then whole
  else match c.xf with
    | 1 =>
      if c.data.length < 16 then none
      else
        let xs := (c.data.take 16).map fun b => b.toInt
        let lo : Int := -(2 ^ (c.pw - 1) : Int) + (if c.a128 then 0 else 1)
        let rs := xs.map fun x => satInt lo (2 ^ (c.pw - 1) - 1) x
        some (.ok (putCmd { c with
          data := c.data.drop 16, out := c.out ++ planeBlock c.pw (rs.map Prod.fst),
          flags := c.flags ||| rs.foldl (fun a r => a ||| r.2) 0 } s))
    | 2 =>
      if c.data.length < 2 * c.pw then none
      else some (.ok (putCmd { c with
        data := c.data.drop (2 * c.pw),
        out := c.out ++ (blockMants c.pw (c.data.take (2 * c.pw))).map fun m => BitVec.ofInt 8 m } s))
    | 3 =>
      let n := 32 * c.es
      let m := s.core c.core
      if c.data.length < n then none
      else if cbValid (m.cbcfgOf c.cbk) < 16 then
        some (.error ⟨causeInvalidIndex, cbValid (m.cbcfgOf c.cbk) % 4096 + 4096 * c.cbk, 0⟩)
      else
        let r := quantBlock c m (c.data.take n) s
        let at_ := (c.scl + 2 * ((c.wr + c.out.length) / 16)) % 2 ^ 56
        some (.ok (putCmd { c with
          data := c.data.drop n, out := c.out ++ r.1.1, flags := c.flags ||| r.1.2.2,
          owed := (rowParts 2 at_ r.1.2.1).foldl owe c.owed } r.2))
    | 7 =>
      if c.data.length < 2 && !ended then none
      else
        let b := BitVec.ofNat 8 ((c.data.getD 0 0).toNat % 16 + 16 * ((c.data.getD 1 0).toNat % 16))
        some (.ok (putCmd { c with data := c.data.drop 2, out := c.out ++ [b], crc := crcStep c.crc [b] } s))
    | _ => whole

/-- Side-bank entries of n 2-byte units from a window address set to one index (R235, R244). -/
def putSide (va n v : Nat) (s : State) : State :=
  (List.range n).foldl (fun s i =>
    let w := va - windowBase + 2 * i
    s.updCore (w / 2 ^ 23) fun c => { c with side := c.side.write (w % 2 ^ 23 / 2) (BitVec.ofNat 8 v) }) s

/-! ### Steps of the row-moving commands -/

/-- A step that makes no progress now, or one that does. -/
abbrev Step := Except LateFault (Bool × State)

/-- A step done, or one that waits. -/
def stepIf (ok : Option State × State) (f : State → State) : Step :=
  .ok (match ok.1 with
    | some t => (true, f t)
    | none => (false, ok.2))

/-- Bytes to the end of the 128-byte row at an address, at most m. -/
def rowRest (a m : Nat) : Nat := min m (128 - a % 128)

/-- The bytes of a row's part up to its end at va + k, given how many of its run stand before va. -/
def rowPart (before va k : Nat) : Nat := min before (va % 128) + k

/-- Bytes of a command's run before position i (R253). -/
def Cmd.inRun (c : Cmd) (i : Nat) : Nat := if c.kind = .gath ∨ c.kind = .scat then i % c.rowBytes else i

/-- Rows of the own slice move whole (R240). -/
def Where.own (n : Nat) : Where → Bool
  | .at (.slice m) _ => m == n
  | _ => false

/-- Source bytes taken in: counted, and entered in the checksum where it is over them (R246). -/
def takeIn (c : Cmd) (bs : List W8) (s : State) : State :=
  putCmd { c with
    rd := c.rd + bs.length, data := c.data ++ bs,
    crc := if c.kind == .copy && c.xf == 7 then c.crc else crcStep c.crc bs } s

/-- A slice as a command reads a region of it: with the writes of its clock (R232), and with its cluster's buffered writes where
the slice lies outside the cluster (R271). -/
def Cmd.region (c : Cmd) (n : Nat) (s : State) : Mem :=
  let m := (s.core n).seen c.gpi c.id
  if outside c.cluster (.slice n) then
    ((s.cluster c.cluster).posted.filter fun x => x.owner == .slice n).foldl (fun m x => m.writeBytes x.addr x.data) m
  else m

/-- Has a group's expander or compressor taken its tile of this clock (R345)? -/
def State.codecWait (s : State) (n dir a : Nat) : Bool := (s.core n).tilesNow.contains (codecOf dir a)

def useCodec (n dir a : Nat) (s : State) : State :=
  s.updCore n fun c => { c with tilesNow := codecOf dir a :: c.tilesNow }

/-- Does a committing transaction hold the header of the region at base b of a slice, or the table entry of its tile i (R280)? -/
def State.regionHeld (s : State) (p n b i : Nat) : Bool :=
  s.heldTile p (.slice n) b 128 || s.heldTile p (.slice n) ((b + 128 + 4 * i) % 2 ^ 23) 4

/-- XF 5: the next tile of the source region enters its group's expander, one on a clock, which delivers it 4 clocks later; its
table entry comes from the expander's cache (R250, R345). -/
def expandStep (c : Cmd) (s : State) : Step :=
  match c.whereIs s c.src false with
  | .bad f => .error f
  | .at (.slice n) b =>
    let m := c.region n s
    let i := c.tile0 + c.rd / 256
    let span := match tileSpan m b i with
      | some x => (x.1, (x.2 + 2 ^ 23 - x.1) % 2 ^ 23 + 1)
      | none => (b, 0)
    if s.codecWait n 0 b || s.regionHeld c.gpi n b i || c.blocked (.slice n) span.1 span.2 s then .ok (false, s)
    else match readTile m b i with
      | .error f => .error f
      | .ok bs =>
        let r := spend c 0 256 (usage c.cluster (.slice n) b 256 ++ c.slots 0 2) s
        if !r.1 then .ok (false, r.2)
        else
          let t := useCodec n 0 b (useRows c (.slice n) span.1 span.2 true r.2)
          let d := c.again t
          let xs := bs.take (min 256 (c.srcLen - c.rd))
          .ok (true, putCmd { d with rd := d.rd + xs.length, codec := d.codec ++ [(d.ran + 4, xs)] } t)
  | .at _ _ => .ok (false, s)

/-- A tile that the expander delivers. -/
def deliverTile (c : Cmd) (bs : List W8) (s : State) : State :=
  putCmd { c with codec := c.codec.tail, data := c.data ++ bs, crc := crcStep c.crc bs } s

/-- XF 7: the side-bank entries of the next 64 units read (R244). -/
def sideRead (c : Cmd) (s : State) : Step :=
  let w := c.src / 2 * 2 + 2 * c.rd
  match c.whereIs s w false with
  | .bad f => .error f
  | .at (.slice n) a =>
    let k := min (c.srcLen - c.rd) (64 - a / 2 % 64)
    if c.blocked (.slice n) a (2 * k) s then .ok (false, s)
    else
      let r := spend c 0 k (usage c.cluster (.slice n) a k ++ c.slots 0 1) s
      if !r.1 then .ok (false, r.2)
      else
        let t := useRows c (.slice n) a (2 * k) true r.2
        .ok (true, takeIn (c.again t) ((s.core n).side.bytes (a / 2) k) t)
  | .at _ _ => .ok (false, s)

/-- The next source bytes read: a row of the own slice whole, a piece of a row elsewhere, a tile of a compressed region, or
side-bank entries. -/
def readStep (c : Cmd) (s : State) : Step :=
  let r := c.srcAt c.rd
  if c.kind = .copy ∧ c.xf = 5 then expandStep c s
  else if c.kind = .copy ∧ c.xf = 7 then sideRead c s
  else match r.1 with
    | .far va =>
      let k := rowRest va r.2
      let d := c.piece 0 ((c.whereIs s va false).own c.core) va k s
      match farRead c va d.1 (rowPart (c.inRun c.rd) va d.1) (d.1 == k) d.2 with
      | .error f => .error f
      | .ok (none, t) => .ok (false, t)
      | .ok (some bs, t) => .ok (true, takeIn (c.again t) bs t)
    | x =>
      let k := rowRest x.addr r.2
      stepIf (nearRow c x.addr k 0 s) fun t => takeIn (c.again t) (c.sees (.slice c.core) x.addr k t) t

/-- n destination bytes written: the row is done where they end it. -/
def putOut (c : Cmd) (n : Nat) (last : Bool) (s : State) : State :=
  putCmd { c with wr := c.wr + n, out := c.out.drop n, rows := c.rows + b2n last } s

/-- XF 4: the next tile enters the compressor of its region's group, one on a clock (R345). -/
def packStep (c : Cmd) (s : State) : Step :=
  match c.whereIs s c.dst true with
  | .bad f => .error f
  | .at (.slice n) b =>
    if !c.due s || s.codecWait n 1 b then .ok (false, s)
    else
      let r := spend c 1 256 (usage c.cluster (.slice n) b 256 ++ c.slots 1 2) s
      if !r.1 then .ok (false, r.2)
      else
        let t := useCodec n 1 b r.2
        let d := c.again t
        .ok (true, putCmd { d with out := d.out.drop 256, codec := d.codec ++ [(d.ran + 4, d.out.take 256)] } t)
  | .at _ _ => .ok (false, s)

/-- XF 4: a tile that has passed the compressor is stored, with its entry and header, on one performing clock (R249, R345). -/
def tileStep (c : Cmd) (bs : List W8) (s : State) : Step :=
  match c.whereIs s c.dst true with
  | .bad f => .error f
  | .at (.slice n) b =>
    let i := c.tile0 + c.wr / 256
    let u := if outside c.cluster (.slice n) then flushTo c.cluster n s else s
    if (u.cluster c.cluster).posted.any (fun x => x.owner == .slice n) || u.regionHeld c.gpi n b i then .ok (false, u)
    else match storeTile ((u.core n).seen c.gpi c.id) b i c.kzs bs with
      | .error f => .error f
      | .ok ws =>
        if ws.any fun w => c.blocked (.slice n) w.1 w.2.length u then .ok (false, u)
        else
          let t := ws.foldl (fun t w =>
            let k := 2 ^ 23 - w.1
            c.writes none (.slice n) 0 (w.2.drop k) (c.writes none (.slice n) w.1 (w.2.take k)
              (useRows c (.slice n) w.1 w.2.length true t))) u
          let d := c.again t
          .ok (true, putCmd { d with wr := d.wr + 256, codec := d.codec.tail, rows := d.rows + 2 } t)
  | .at _ _ => .ok (false, s)

/-- The next destination bytes written, where a whole row's part is there to write, and no progress while it may not be; a piece of
it goes out. -/
def writeStep (c : Cmd) (s : State) : Option Step :=
  let r := c.dstAt c.wr
  let k := rowRest r.1.addr r.2
  if c.kind = .copy ∧ c.xf = 4 then (if c.out.length < 256 then none else some (packStep c s))
  else if c.out.length < k then none
  else if !c.due s then some (.ok (false, s))
  else match r.1 with
    | .near a =>
        let w := nearRow c a k 1 s
        some (stepIf w fun t =>
          let d := c.again t
          putOut d k true (c.writes c.spares (.slice c.core) a (c.out.take k) t))
    | .code a =>
        let w := spend c 1 k (c.slots 1 1) s
        some (.ok (if w.1 then (true, putOut (c.again w.2) k true (putCode c.core a (c.out.take k) w.2)) else (false, w.2)))
    | .far va =>
      let o := c.whereIs s va true
      let whole := o.own c.core || c.intx.isSome || match o with
        | .at o _ => outside c.cluster o
        | .bad _ => true
      let d := c.piece 1 whole va k s
      let last := d.1 == k
      some (match farWrite c va (c.out.take d.1) (rowPart (c.inRun c.wr) va d.1) 1 last d.2 with
        | .error f => .error f
        | .ok (none, t) => .ok (false, t)
        | .ok (some _, t) =>
          let lo := (c.wr + 2 * c.pw - 1) / (2 * c.pw)
          let hi := (c.wr + d.1 + 2 * c.pw - 1) / (2 * c.pw)
          let t := if c.kind = .copy ∧ c.xf = 1
            then (List.range (hi - lo)).foldl (fun t i => putSide (c.dst + 2 * c.pw * (lo + i)) 1 c.six t) t else t
          .ok (true, putOut (c.again t) d.1 last t))

/-- The first of the writes that a command owes beside its destination: a scale of XF 3, or a row that a peer refused (R245,
R366). -/
def owedStep (c : Cmd) (s : State) : Step :=
  match c.owed with
  | [] => .ok (false, s)
  | x :: r => match farWrite c x.1 x.2 x.2.length 2 true s with
    | .error f => .error f
    | .ok (none, t) => .ok (false, t)
    | .ok (some _, t) => .ok (true, putCmd { c.again t with owed := r } t)

/-- XF 6: the side-bank entries of one row of the range (R244). -/
def sideStep (c : Cmd) (s : State) : Step :=
  let va := c.dst + c.wr
  let k := rowRest va (c.len - c.wr)
  match c.whereIs s va true with
  | .bad f => .error f
  | .at o a =>
    if !c.due s || c.blocked o a k s then .ok (false, s)
    else
      let r := spend c 1 k (usage c.cluster o a (unitsOf va k) ++ c.slots 1 1) s
      if !r.1 then .ok (false, r.2)
      else
        let t := putSide (va / 2 * 2) (unitsOf va k) c.six (useRows c o a k true r.2)
        let d := c.again t
        .ok (true, putCmd { d with wr := d.wr + k, rows := d.rows + 1 } t)

/-- A command that has moved everything: the checksum it was asked for, and then no more (R246, R266). -/
def lastStep (c : Cmd) (s : State) : Step :=
  if !c.wantCrc then .ok (true, putCmd { c with aux := 1 } s)
  else if !c.due s then .ok (false, s)
  else
    let r := putLocal c c.cofs (splitBytes (crcFinal c.crc) 4) s
    .ok (r.1, if r.1 then putCmd { c.again r.2 with aux := 1 } r.2 else r.2)

/-- A fault met reading or converting stops the command at the boundary of its row or block: what stands before it is
written first, in its time (R241). -/
def faultAfterWrites (c : Cmd) (f : LateFault) (s : State) : Step :=
  if !c.codec.isEmpty then .ok (false, s)
  else if c.owesNow then (if c.owesDue s then owedStep c s else .ok (false, s))
  else (writeStep c s).getD (.error f)

/-- One step of a command that moves a stream of bytes, no tile of it leaving a codec: a write it owes, a write, a conversion or a
read, the choice between writing and reading open where both can be made. -/
def moveStep (c : Cmd) (s : State) : Step :=
  if c.owesDue s then owedStep c s
  else if c.aux = 1 then .ok (false, s)
  else if c.kind = .copy ∧ c.xf = 6 then (if c.wr < c.dstLen then sideStep c s else lastStep c s)
  else if c.dstLen ≤ c.wr then lastStep c s
  else
    let d := match c.heldSide s with
      | some x => (x, s)
      | none => c.choose 3 2 s
    let read := fun (t : State) => match readStep c t with
      | .error f => faultAfterWrites c f t
      | r => r
    let rest := fun (t : State) => match convertStep c t with
      | some (.error f) => faultAfterWrites c f t
      | some (.ok t) => .ok (true, t)
      | none => if c.rd < c.srcLen then read t else .ok (false, t)
    match (if d.1 = 0 && decide (c.rd < c.srcLen) then none else writeStep c d.2) with
    | some (.ok (true, t)) => .ok (true, t)
    | some (.error f) => .error f
    | some (.ok (false, t)) => rest t
    | none => rest d.2

/-- The tile that leaves a command's codec on this clock, or has been due to (R345). -/
def Cmd.tileOut (c : Cmd) : Option (List W8) := (c.codec.head?.filter fun x => decide (x.1 ≤ c.ran)).map Prod.snd

/-- One step of a command that moves a stream of bytes; the tile that leaves its codec comes first. -/
def streamStep (c : Cmd) (s : State) : Step :=
  match c.tileOut with
  | some bs => if c.xf = 5 then .ok (true, deliverTile c bs s) else tileStep c bs s
  | none => moveStep c s

/-! ### Atomics, transactions, task queues -/

/-- What an atomic leaves of an old value: none where a compare fails (R242). -/
def farAtomic (c : Cmd) (old : Nat) : Option Nat :=
  let op := Sys2Proof.fld (c.word 1) 46 4
  if op = 9 then
    if c.size = 4 then (if old = c.word 2 % 2 ^ 32 then some (c.word 2 / 2 ^ 32) else none)
    else if old = c.dword 0 then some (c.word 2) else none
  else some (atomicNew op (8 * c.size) old (c.word 2))

/-- A result that a command delivers at an offset of its own slice, its last effect: in lockstep mode on the clock of its tag
(R351). -/
def deliverLocal (c : Cmd) (a : Nat) (bs : List W8) (d : Cmd → Cmd) (s : State) : Step :=
  if (s.core c.core).lock && c.left != 0 then .ok (false, s)
  else
    let r := putLocal c a bs s
    .ok (r.1, if r.1 then putCmd (d { c.again r.2 with aux := 1 }) r.2 else r.2)

/-- FATOM: one access at the owner, and then the old value at LOFS (R242, R262). -/
def atomStep (c : Cmd) (s : State) : Step :=
  if !c.out.isEmpty then deliverLocal c c.lofs c.out (fun d => { d with rows := 1, wr := c.size }) s
  else match c.whereIs s c.va true with
    | .bad f => .error f
    | .at o a =>
      let kind := Sys2Proof.FrameKind.atomic (Sys2Proof.fld (c.word 1) 46 4) (c.size == 8)
      let data := splitBytes (c.word 2) 8 ++ splitBytes (c.dword 0) 8
      let r := accessAt c o a c.size 0 (some true) (c.uses o a c.size 0 true) kind data (c.mark c.va true s) (fun s =>
        let bs := match c.tx s with
          | some x => x.overlay o a (c.sees o a c.size s)
          | none => c.sees o a c.size s
        match farAtomic c (joinBytes bs) with
        | none => (bs, s)
        | some v => (bs, if c.intx.isNone then c.writes none o a (splitBytes v c.size) s
            else if (c.tx s).isNone then s
            else s.updPart c.gpi fun x => { x with tx := x.tx.map fun t => t.hold o a (splitBytes v c.size) })) s
      match r with
      | (none, t) => .ok (false, t)
      | (some bs, t) => .ok (true, putCmd { c.again t with out := bs } t)

/-- n bytes of a buffer that follow one another from an address of an owner, as long as they do. -/
def heldRun (buf : List TxByte) (o : Owner) : Nat → Nat → List TxByte
  | _, 0 => []
  | a, n + 1 => match buf.find? fun t => t.owner == o && t.addr == a with
    | none => []
    | some b => b :: heldRun buf o (a + 1) n

/-- Are a transaction's writes being applied (R261)? -/
def Tx.busy (x : Tx) : Bool := x.applying && !x.buf.isEmpty

/-- Does a TXC apply its transaction's writes? It goes on whatever holds its core's other commands, since a commit has no row boundary
to stop at (R261, R321; DEDUCED, assumption log 120). -/
def Cmd.commits (c : Cmd) (s : State) : Bool :=
  c.kind == .txc && c.counting && c.fault.isNone && match c.tx s with
    | some x => x.busy
    | none => false

/-- The rows of memory that a transaction's buffer holds bytes of. -/
def Tx.rows (x : Tx) : Nat := (x.buf.map fun b => (b.owner, b.addr / 128)).dedup.length

/-- TXC: the buffered writes perform while the marks stay held, a run of bytes within a row at a time, those at peers last; with the
last the marks go. Then the status is written and the transaction ends. A doomed transaction's buffer is discarded (R261,
R260). -/
def commitStep (c : Cmd) (s : State) : Step :=
  match c.tx s with
  | none => .ok (true, putCmd { c with aux := 1 } s)
  | some x =>
    let near := x.buf.find? fun b => match b.owner with
      | .peer _ => false
      | _ => true
    match (if x.code = 0 then near.or x.buf.head? else none) with
    | some b =>
      let bs := heldRun x.buf b.owner b.addr (128 - b.addr % 128)
      let vs := bs.map TxByte.val
      let t := s.updPart c.gpi fun z => { z with tx := some { x with applying := true } }
      let r := accessAt c b.owner b.addr bs.length 1 (some true) (c.uses b.owner b.addr bs.length 1 true) .write vs none (fun s =>
        ([], (c.writes (some c.gpi) b.owner b.addr vs s).updPart c.gpi fun z =>
          { z with tx := z.tx.map fun y =>
              let rest := y.buf.filter fun b => !bs.contains b
              { y with buf := rest, marks := if rest.isEmpty then [] else y.marks } })) t
      .ok (r.1.isSome, r.2)
    | none =>
      let v := x.code + (if x.code = 1 ∨ x.code = 2 then x.va / 256 * 256 else 0)
      match deliverLocal c (c.word 0) (splitBytes v 8) id s with
      | .ok (true, t) => .ok (true, t.updPart c.gpi fun z => { z with tx := none })
      | r => r

/-- An entry appended to a cluster's task queue; none where it is full or word 0 is zero (R263, R310). -/
def appendTask (cl : Nat) (d : Nat) (s : State) : Option State :=
  let x := s.cluster cl
  if 1024 ≤ x.tq.length ∨ d % 2 ^ 64 = 0 then none
  else some (s.updCluster cl fun x =>
    { x with tq := x.tq ++ [(x.tqTail, BitVec.ofNat 256 d)], tqTail := (x.tqTail + 1) % 1024 })

/-- SPAWN: its descriptor read and appended (R263). -/
def spawnStep (c : Cmd) (s : State) : Step :=
  let o := Owner.slice c.core
  if c.blocked o (c.word 0) 32 s then .ok (false, s)
  else match appendTask c.cluster (joinBytes (c.sees o (c.word 0) 32 s)) (useRows c o (c.word 0) 32 true s) with
    | none => .error ⟨causeTaskQueue, 0, 0⟩
    | some t => .ok (true, putCmd { c with aux := 1, rows := 1 } t)

/-- JOIN: the counter decremented at its owner, and at zero the continuation appended; a fault leaves the counter as it
stood (R263; DEDUCED for a full queue, assumption log 19). -/
def joinStep (c : Cmd) (s : State) : Step :=
  let va := c.word 0 % 2 ^ 56
  match c.whereIs s va true with
  | .bad f => .error f
  | .at o a =>
    match accessAt c o a 40 0 (some true) (c.uses o a 40 0 true) (.atomic 0 true) [] none (fun s => (c.sees o a 40 s, s)) s with
    | (none, t) => .ok (false, t)
    | (some bs, t) =>
      let n := joinBytes (bs.take 8)
      let t1 := c.writes none o a (splitBytes (n - 1) 8) t
      let d := { c.again t with aux := 1, rows := 1 }
      if n = 0 then .error ⟨causeTaskQueue, 0, 0⟩
      else if n = 1 then match appendTask c.cluster (joinBytes (bs.drop 8)) t1 with
        | none => .error ⟨causeTaskQueue, 0, 0⟩
        | some u => .ok (true, putCmd d u)
      else .ok (true, putCmd d t1)

/-- The clusters that a TAKE visits, in rotation from its own (R311). -/
def Cmd.rotation (c : Cmd) (s : State) : List Nat :=
  match ((s.core c.core).kernel).bind s.kernel with
  | none => [c.cluster]
  | some k =>
    let xs := k.clusters.filter fun x => x != c.cluster
    c.cluster :: (xs.filter (fun x => decide (c.cluster < x)) ++ xs.filter (fun x => decide (x < c.cluster)))

/-- What a TAKE found: the 32 bytes, and the victim cluster, its slot and whether there was none, for its entry. -/
def tookTask (c : Cmd) (v cl slot : Nat) (empty : Bool) (s : State) : State :=
  putCmd { c with out := splitBytes v 32, desc := [cl, slot, b2n empty] } s

/-- A TAKE's visit to a cluster's queue, n bytes of entry coming back over the mesh from another's (R302, R311). -/
def visitQueue (c : Cmd) (cl n : Nat) (f : State → State) (s : State) : Step :=
  let r := spend c 0 n (if cl = c.cluster then [] else pathFlits (meshRoute (c.cluster / 10) c.cluster (cl / 10) cl) n) s
  .ok (r.1, if r.1 then f r.2 else r.2)

/-- TAKE: one visit, in replay the visit of the recorded victim (R309, R311); then the entry is written at its
destination. -/
def takeStep (c : Cmd) (s : State) : Step :=
  if !c.out.isEmpty then deliverLocal c (c.word 0) c.out (fun d => { d with rows := 1 }) s
  else
    let remove := fun (cl slot : Nat) (s : State) =>
      s.updCluster cl fun x => { x with tq := x.tq.filter fun e => e.1 != slot }
    if 3 ≤ c.words.length then
      let w := c.word 3
      let v := c.word 4 + 2 ^ 64 * c.word 5 + 2 ^ 128 * c.word 6 + 2 ^ 192 * c.word 7
      let cl := Sys2Proof.fld w 0 5
      let slot := Sys2Proof.fld w 5 10
      if Sys2Proof.bit w 15 then .ok (true, tookTask c 0 0 0 true s)
      else if (s.cluster cl).tq.contains (slot, BitVec.ofNat 256 v) then
        visitQueue c cl 32 (fun t => tookTask (c.again t) v cl slot false (remove cl slot t)) s
      else .error ⟨causeReplay, 0, 0⟩
    else match (c.rotation s)[c.rd]? with
      | none => .ok (true, tookTask c 0 0 0 true s)
      | some cl => match (s.cluster cl).tq with
        | [] => visitQueue c cl 0 (fun t => let d := c.again t; putCmd { d with rd := d.rd + 1 } t) s
        | e :: _ => visitQueue c cl 32 (fun t => tookTask (c.again t) e.2.toNat cl e.1 false (remove cl e.1 t)) s

/-! ### Collective gather (R255, R367) -/

/-- A command's rank in its group, and the devices and partitions of its members (R367). -/
def Cmd.rank (c : Cmd) (s : State) : Nat :=
  ((c.members s).findIdx? fun m => m == (s.devid.toNat % 2 ^ 12, c.gpi)).getD 0

def Cmd.group (c : Cmd) : Nat := Sys2Proof.fld (c.word 0) 46 6

/-- A row of a contribution on its way to one member, over the mesh on this device and in a frame elsewhere; none where the frame
finds no room. A frame's address carries the member's partition and BYTES (PRESUMED, assumption log 20). -/
def sendRow (c : Cmd) (k row : Nat) (bs : List W8) (s : State) (m : Nat × Nat) : Option State :=
  if m.1 = s.devid.toNat % 2 ^ 12 then
    some { s with gathers := s.gathers ++ [⟨k, c.group, c.rank s, m.2, row, c.cgBytes, bs, none⟩] }
  else s.sendFrame k m.1 (.collective c.group (c.rank s) row) (m.2 + 2 ^ 11 * c.cgBytes) bs (some (c.gpi, c.id)) none none

/-- Row `row` of a contribution sent to some members, read from the own slice and charged (R302, R367). -/
def sendRows (c : Cmd) (k row : Nat) (ms : List (Nat × Nat)) (s : State) : Option State × State :=
  let a := (c.word 0 + 128 * row) % 2 ^ 23
  let n := min 128 (c.srcLen - 128 * row)
  let o := Owner.slice c.core
  if c.blocked o a n s then (none, s)
  else
    let bs := (List.range n).map fun i => (s.seen c.gpi c.id o).read ((a + i) % 2 ^ 23)
    let here := s.devid.toNat % 2 ^ 12
    let xs := ms.flatMap fun m => usage c.cluster (if m.1 = here then .slice (m.2 / 4) else .peer m.1) 0 n
    let r := spend c 0 n (xs ++ c.slots 0 1) s
    if !r.1 then (none, r.2)
    else match ms.foldl (fun t m => t.bind fun t => sendRow c k row bs t m) (some r.2) with
      | none => (none, holdRequest c 0 n 0 s)
      | some t => (some (useRows c o a n true t), s)

/-- The next row of a contribution sent to every member, once the partition's earlier contributions of other sizes to the group are
all sent; first the rows that a peer refused, each noted as the member's rank +
1024 * row (R255, R366, R367). -/
def gatherStep (c : Cmd) (s : State) : Step :=
  match c.ctx s with
  | none => .ok (true, putCmd { c with aux := 1, owed := [] } s)
  | some k =>
    match c.owed with
    | x :: rest =>
      stepIf (sendRows c k (x.1 / 1024) (((c.members s)[x.1 % 1024]?).toList) s) fun t => putCmd { c.again t with owed := rest } t
    | [] =>
      if c.srcLen ≤ c.rd then .ok (true, putCmd { c with aux := 1 } s)
      else if (s.part c.gpi).cmds.any fun x => x.kind == .cgath && decide (x.id < c.id) && x.group == c.group
          && x.cgBytes != c.cgBytes && (x.aux != 1 || !x.owed.isEmpty || s.unanswered x.gpi x.id) then .ok (false, s)
      else stepIf (sendRows c k (c.rd / 128) (c.members s) s) fun t =>
        putCmd { c.again t with rd := min c.srcLen (c.rd + 128), rows := c.rd / 128 + 1 } t

/-- A row of a contribution among those of its members: by rank, then by row. -/
def Gather.key (g : Gather) : Nat := g.rank * 2 ^ 20 + g.row

/-- Does a command still await a row like one that has come: not that row of the rank itself, nor all of the rank's? -/
def Cmd.awaits (c : Cmd) (g : Gather) : Bool :=
  !c.landed.contains g.key && decide ((c.landed.filter fun x => x / 2 ^ 20 == g.rank).length < c.cgRows)

/-- The rows that wait to land for a command: each belongs to its partition's oldest collective of the group that awaits it (R255). -/
def State.arrived (s : State) (c : Cmd) : List Gather :=
  s.gathers.filter fun g => some g.ctx == c.ctx s && g.grp == c.group && g.dst == c.gpi && c.awaits g
    && (s.part c.gpi).cmds.all fun x => !(x.kind == .cgath && x.group == c.group && decide (x.id < c.id) && x.awaits g)

/-- COLLECTIVE_CONTRIBUTION_LANDING: of the rows waiting for a command the first by rank and row lands at its place, and a frame
that brought it is answered; a row of another BYTES is a collective mismatch. A landing after the tag clock of lockstep mode is
a hold (R255, R304, R365, R367). -/
def execCollectiveContributionLanding (p c : Nat) (s : State) : Out :=
  withCmd p c (fun d s =>
    let gs := s.arrived d
    match gs.find? fun g => gs.all fun h => decide (g.key ≤ h.key) with
    | none => s
    | some g =>
      let answer := fun (t : State) => match g.frame with
        | some x => landedFrame g.ctx x.1 x.2 { t with gathers := t.gathers.erase g }
        | none => { t with gathers := t.gathers.erase g }
      if g.bytes ≠ d.cgBytes then faultCmd d ⟨causeCollective, 0, 0⟩ (answer s)
      else
        let r := putLocal d (Sys2Proof.fld (d.word 0) 23 23 + g.rank * d.cgBytes + 128 * g.row) g.data s
        if !r.1 then s
        else
          let t := if decide (d.time s < d.ran) then State.heldOver (d.ctx s) (answer r.2) else answer r.2
          let e := d.again t
          putCmd { e with landed := g.key :: e.landed } t) s

/-! ### Table loads (R265) -/

/-- The entries of a table load's row: their number and size by table. -/
def tableRows (tbl : Nat) (v : Nat) : List Nat :=
  match tbl with
  | 0 => (List.range 16).map fun i => Sys2Proof.fld v (64 * i) 64
  | 1 => (List.range 4).map fun i => Sys2Proof.fld v (256 * i) 256
  | 2 => (List.range 8).map fun i => Sys2Proof.fld v (128 * i) 128
  | _ => (List.range 32).map fun i => Sys2Proof.fld v (32 * i) 32

/-- The row of a table load is read at c + 1 and placed in the landing its issue put in flight. A transaction that commits to its
tile holds it, and the landing with it (R261). -/
def tableStep (c : Cmd) (s : State) : Step :=
  let a := c.word 0 % 2 ^ 23 / 128 * 128
  let rows := tableRows c.fn (((s.core c.core).seen c.gpi c.id).readN a 128)
  let mine := fun (l : LandAct) => match l with
    | .table _ _ _ _ _ id => id == c.id
    | _ => false
  let fill := fun (l : LandAct) => match l with
    | .table t b f _ g id => .table t b f rows g id
    | x => x
  if s.heldTile c.gpi (.slice c.core) a 128 then
    .ok (false, putCmd { c with left := c.left + 1 } (s.updCore c.core fun x =>
      { x with pend := x.pend.map fun l => if mine l.act then { l with due := l.due + 1 } else l }))
  else
    let t := useRows c (.slice c.core) a 128 true s
    let t := t.updPart c.gpi fun x =>
      { x with snap := x.snap.map fun e => if mine e.act then { e with act := fill e.act } else e }
    .ok (true, putCmd { c with aux := 1 } (t.updCore c.core fun x =>
      { x with pend := x.pend.map fun l => if mine l.act then { l with act := fill l.act } else l }))

/-! ### Far accesses -/

/-- The next step of a command. -/
def Cmd.step (c : Cmd) (s : State) : Step :=
  match c.kind with
  | .fld | .fst | .copy | .gath | .scat | .ovld => streamStep c s
  | .fatom => atomStep c s
  | .txc => commitStep c s
  | .spawn => spawnStep c s
  | .join => joinStep c s
  | .take => takeStep c s
  | .cgath => gatherStep c s
  | .table => tableStep c s
  | .mcst | .drn | .ckpt | .txb | .txa => .ok (false, s)

/-- Must a command make an access on this clock: its rows are as many as its clocks, or a request of it is held (R303)? A
collective sends a row on every clock; TAKE makes its visits before the clock of its tag. -/
def Cmd.must (c : Cmd) (s : State) : Bool :=
  c.left == 0 || (c.heldSide s).isSome || c.owesDue s || c.tileOut.isSome || match c.kind with
  | .cgath => true
  | .take => decide (c.left ≤ 1 + ((c.rotation s).length - c.rd))
  | .txc => match c.tx s with
    | some x => decide (c.left < x.rows)
    | none => true
  | .fld | .fst | .copy | .gath | .scat | .ovld =>
    c.behind || ((s.core c.core).lock && decide (c.wr < c.dstLen) && c.due s)
  | _ => false

/-- FAR_ACCESS_ARRIVAL: one access of a command that counts its time is applied at its owner. More follow on this clock where
they must, or by a choice (R237, R270; assumption log 5). What a TAKE found is written from the next clock on (R312). -/
def execFarAccessArrival (p c : Nat) (s : State) : Out :=
  withCmd p c (fun d s =>
    if (!d.counts && !d.commits s) || (d.aux == 1 && d.owed.isEmpty) then s
    else match d.step s with
      | .error f => faultCmd (d.again s) f s
      | .ok (moved, t) => match t.cmd p c with
        | none => t
        | some e =>
          if !moved || (e.aux == 1 && e.owed.isEmpty) || (e.kind == .take && !e.out.isEmpty) then t
          else
            let r := if e.must t then (1, t) else e.choose 2 2 t
            if r.1 = 1 then { r.2 with agenda := ⟨p / 4, .farAccessArrival p c⟩ :: r.2.agenda } else r.2) s

/-! ### Multicast (R254) -/

/-- The source offset of the next row of an MCST, its offset in the target slices, and their cores. -/
def Cmd.mcSource (c : Cmd) : Nat := (c.word 0 + 128 * c.rows) % 2 ^ 23

def Cmd.mcEntry (c : Cmd) (s : State) : W128 := Cells.get 0 (Sys2Proof.fld (c.word 0) 23 4) (s.cluster c.cluster).mcwin

def Cmd.mcTarget (c : Cmd) (s : State) : Nat := (mcBase (c.mcEntry s) + 16 * Sys2Proof.fld (c.word 0) 27 12 + 128 * c.rows) % 2 ^ 23

def Cmd.mcCores (c : Cmd) (s : State) : List Nat :=
  ((List.range 16).filter fun j => Sys2Proof.bit (mcMask (c.mcEntry s)) j).map fun j => 16 * c.cluster + j

/-- The rows that a multicast row due on this clock uses, noted before any other of the clock: it waits for no bank (R254, R340). -/
def reserveRow (c : Cmd) (s : State) : State :=
  (c.mcCores s).foldl (fun s n => s.updCore n fun x => x.useRows c.gpi c.id (rowsOf (c.mcTarget s) 128))
    (s.updCore c.core fun x => x.useRows c.gpi c.id (rowsOf c.mcSource 128))

/-- MULTICAST_ROW_LANDING: the next row lands in every target slice on one clock, where every access of the clock still finds the
old bytes (R254, R279). -/
def execMulticastRowLanding (p c : Nat) (s : State) : Out :=
  withCmd p c (fun d s =>
    let a := d.mcTarget s
    let ns := d.mcCores s
    let src := Owner.slice d.core
    if s.heldTile p src d.mcSource 128 || ns.any fun n => s.heldTile p (.slice n) a 128 then s
    else
      let r := spend d 0 128 (d.slots 0 1) s
      if !r.1 then r.2
      else
        let bs := (List.range 128).map fun i => (s.seen p c src).read ((d.mcSource + i) % 2 ^ 23)
        let k := 2 ^ 23 - a
        let land := fun (t : State) (n : Nat) =>
          let t := useRows d (.slice n) a 128 true t
          (t.perform (d.ctx s) none p c true (.slice n) a (bs.take k)).perform (d.ctx s) none p c true (.slice n) 0 (bs.drop k)
        let t := ns.foldl land (useRows d src d.mcSource 128 true r.2)
        let rows := d.rows + 1
        putCmd { d.again t with rows := rows, aux := if rows = d.nr then 1 else 0 } t) s

/-! ### Buffered writes that reach their owners (R271) -/

/-- Of the buffered writes that go on this clock, the first in the order of R232. -/
def nextDrain (ps : List Posted) : Option Posted :=
  let gs := ps.filter fun x => x.go && !x.sent
  gs.find? fun x => gs.all fun y => decide (x.gpi < y.gpi) || (x.gpi == y.gpi && decide (x.cmd ≤ y.cmd))

/-- POSTED_WRITE_DRAIN: a buffered write that goes on this clock reaches its owner. -/
def execPostedWriteDrain (cl : Nat) (s : State) : Out :=
  .next (match nextDrain (s.cluster cl).posted with
    | none => s
    | some x => drainEntry cl (s.mustDrain cl x) x s)

/-! ### Drains (R258, R277) -/

/-- A drain waits first for the commands it covers, then at DIE and wider for the owners of the writes that its cluster's buffer
holds on the clock on which the last of those completed, or on its issue clock where none was left; from its start on its tag
follows two clocks after the last of their tags (R237, R277). CKPT drains at DEV (R264). The commands it waits for are noted as
partition + 2048 * number. -/
def drainOne (c : Cmd) (s : State) : State :=
  let scope := if c.kind = .ckpt then 4 else c.fn
  let open_ := fun (key : Nat) => (s.cmd (key % 2048) (key / 2048)).isSome
  if c.aux ≠ 0 then s
  else match c.gate with
    | none =>
      if (s.covered c).isEmpty then
        let keys := if 3 ≤ scope then ((s.cluster c.cluster).posted.map fun x => x.gpi + 2048 * x.cmd).dedup else []
        putCmd (if c.counting then { c with gate := some keys, left := 2, aux := if keys.isEmpty then 1 else 0 }
          else { c with gate := some keys }) s
      else s
    | some keys => if !c.counting || keys.any open_ then s else putCmd { c with left := 2, aux := 1 } s

/-- The drains of a partition looked at after the completions of a clock. -/
def State.drains (p : Nat) (s : State) : State :=
  ((s.part p).cmds.filter fun c => c.kind == .drn || c.kind == .ckpt).foldl (fun s c => drainOne c s) s

/-! ### Completion (R239) -/

/-- May a command complete: its time has run out, everything it moves has reached its owner, and of a collective every
contribution has landed? -/
def State.finished (s : State) (c : Cmd) : Bool :=
  c.counts && c.left == 0 && c.aux == 1 && c.owed.isEmpty && c.sent == 0
    && !((s.cluster c.cluster).posted.any fun x => x.cmd == c.id)
    && (c.kind != .cgath || decide (c.landed.length = (c.members s).length * c.cgRows))
    && c.kind != .ckpt && c.kind != .table
    && (c.kind != .take || c.words.length != 2 || match c.ctx s with
      | some k => s.ringWritable k c.place
      | none => true)

/-- COMMAND_COMPLETION: a recorded TAKE's entry is written first; the tag is set by its latest producer and the flags
merge; TXA's marks go (R239, R308, R260). -/
def execCommandCompletion (p c : Nat) (s : State) : Out :=
  withCmd p c (fun d s =>
    let s := match d.kind, d.ctx s with
      | .take, some k =>
        if d.words.length = 2 then
          s.writeEntry k d.place [entryHead 7 p (d.word 1),
            d.dword 0 + 2 ^ 5 * d.dword 1 + 2 ^ 15 * d.dword 2,
            joinBytes (d.out.take 8), joinBytes ((d.out.drop 8).take 8), joinBytes ((d.out.drop 16).take 8),
            joinBytes (d.out.drop 24), 0, 0]
        else s
      | _, _ => s
    let s := if d.kind = .txa then s.updPart p fun x => { x with tx := x.tx.filter fun t => !t.gone } else s
    completeTag p d.tag d.id d.flags (dropCmd p d.id s)) s

end Sys2Proof.Machine
end

