-- ==== Sys2Proof/Machine/Landing.lean ====
section
/-!
DEFINITION. Landings (R26, R28, R52, R61, R265), tile-bank power transitions (R34 to R36), and barrier releases (R315).
-/

namespace Sys2Proof.Machine

/-! ### The order of landings (R28) -/

/-- Does landing x come before y? -/
def Landing.before (x y : Landing) : Bool :=
  decide (x.issued < y.issued) || (x.issued == y.issued && (decide (x.gpi < y.gpi) ||
    (x.gpi == y.gpi && decide (x.slot < y.slot))))

/-- The first of a list in the order of R28; among equals the first listed. -/
def firstLanding : List Landing → Option Landing
  | [] => none
  | x :: r => match firstLanding r with
    | none => some x
    | some y => if y.before x then some y else some x

def isTable : LandAct → Bool
  | .table .. => true
  | _ => false

/-- The next landing due on a core, of a table load or of another result. -/
def Core.dueLanding (c : Core) (tbl : Bool) : Option Landing :=
  firstLanding (c.pend.filter fun l => decide (l.due ≤ c.tick) && isTable l.act == tbl)

/-! ### What a landing does -/

/-- The bytes of a value that the enables of a partial write select (R324). -/
def mergeBytes (en : Nat) (old v : W64) : W64 :=
  BitVec.ofNat 64 (joinBytes ((List.range 8).map fun i =>
    BitVec.ofNat 8 (Sys2Proof.fld (if Sys2Proof.bit en i then v else old).toNat (8 * i) 8)))

/-- A bank request after a write of its field: 11 leaves it (R34). -/
def reqOf (old : BankState) (f : Nat) : BankState :=
  match f with
  | 0 => .off
  | 1 => .retention
  | 2 => .on
  | _ => old

/-- TBPWR after a write: a bank whose request differs from what it holds, and which is in no transition, begins one or
waits to (R36). -/
def TBank.request (b : TBank) (f : Nat) : TBank :=
  let q := reqOf b.req f
  if b.state ≠ b.target then { b with req := q } else { b with req := q, pending := q != b.state }

def writeTbpwr (v : Nat) (p : Part) : Part :=
  { p with banks := (List.range 4).foldl (fun bs k =>
      Cells.put k ((Cells.get TBank.idle k bs).request (Sys2Proof.fld v (2 * k) 2)) bs) p.banks }

/-- A partition register's new value (R61, R51 to R53, R57). A CRSET to FLAGS keeps the flags that arrive on the same clock
(R52). -/
def writePartReg (c en : Nat) (v : W64) (p : Part) : Part :=
  if c = 0x00 then { p with flags := BitVec.ofNat 6 v.toNat ||| p.orNow }
  else if c = 0x01 then { p with slatch := BitVec.ofNat 8 v.toNat }
  else if c = 0x02 then { p with pcw := mergeBytes en p.pcw v }
  else if c = 0x03 then { p with gstrm := BitVec.ofNat 32 v.toNat }
  else if c = 0x04 then writeTbpwr v.toNat p
  else p

/-- A core register's new value (R45, R46, R54). -/
def writeCoreReg (c en : Nat) (v : W64) (x : Core) : Core :=
  if 0x18 ≤ c ∧ c ≤ 0x1F then
    { x with cbcfg := Cells.put (c - 0x18) (BitVec.ofNat 64 (cbcfgWrite (x.cbcfgOf (c - 0x18)) v.toNat)) x.cbcfg }
  else if 0x20 ≤ c ∧ c ≤ 0x23 then
    { x with sctab := (List.range 4).foldl (fun t j =>
        if Sys2Proof.bit en (2 * j) then Cells.put (4 * (c - 0x20) + j) (BitVec.ofNat 16 (Sys2Proof.fld v.toNat (16 * j) 16)) t
        else t) x.sctab }
  else x

/-- The entries of a table row (R265). -/
def writeTable (tbl bank first : Nat) (rows : List Nat) (c : Core) : Core :=
  let put := fun {w : Nat} (t : Cells (BitVec w)) (base lim : Nat) =>
    rows.zipIdx.foldl (fun t r => Cells.put (base + (first + r.2) % lim) (BitVec.ofNat w r.1) t) t
  match tbl with
  | 0 => { c with cbook := put c.cbook (4096 * bank) 4096, cbDirty := c.cbDirty ||| BitVec.ofNat 8 (2 ^ bank) }
  | 1 => { c with cwt := put c.cwt 0 512 }
  | 2 => { c with mpst := put c.mpst 0 1024 }
  | 3 => { c with gtab := put c.gtab 0 768 }
  | _ => { c with latab := put c.latab 0 64 }

def pushSq (q : Nat) (v : W64) (p : Part) : Part := { p with sq := Cells.put q (Cells.get [] q p.sq ++ [v]) p.sq }
def pushVq (q : Nat) (v : V1024) (p : Part) : Part := { p with vq := Cells.put q (Cells.get [] q p.vq ++ [v]) p.vq }

/-- A tile row written, its bank's dirty bit set (R179, R333). -/
def writeRow (t row : Nat) (en v : V1024) (p : Part) : Part :=
  { p with tiles := Cells.put (128 * t + row % 128) ((p.row t row &&& ~~~en) ||| (v &&& en)) p.tiles,
           banks := Cells.put (t / 4) { p.bank (t / 4) with dirty := true } p.banks }

/-- A result of partition p of core n lands. -/
def landAct (n p : Nat) (a : LandAct) (s : State) : State :=
  match a with
  | .spush q v => s.updPart p (pushSq q v)
  | .vpush q v => s.updPart p (pushVq q v)
  | .tileRow t row en v => s.updPart p (writeRow t row en v)
  | .pred k v => s.updPart p fun x =>
      { x with preds := if v then x.preds ||| BitVec.ofNat 8 (2 ^ k) else x.preds &&& ~~~(BitVec.ofNat 8 (2 ^ k)) }
  | .mask k v => s.updPart p fun x => { x with masks := Cells.put k v x.masks }
  | .creg c en v => (s.updPart p (writePartReg c en v)).updCore n (writeCoreReg c en v)
  | .sema k m => s.updCore n fun c => { c with sema := Cells.put k (Cells.get 0 k c.sema + m) c.sema }
  | .table t b f rows g id => completeTag p g id 0 (dropCmd p id (s.updCore n (writeTable t b f rows)))
  | .cbsel k => s.updCore n fun c =>
      { c with cbcfg := Cells.put k (BitVec.ofNat 64 (cbcfgFlip (c.cbcfgOf k))) c.cbcfg }
  | .mparam k v => s.updPart p fun x => { x with mps := Cells.put k v x.mps }
  | .tagClear m => s.updPart p fun x => { x with tags := (x.tags &&& ~~~m) ||| x.setNow }

/-- The flags of a landing, ORed in (R52). -/
def landFlags (p fl : Nat) (s : State) : State :=
  s.updPart p fun x => { x with flags := x.flags ||| BitVec.ofNat 6 fl, orNow := x.orNow ||| BitVec.ofNat 6 fl }

/-- One landing of core n. -/
def land (n : Nat) (l : Landing) (s : State) : State :=
  landFlags l.gpi l.flags (landAct n l.gpi l.act (s.updCore n fun c => { c with pend := c.pend.erase l }))

def landNext (n : Nat) (tbl : Bool) (s : State) : State :=
  match (s.core n).dueLanding tbl with
  | none => s
  | some l => land n l s

/-- RESULT_LANDING: the first result due on core n lands (R26, R28). -/
def execResultLanding (n : Nat) (s : State) : Out := .next (landNext n false s)

/-- TABLE_LOAD_LANDING: the first table load due on core n lands, with its tag (R265). -/
def execTableLoadLanding (n : Nat) (s : State) : Out := .next (landNext n true s)

/-! ### Tile-bank power (R36) -/

/-- The clocks of a transition. -/
def bankClocks (f t : BankState) : Nat :=
  match f, t with
  | .off, _ => 64
  | .retention, .on => 16
  | _, _ => 4

/-- May a pending lowering of bank b start: no tile write to it is in flight or captured? -/
def State.bankQuiet (s : State) (p b : Nat) : Bool :=
  let hit := fun (a : LandAct) => match a with
    | .tileRow t _ _ _ => t / 4 == b
    | _ => false
  !((s.core (p / 4)).pend.any fun l => l.gpi == p && hit l.act) && !((s.part p).snap.any fun e => hit e.act)

/-- Is a start due: a request waits, and a lowering's tile writes have landed? -/
def State.bankStarts (s : State) (p b : Nat) : Bool :=
  let x := (s.part p).bank b
  x.pending && x.state == x.target && (x.state != .on || s.bankQuiet p b)

/-- TBPWR_TRANSITION_START. -/
def execTbpwrTransitionStart (p b : Nat) (s : State) : Out :=
  .next (if s.bankStarts p b then s.updPart p fun x =>
      let k := x.bank b
      { x with banks := Cells.put b { k with
          target := k.req, left := if k.req = k.state then 0 else bankClocks k.state k.req, pending := false } x.banks }
    else s)

/-- TBPWR_TRANSITION_END: the bank takes its new state; a bank that was off, or is now, holds no row but zeros; a request
written meanwhile takes effect (R36). -/
def execTbpwrTransitionEnd (p b : Nat) (s : State) : Out :=
  .next (s.updPart p fun x =>
    let k := x.bank b
    if k.left = 0 ∧ k.state ≠ k.target then
      { x with
        banks := Cells.put b { k with state := k.target, pending := k.req != k.target } x.banks,
        tiles := if k.state = .off ∨ k.target = .off then x.tiles.filter fun r => r.1 / 512 != b else x.tiles }
    else x)

/-! ### Barrier releases (R315) -/

/-- Has a release reached its participant: its time has run out, and at DIE and DEV scope the participant has waited as
long on its own clocks? -/
def BarWait.released (b : BarWait) : Bool := b.left == some 0 && (b.scope == 0 || decide (releaseBound b.scope ≤ b.own))

/-- BARRIER_RELEASE. -/
def execBarrierRelease (p : Nat) (s : State) : Out :=
  let go := fun (b : Option BarWait) => b.filter fun b => !b.released
  .next (s.updPart p fun x => { x with barw := go x.barw, held := x.held.map fun h => { h with barw := go h.barw } })

end Sys2Proof.Machine
end

