-- ==== Sys2Proof/Machine/Traps.lean ====
section
/-!
DEFINITION. Taking a trap (R318 to R322, R325, R326), the stop and resumption of cores (R321, R323), CORECTL and the
handler (R328, R329), and the interrupts that tell the harts (R363).
-/

namespace Sys2Proof.Machine

/-! ### Interrupts (R363) -/

/-- An event of source i: delivered to its hart where its entry enables it, else held, merged with one held before. -/
def State.raise (i : Nat) (s : State) : State :=
  let e := (Cells.get 0 i s.iroute).toNat
  if Sys2Proof.bit e 16 then { s with irqSent := s.irqSent ++ [(Sys2Proof.fld e 0 5, Sys2Proof.fld e 5 11)] }
  else if s.irqHeld.contains i then s else { s with irqHeld := s.irqHeld ++ [i] }

/-! ### Kernels and their cores -/

def Kernel.cores (k : Kernel) : List Nat := k.clusters.flatMap fun c => (List.range 16).map fun j => 16 * c + j

/-- The cores of the kernel that holds core n; the core alone where there is none. -/
def State.kin (s : State) (n : Nat) : List Nat :=
  match (s.core n).kernel.bind s.kernel with
  | some k => k.cores
  | none => [n]

def partsOf (n : Nat) : List Nat := (List.range 4).map fun q => 4 * n + q

def State.updParts (n : Nat) (f : Part → Part) (s : State) : State := (partsOf n).foldl (fun s p => s.updPart p f) s

/-! ### Stopping a core (R321, R322) -/

/-- A result in flight as the snapshot buffer holds it. -/
def Landing.captured (l : Landing) (tick : Nat) (nest : Bool) : SnapEntry :=
  ⟨l.due - tick, tick - l.issued, l.slot, l.flags, l.act, nest⟩

/-- Every result that has not landed is captured by its partition. -/
def capture (n : Nat) (nest : Bool) (s : State) : State :=
  let c := s.core n
  (c.pend.foldl (fun s l => s.updPart l.gpi fun p => { p with snap := p.snap ++ [l.captured c.tick nest] }) s).updCore n
    fun c => { c with pend := [] }

/-- The long operations of a lockstep core stop at their row boundaries (R321, R330). -/
def holdAll (n : Nat) (s : State) : State :=
  (s.updParts n fun p => { p with cmds := p.cmds.map fun c => { c with held := true } }).updCore n fun c =>
    { c with calls := c.calls.map fun k => { k with held := true } }

/-- Active transactions of a core are doomed with code 5 (R260). -/
def doomCore (n : Nat) (s : State) : State := s.updParts n fun p => { p with tx := p.tx.map fun x => x.doom 5 0 }

/-- Core n stops at its boundary on this clock. A core that runs a handler stops in handler state; one that is stopped
stays so. -/
def stopCore (n : Nat) (quiet : Bool) (s : State) : State :=
  let c := s.core n
  match c.stop with
  | some h =>
    if h.active then
      let t := doomCore n (capture n true s)
      (if c.lock then holdAll n t else t).updCore n fun c => { c with stop := some { h with active := false, resume := none } }
    else s
  | none =>
    let t := doomCore n (capture n false s)
    (if c.lock then holdAll n t else t).updCore n fun c =>
      { c with stop := some ⟨c.cycle, none, quiet, none, false, 0, c.lock, false⟩, stopAt := none, stopReq := false }

/-! ### The fault record (R325, R326) -/

/-- Word 0 of FREC. -/
def frecHead (t : TrapInfo) (nest kwide : Bool) (snapn : Nat) : Nat :=
  t.cause + 2 ^ 8 * b2n t.grp2 + 2 ^ 9 * b2n nest + 2 ^ 10 * t.fmask + 2 ^ 14 * t.cmask + 2 ^ 18 * b2n t.long
    + 2 ^ 19 * b2n kwide + 2 ^ 20 * t.ctag + 2 ^ 32 * t.tcode + 2 ^ 40 * snapn

/-- The fault record written in full. -/
def frecWords (t : TrapInfo) (nest kwide : Bool) (snapn cyc : Nat) : Cells W64 :=
  [(0, BitVec.ofNat 64 (frecHead t nest kwide snapn)), (1, BitVec.ofNat 64 (t.pc + 2 ^ 17 * b2n t.half)),
   (2, BitVec.ofNat 64 (t.value % 2 ^ 56 + 2 ^ 56 * t.aux)), (3, BitVec.ofNat 64 (t.rows % 2 ^ 32 + 2 ^ 32 * t.moved)),
   (4, BitVec.ofNat 64 (t.uword + 2 ^ 10 * t.urow)), (5, BitVec.ofNat 64 cyc), (6, 0), (7, 0)]

/-- The trap of a software TRAP (R153, R326). -/
def softTrap (p : Part) (code : Nat) : TrapInfo :=
  ⟨causeSoftware, false, 0, 0xF, false, 0, code, p.pc, p.half, 0, 0, 0, 0, 0, 0⟩

/-- The trap of a fault after commit, of the command or call that met it (R318, R326). -/
def lateTrap (s : State) (p : Nat) (f : LateFault) (id : Nat) : TrapInfo :=
  match s.cmd p id, (s.core (p / 4)).calls.find? fun k => k.id == id with
  | some c, _ => ⟨f.cause, c.grp == 2, 8, 7, true, c.tag, 0, c.pc, c.half, f.value, f.aux, c.rows, c.wr, 0, 0⟩
  | none, some k =>
    ⟨f.cause, k.grp == 2, 8, 7, true, k.tag.getD 0, 0, k.pc, k.half, f.value, f.aux, k.rows, k.moved, k.word, k.row⟩
  | none, none => ⟨f.cause, false, 8, 7, true, 0, 0, 0, false, f.value, f.aux, 0, 0, 0, 0⟩

/-! ### Taking a trap (R318, R321) -/

/-- The other cores of a lockstep kernel stop when their CYCLE is 256 above the trapping core's (R321). -/
def stopPeers (n cyc : Nat) (s : State) : State :=
  (s.kin n).foldl (fun s m =>
    if m = n ∨ (s.core m).stop.isSome then s
    else s.updCore m fun c => { c with stopAt := some (min (c.stopAt.getD (cyc + 256)) (cyc + 256)) }) s

/-- Taking a trap: the core stops, its results in flight are captured, the fault record is written in full, TRPEND names
the core and a lockstep kernel's other cores are told (R318 to R322, R325 to R327). -/
def takeTrap (p : Nat) (t : TrapInfo) (s : State) : State :=
  let n := p / 4
  let c := s.core n
  let nest := match c.stop with
    | some h => h.handler.isSome
    | none => false
  let s1 := stopCore n false s
  let s2 := s1.updPart p fun x =>
    { x with frec := frecWords t nest c.lock x.snap.length (match c.stop with
               | some h => h.cyc
               | none => c.cycle),
             trapNow := none, late := if t.long then [] else x.late, ripe := if t.long then 0 else x.ripe }
  let s3 := if c.lock && c.stop.isNone then stopPeers n c.cycle s2 else s2
  let s4 := s3.updCore n fun c => { c with stop := c.stop.map fun h => { h with quiet := false } }
  if s4.trpend.contains n then s4 else { s4 with trpend := n :: s4.trpend }.raise 3

/-- TRAP_TAKE: partition p takes the trap that its boundary found. -/
def execTrapTake (p : Nat) (s : State) : Out :=
  .next (match (s.part p).trapNow with
    | none => s
    | some t => takeTrap p t s)

/-- LOCKSTEP_CORE_STOP: the core stops because another core of its kernel did, or for a checkpoint (R321, R334). -/
def execLockstepCoreStop (n : Nat) (s : State) : Out := .next (stopCore n true s)

/-! ### Resumption (R323) -/

/-- A captured entry back in flight, r clocks ahead. -/
def SnapEntry.replay (e : SnapEntry) (p tick : Nat) : Landing :=
  ⟨tick + e.rem, tick - e.age, p, e.slot, e.flags, e.act⟩

/-- The captured entries of core n that belong to the handler, or to the program, back in flight. -/
def replaySnaps (n : Nat) (nest : Bool) (s : State) : State :=
  let tick := (s.core n).tick
  (partsOf n).foldl (fun s p =>
    let es := (s.part p).snap.filter fun e => e.nest == nest
    (s.updCore n fun c => { c with pend := c.pend ++ es.map fun e => e.replay p tick }).updPart p fun x =>
      { x with snap := x.snap.filter fun e => e.nest != nest }) s

/-- A command that goes on from its progress: it looks its pages up again and counts what is left (R241). -/
def Cmd.restart (c : Cmd) : Cmd :=
  { c with fault := none, held := false, looked := false, counting := false, sent := 0, pages := [], waits := [] }

/-- The long operations numbered from m on of core n go on; one whose fault was taken meets its condition again, and one
whose fault is still pending waits for it (R318). -/
def goOn (n m : Nat) (s : State) : State :=
  let late := (partsOf n).flatMap fun p => (s.part p).late.map Prod.snd
  (s.updParts n fun p => { p with cmds := p.cmds.map fun c =>
      if c.id < m then c
      else if c.fault.isSome && !late.contains c.id then c.restart else { c with held := false } }).updCore n fun c =>
    let again := fun (k : Call) => decide (m ≤ k.id) && k.fault.isSome && !late.contains k.id
    { c with
      past := if c.calls.any again then [] else c.past,
      calls := c.calls.map fun k =>
        if k.id < m then k else if again k then { k with fault := none, held := false } else { k with held := false } }

/-- Partition p after its CKPT: the tag set, and issuing again (R334). -/
def Part.passCkpt (x : Part) : Part :=
  (x.cmds.filter fun c => c.kind == .ckpt).foldl (fun x c =>
    let own := Cells.get 0 c.tag x.owners == c.id
    { x with tags := if own then x.tags ||| BitVec.ofNat 64 (2 ^ c.tag) else x.tags,
             setNow := if own then x.setNow ||| BitVec.ofNat 64 (2 ^ c.tag) else x.setNow })
    { x with ckpt := false, cmds := x.cmds.filter fun c => c.kind != .ckpt }

/-- CORE_RESUME: on this clock the core issues again, and the captured entries are in flight (R323); the CKPT tags of a
checkpoint that has completed are set (R334). A core stopped in handler state goes on with its handler (R329). -/
def execCoreResume (n : Nat) (s : State) : Out :=
  .next (match (s.core n).stop with
    | none => s
    | some h =>
      match h.handler with
      | some _ => (goOn n h.from_ (replaySnaps n true s)).updCore n fun c =>
          { c with stop := some { h with active := true, resume := none } }
      | none =>
        let t := if h.ckpt then s.updParts n Part.passCkpt else s
        let t := (goOn n 0 (replaySnaps n false t)).updCore n fun c => { c with stop := none }
        { t with trpend := t.trpend.filter fun m => m != n })

/-- The CYCLE at which core n stopped; none where it runs, be it its handler. -/
def State.stopCycle (s : State) (n : Nat) : Option Nat :=
  match (s.core n).stop with
  | some h => if h.active then none else some h.cyc
  | none => none

/-- The clocks to b' of each core that a resumption of core n resumes: the core alone, or in lockstep mode every stopped
core of its kernel (R328). -/
def setResume (n : Nat) (f : Nat → Nat) (s : State) : State :=
  (if (s.core n).lock then s.kin n else [n]).foldl (fun s m => match s.stopCycle m with
    | none => s
    | some cyc => s.updCore m fun c => { c with stop := c.stop.map fun h => { h with resume := some (f cyc) } }) s

/-- A resumption of core n with b' after d clocks: in lockstep mode each core's b' lies from it by as much as its CYCLE does.
Where one would have to resume before the next clock, all are later by the same number of clocks (R328; DEDUCED, assumption
log 21). -/
def scheduleResume (n d : Nat) (s : State) : State :=
  let own := (s.stopCycle n).getD 0
  let least := (((if (s.core n).lock then s.kin n else [n]).filterMap s.stopCycle).foldl min own)
  setResume n (fun cyc => d + (1 + own - (d + least)) + cyc - own) s

/-- Is core n in state 01: stopped, its resumption not yet under way (R328)? -/
def State.stopped (s : State) (n : Nat) : Bool :=
  match (s.core n).stop with
  | some h => !h.active && h.resume.isNone
  | none => false

def refuse (n : Nat) (s : State) : State := s.updCore n fun c => { c with ctl := { c.ctl with err := true } }

/-- CORECTL_RESUME: accepted in state 01; b' is the tenth clock after the write (R328). -/
def execCorectlResume (n : Nat) (s : State) : Out :=
  .next (if s.stopped n then scheduleResume n 10 s else refuse n s)

/-! ### The handler (R328, R329) -/

/-- The fields of CORECTL that hold a value, as a write sets them. -/
def ctlFields (v : Nat) (err : Bool) : CoreCtl :=
  ⟨Sys2Proof.fld v 3 2, Sys2Proof.bit v 5, Sys2Proof.fld v 6 17, Sys2Proof.fld v 23 23, err⟩

/-- Values that CORECTL's fields may hold: HPC on a bundle, HROFS on 64 bytes. -/
def ctlOk (v : Nat) : Bool := Sys2Proof.fld v 6 4 == 0 && Sys2Proof.fld v 23 6 == 0

/-- The record of a partition as bytes. -/
def frecBytes (p : Part) : List W8 := (List.range 8).flatMap fun w => splitBytes (Cells.get 0 w p.frec).toNat 8

/-- CORECTL_HENTER: accepted in state 01 when no partition of the kernel is in handler state: the record is copied to
HROFS, the sequencer state held, and the handler started with empty loop stack and predicate block (R328). -/
def execCorectlHenter (n v : Nat) (s : State) : Out :=
  let busy := (s.kin n).any fun m => match (s.core m).stop with
    | some h => h.handler.isSome
    | none => false
  .next (if !s.stopped n || busy || !ctlOk v then refuse n s
    else
      let q := Sys2Proof.fld v 3 2
      let p := 4 * n + q
      let f := ctlFields v (s.core n).ctl.err
      let s1 := s.wr (s.ctxOf n) none (.slice n) f.hrofs (frecBytes (s.part p))
      let s2 := s1.updPart p fun x =>
        { x with held := some ⟨x.pc, x.half, x.loops, x.pblk, x.run, x.group2, x.hold, x.barw, x.ckpt⟩,
                 pc := f.hpc, half := f.hhalf, loops := [], pblk := ⟨0, 0, 0⟩, group2 := none, run := .running,
                 hold := 0, barw := none, ckpt := false }
      s2.updCore n fun c =>
        { c with ctl := f, stop := c.stop.map fun h => { h with handler := some q, active := true, from_ := s.nextId } })

/-- The commit of ERET: the held sequencer state is restored, and the core resumes on the next clock. The other stopped cores
of a lockstep kernel resume with it, each as far from it as its CYCLE lies, and none before the next clock (R329; DEDUCED,
assumption log 22). -/
def eretCommit (n : Nat) (s : State) : State :=
  match (s.core n).stop with
  | none => s
  | some h =>
    let p := 4 * n + h.handler.getD 0
    let s1 := s.updPart p fun x => match x.held with
      | none => x
      | some y => { x with pc := y.pc, half := y.half, loops := y.loops, pblk := y.pblk, run := y.run, group2 := y.group2,
                           hold := y.hold, barw := y.barw, ckpt := y.ckpt, held := none }
    setResume n (fun cyc => max 1 (1 + cyc - h.cyc))
      (s1.updCore n fun c => { c with stop := some { h with handler := none, active := false } })

end Sys2Proof.Machine
end

