-- ==== Sys2Proof/Machine/Kernels.lean ====
section
/-!
DEFINITION. Contexts, user queues and kernels (R285 to R306, R313, R314, R316): activation, dispatch begin, placement,
kernel start and end, reports and budget periods.
-/

namespace Sys2Proof.Machine

/-! ### Virtual memory as the dispatch unit reaches it -/

/-- n bytes at a virtual address, page by page; none where a page does not translate. -/
def State.vread (s : State) (k : Nat) : Nat → Nat → Nat → Option (List W8)
  | 0, _, n => if n = 0 then some [] else none
  | f + 1, va, n =>
    if n = 0 then some []
    else
      let m := min n (4096 - va % 4096)
      match s.virtRead k va m, s.vread k f (va + m) (n - m) with
      | some a, some b => some (a ++ b)
      | _, _ => none

def State.vbytes (s : State) (k va n : Nat) : Option (List W8) := s.vread k (n / 4096 + 2) va n

/-- Words of n 8-byte fields at a virtual address. -/
def State.vwords (s : State) (k va n : Nat) : Option (List Nat) :=
  (s.vbytes k va (8 * n)).map fun bs => (List.range n).map fun i => joinBytes ((bs.drop (8 * i)).take 8)

/-- What became of a write by the dispatch unit: made, not translated, or waiting for a fabric port. -/
inductive WriteFate where
  | made (s : State)
  | bad
  | waits

/-- At most a page of bytes written within a page; a peer's are sent in a frame (R365). The write is made as it is
sent. -/
def pageWrite (k va : Nat) (bs : List W8) (s : State) : WriteFate :=
  match s.place k va true with
  | .bad _ => .bad
  | .at (.peer d) a => match s.sendFrame k d .write a bs none none none with
    | some t => .made (t.wr (some k) none (.peer d) a bs)
    | none => .waits
  | .at o a => .made (s.wr (some k) none o a bs)

/-- Bytes written by the dispatch unit, none of them where a page does not translate. -/
def devWrite (k va : Nat) (bs : List W8) (s : State) : WriteFate :=
  let m := 4096 - va % 4096
  if bs.length ≤ m then pageWrite k va bs s
  else match s.place k (va + m) true with
    | .bad _ => .bad
    | .at _ _ => match pageWrite k va (bs.take m) s with
      | .made t => pageWrite k (va + m) (bs.drop m) t
      | r => r

/-! ### Contexts (R285 to R287) -/

/-- A context-record error (R285, R286). -/
def recordBad (w : List Nat) : Bool :=
  let g := fun i => w.getD i 0
  let rec_ := Sys2Proof.bit (g 0) 21
  let rep := Sys2Proof.bit (g 0) 22
  decide (2 ^ 23 ≤ g 0) || (rec_ && rep) || Sys2Proof.fld (g 1) 0 12 != 0 || decide (2 ^ 52 ≤ g 1)
    || decide (Sys2Proof.fld (g 3) 0 32 < 4096) || decide (2 ^ 40 ≤ g 3)
    || Sys2Proof.fld (g 6) 0 12 != 0 || decide (2 ^ 56 ≤ g 6) || decide (2 ^ 5 ≤ g 7)
    || ((rec_ || rep) && (decide (g 7 < 6) || decide (24 < g 7)))

/-- Record k of the context table (R285). -/
def State.recordOf (s : State) (k : Nat) : List Nat :=
  (List.range 8).map fun i => s.hbm.readN (s.ctxbase.toNat + 64 * k + 8 * i) 8

/-- The record of an active context read again as a stopped dispatch unit starts (R369). One with a context-record error sets
ERR and raises interrupt 1, and the context keeps the record it has (DESIGN CHOICE, assumption log 105). -/
def rereadRecord (s : State) (k : Nat) : State :=
  if recordBad (s.recordOf k) then { s with ctxerr := s.ctxerr ||| BitVec.ofNat 16 (2 ^ k) }.raise 1
  else s.updCtx k fun c => { c with record := s.recordOf k }

/-- A stopped dispatch unit starts again, and reads the records of the contexts that v enables and that are active still (R369); the
queue table it reads from memory at each use. -/
def State.restart (v : Nat) (s : State) : State :=
  let t := { s with stalled := false }
  if s.stalled then ((List.range 16).filter fun k => Sys2Proof.bit v k && (s.ctx k).active).foldl rereadRecord t else t

/-- Clusters held by active contexts other than k. -/
def State.heldMask (s : State) (k : Nat) : List Nat :=
  (List.range 16).flatMap fun j => if j ≠ k ∧ (s.ctx j).active then
    (List.range 20).filter fun c => Sys2Proof.bit (s.ctx j).clmask c else []

/-- CTXEN_SET: the context is activated from its record, unless it is active still; a bad record, or clusters another
active context holds, leave it inactive with ERR set and interrupt 1 raised (R286). A lockstep context activated while a
thermal alarm lasts has OVR set (R381). -/
def execCtxenSet (k : Nat) (s : State) : Out :=
  let t := { s.restart (2 ^ k) with ctxen := s.ctxen ||| BitVec.ofNat 16 (2 ^ k) }
  let w := s.recordOf k
  let bad := recordBad w || (s.heldMask k).any fun c => Sys2Proof.bit (w.getD 0 0) c
  .next (if (s.ctx k).active then t
    else if bad then { t with ctxerr := t.ctxerr ||| BitVec.ofNat 16 (2 ^ k) }.raise 1
    else
      let u := t.updCtx k fun c =>
        { c with active := true, record := w, seed := BitVec.ofNat 64 (w.getD 2 0), since := s.clock, used := [],
                 recNext := 0, recDone := [], seqs := [], reports := 0 }
      let u := u.updCtx k fun c => { c with recNext := u.virtNat k c.recbase 8 }
      if u.alarm && (u.ctx k).lock then { u with ctxovr := u.ctxovr ||| BitVec.ofNat 16 (2 ^ k) } else u)

/-- CTXEN_CLEAR: no further packet of the context begins dispatch (R286). -/
def execCtxenClear (k : Nat) (s : State) : Out :=
  .next { s with ctxen := s.ctxen &&& ~~~(BitVec.ofNat 16 (2 ^ k)) }

/-- Does a context hold a started, pre-empted or unplaced kernel? -/
def State.holdsKernel (s : State) (k : Nat) : Bool := s.kernels.any fun x => x.2.ctx == k

/-- May a context be deactivated (R286)? -/
def State.idleCtx (s : State) (k : Nat) : Bool :=
  (s.ctx k).active && !s.ctxen.getLsbD k && !s.holdsKernel k

/-- CONTEXT_DEACTIVATE. -/
def execContextDeactivate (k : Nat) (s : State) : Out :=
  .next (if s.idleCtx k then s.updCtx k fun c => { c with active := false } else s)

/-- CTXST_WRITE: ERR and OVR bits written 1 clear (R287), but OVR stays set for every active lockstep context while the thermal alarm
lasts (R381). -/
def execCtxstWrite (v : Nat) (s : State) : Out :=
  let alarmed := if s.alarm then (List.range 16).filter fun k => (s.ctx k).active && (s.ctx k).lock else []
  .next { s with ctxerr := s.ctxerr &&& ~~~(BitVec.ofNat 16 (Sys2Proof.fld v 16 16)),
                 ctxovr := alarmed.foldl (fun w k => w ||| BitVec.ofNat 16 (2 ^ k))
                   (s.ctxovr &&& ~~~(BitVec.ofNat 16 (Sys2Proof.fld v 32 16))) }

/-- CTXSEED_WRITE: the seed lands (R287, R306). -/
def execCtxseedWrite (k v : Nat) (s : State) : Out := .next (s.updCtx k fun c => { c with seed := BitVec.ofNat 64 v })

/-- BUDGET_PERIOD_START: the counters of a context begin again, and a kernel that waits has waited one whole period more
where the period that ended began no earlier than its wait (R303, R305, R299). -/
def execBudgetPeriodStart (k : Nat) (s : State) : Out :=
  let t := s.updCtx k fun c => { c with used := [] }
  .next { t with kernels := t.kernels.map fun x =>
    let waits := x.2.stage = .waiting ∨ x.2.stage = .preempted
    (x.1, if x.2.ctx = k ∧ waits ∧ x.2.since + 4096 ≤ s.clock then { x.2 with periods := x.2.periods + 1 } else x.2) }

/-- PRIORITY_AGING: one level more after each 256 whole periods, up to level 2 (R299). -/
def execPriorityAging (k : Nat) (s : State) : Out :=
  .next (s.updKernel k fun x => if 256 ≤ x.periods
    then { x with periods := x.periods - 256, prio := if x.prio < 2 then x.prio + 1 else x.prio } else x)

/-! ### User queues (R288) -/

def State.queueAt (s : State) (q : Nat) : Nat := Sys2Proof.fld s.qtbase.toNat 5 47 * 32 + 32 * q
def State.qword (s : State) (q w : Nat) : Nat := s.hbm.readN (s.queueAt q + 8 * w) 8
def State.uqueue (s : State) (q : Nat) : UQueue := Cells.get ⟨none, []⟩ q s.queues
def State.updQueue (s : State) (q : Nat) (f : UQueue → UQueue) : State :=
  { s with queues := Cells.put q (f (s.uqueue q)) s.queues }

/-- The queue entry's own fields. -/
def State.qBase (s : State) (q : Nat) : Nat := s.qword q 0
def State.qCtx (s : State) (q : Nat) : Nat := Sys2Proof.fld (s.qword q 1) 0 4
def State.qLog (s : State) (q : Nat) : Nat := Sys2Proof.fld (s.qword q 1) 4 5
def State.qEn (s : State) (q : Nat) : Bool := Sys2Proof.bit (s.qword q 1) 9
def State.qRd (s : State) (q : Nat) : Nat := s.qword q 2

/-- A reserved bit or a LOGN out of range (R288). -/
def State.qBad (s : State) (q : Nat) : Bool :=
  Sys2Proof.fld (s.qBase q) 0 6 != 0 || decide (2 ^ 56 ≤ s.qBase q) || decide (2 ^ 10 ≤ s.qword q 1)
    || s.qLog q == 0 || decide (16 < s.qLog q) || decide (2 ^ 8 ≤ s.qword q 3)

/-- Bytes of device memory written by the dispatch unit at a physical address. -/
def State.pwrite (a n v : Nat) (s : State) : State := s.wr none none .hbm a (splitBytes v n)

/-- A queue error: EN cleared, QERR written, interrupt 2 raised (R288). -/
def queueError (q code : Nat) (s : State) : State :=
  let en := s.qword q 1
  let t := s.pwrite (s.queueAt q + 8) 8 (if Sys2Proof.bit en 9 then en - 2 ^ 9 else en)
  (t.pwrite (s.queueAt q + 24) 8 code).raise 2

/-- The packets pending in a queue. -/
def State.pending (s : State) (q : Nat) : Nat :=
  match (s.uqueue q).widx with
  | none => 0
  | some w => (w.toNat + 2 ^ 64 - s.qRd q) % 2 ^ 64

/-- QNOTIFY_WRITE: the write index lands; one beyond the ring stops the queue with QERR 6 (R288). -/
def execQnotifyWrite (q w : Nat) (s : State) : Out :=
  let t := s.updQueue q fun u => { u with widx := some (BitVec.ofNat 64 w) }
  .next (if t.qEn q && !t.qBad q && decide (2 ^ t.qLog q < t.pending q) then queueError q 6 t else t)

/-! ### Packets and descriptors (R289, R291, R294) -/

def Kernel.pw (k : Kernel) (i : Nat) : Nat := k.packet.getD i 0
def Kernel.dw (k : Kernel) (i : Nat) : Nat := k.desc.getD i 0
def Kernel.ncl (k : Kernel) : Nat := Sys2Proof.fld (k.pw 5) 0 4 + 1
def Kernel.two (k : Kernel) : Bool := Sys2Proof.bit (k.pw 5) 4
def Kernel.marker (k : Kernel) : Bool := k.pw 0 % 2 ^ 8 == 2
def Kernel.fwd (k : Kernel) : Bool := Sys2Proof.bit (k.pw 0) 18
def Kernel.ndie (k : Kernel) : Nat := Sys2Proof.fld (k.dw 13) 0 7
def Kernel.ndev (k : Kernel) : Nat := Sys2Proof.fld (k.dw 13) 8 7

def scopeCodeOk (x : Nat) : Bool := x == 0 || (decide (3 ≤ x) && decide (x ≤ 6))

/-- The queue error of a packet's own bits (R289). -/
def packetError (w : List Nat) : Option Nat :=
  let g := fun i => w.getD i 0
  let ty := g 0 % 2 ^ 8
  if ty ≠ 1 ∧ ty ≠ 2 then some 1
  else if decide (2 ^ 19 ≤ g 0) || !scopeCodeOk (Sys2Proof.fld (g 0) 11 3) || !scopeCodeOk (Sys2Proof.fld (g 0) 14 3)
      || (ty == 1 && (Sys2Proof.fld (g 1) 0 6 != 0 || decide (2 ^ 56 ≤ g 1)))
      || Sys2Proof.fld (g 4) 0 3 != 0 || decide (2 ^ 56 ≤ g 4)
      || decide (9 < Sys2Proof.fld (g 5) 0 4) || decide (2 ^ 5 ≤ g 5)
      || Sys2Proof.fld (g 6) 0 3 != 0 || decide (2 ^ 56 ≤ g 6) || (!Sys2Proof.bit (g 0) 18 && g 6 != 0) then some 2
  else none

/-- A field of an address that leaves lo low bits and the bits from 56 up at 0. -/
def addrOk (w lo : Nat) : Bool := decide (w % 2 ^ lo = 0) && decide (w < 2 ^ 56)

/-- The fields of a loop-nest level (R294). -/
def lvCount (e : Nat) : Nat := e % 2 ^ 32
def lvKind (e : Nat) : Nat := Sys2Proof.fld e 32 2
def lvOrder (e : Nat) : Nat := Sys2Proof.fld e 34 3
def lvParts (e : Nat) : Nat := Sys2Proof.fld e 37 11

/-- The levels of one spatial kind are ordered 0, 1, … without gaps or repeats. -/
def ordersOk (ls : List Nat) (kind : Nat) : Bool :=
  let os := (ls.filter fun e => lvKind e == kind).map lvOrder
  (List.range os.length).all os.contains

def partsOfKind (ls : List Nat) (kind : Nat) : Nat := ((ls.filter fun e => lvKind e == kind).map lvParts).prod

/-- Is the loop-nest table valid for a kernel of nd dies and n cores a die (R294)? The product of no levels is 1; no level at
all is no table (R291). -/
def nestOk (ls : List Nat) (nd n : Nat) : Bool :=
  let dies := ls.any fun e => lvKind e == 2
  ls.isEmpty || (ls.all (fun e => decide (e < 2 ^ 48) && lvKind e != 3 && (lvKind e != 0 || (lvOrder e == 0 && lvParts e == 1)))
    && ordersOk ls 1 && ordersOk ls 2
    && (if dies then partsOfKind ls 2 == nd && partsOfKind ls 1 == n else partsOfKind ls 1 == nd * n))

/-- The levels of a descriptor. -/
def Kernel.levels (k : Kernel) : List Nat := (List.range (k.dw 14 % 2 ^ 3)).map fun i => k.dw (15 + i)

/-- The dies that a kernel spans. -/
def Kernel.nd (k : Kernel) : Nat := if k.two then 2 else 1

/-- Can the clusters of a context ever hold a kernel (R297)? -/
def State.canHold (s : State) (k : Kernel) : Bool :=
  let has := fun d => ((List.range 10).filter fun c =>
    Sys2Proof.bit (s.ctx k.ctx).clmask (10 * d + c) && !(s.cluster (10 * d + c)).dead).length
  if k.two then decide (k.ncl ≤ has 0) && decide (k.ncl ≤ has 1) else decide (k.ncl ≤ has 0) || decide (k.ncl ≤ has 1)

/-- A kernel descriptor's own bits are in order (R291). -/
def descOk (s : State) (k : Kernel) : Bool :=
  let d := k.dw
  addrOk (d 0) 4 && decide (d 1 < 2 ^ 31) && Sys2Proof.fld (d 1) 14 4 == 0
    && addrOk (d 2) 5 && decide (d 3 ≤ 512) && addrOk (d 4) 4 && decide (d 5 ≤ 1024)
    && addrOk (d 6) 3 && decide (d 7 < 2 ^ 8) && addrOk (d 8) 2 && addrOk (d 9) 2 && decide (d 10 < 2 ^ 16)
    && addrOk (d 11) 4 && addrOk (d 12) 3
    && decide (d 13 < 2 ^ 15) && !Sys2Proof.bit (d 13) 7 && decide (k.ndie ≤ 64) && decide (k.ndev ≤ 64)
    && decide (d 14 ≤ 6) && (List.range 6).all (fun i => decide (i < d 14) || d (15 + i) == 0)
    && (List.range 11).all (fun i => d (21 + i) == 0)
    && (d 3 == 0 || d 2 != 0) && (d 5 == 0 || d 4 != 0) && (d 7 == 0 || d 6 != 0)
    && nestOk k.levels k.nd (16 * k.ncl) && s.canHold k

/-- The banks of a codebook image, ascending. -/
def Kernel.cbBanks (k : Kernel) : List Nat := (List.range 8).filter fun b => Sys2Proof.bit (k.dw 7) b

/-- Bytes of the barrier table (R314). -/
def Kernel.btabBytes (k : Kernel) : Nat := 128 + 32 * k.ndie + 48 * k.ndev

/-- The images of a kernel as they stand in memory: code, control words, micro-words, codebooks, Gaussian table, log-add
table, windows and barriers, each but the code empty where the descriptor names none; none where one does not translate (R291). -/
def State.images (s : State) (k : Kernel) : Option (List (List W8)) :=
  let d := k.dw
  let get := fun (a n : Nat) => if a = 0 ∨ n = 0 then some [] else s.vbytes k.ctx a n
  [(d 2, 32 * d 3), (d 4, 16 * d 5), (d 6, 32776 * k.cbBanks.length),
    (d 8, 3072), (d 9, 256), (d 11, 256), (d 12, k.btabBytes)].foldl
    (fun (a : Option (List (List W8))) r => match a, get r.1 r.2 with
      | some xs, some bs => some (xs ++ [bs])
      | _, _ => none) ((s.vbytes k.ctx (d 0) (16 * (d 1 % 2 ^ 13 + 1))).map fun bs => [bs])

/-- A little-endian field of n bytes at a place of a byte list. -/
def bytesAt (bs : List W8) (a n : Nat) : Nat := joinBytes ((bs.drop a).take n)

/-- Reserved bits of a barrier table (R314). -/
def btabOk (k : Kernel) (bs : List W8) : Bool :=
  bs.isEmpty || ((List.range k.ndie).all (fun u => decide (bytesAt bs (128 + 32 * u) 32 < 2 ^ 164)) &&
    (List.range k.ndev).all (fun u => decide (bytesAt bs (128 + 32 * k.ndie + 48 * u) 48 < 2 ^ 324)))

/-! ### Reports (R316) -/

/-- Is x before y in the order of R301? -/
def Kernel.ahead (x y : Kernel) : Bool :=
  let pre := fun (k : Kernel) => if k.stage = .preempted then 0 else 1
  decide (y.prio < x.prio) || (x.prio == y.prio && (decide (pre x < pre y) || (pre x == pre y &&
    (decide (x.since < y.since) || (x.since == y.since && decide (x.queue < y.queue))))))

/-- Kernels of a context that wait for clusters. -/
def State.waiting (s : State) (c : Nat) : List (Nat × Kernel) :=
  s.kernels.filter fun x => x.2.ctx == c && (x.2.stage == .waiting || x.2.stage == .preempted)

/-- The queue position of a report. -/
def State.position (s : State) (k : Kernel) : Nat := ((s.waiting k.ctx).filter fun x => x.2.ahead k).length

/-- The 32 bytes of a report: 1 queued, 2 started, 3 completed. -/
def reportBytes (s : State) (k : Kernel) (what : Nat) : List W8 :=
  splitBytes (what + 2 ^ 8 * k.ctx + 2 ^ 12 * k.queue) 8
    ++ splitBytes (if what = 1 then s.position k else 0) 8
    ++ splitBytes (if what = 1 then 0 else (k.clusters.map fun c => 2 ^ c).sum) 8 ++ splitBytes (k.pw 7) 8

/-- The report that a kernel owes: where its context replays, the recorded one of the dispatch unit's stream, the true one where
that is exhausted or of another kind (R309; DEDUCED for these, assumption log 99, no bundle being there to fault). -/
def State.reportOf (s : State) (k : Kernel) : List W8 :=
  let c := s.ctx k.ctx
  match (if c.replaying then s.findEntry k.ctx 2047 c.reports else none) with
  | none => reportBytes s k k.report
  | some e =>
    if Sys2Proof.fld (e.getD 0 0) 0 4 = 8 then (List.range 4).flatMap fun i => splitBytes (e.getD (2 + i) 0) 8
    else reportBytes s k k.report

/-- The report a kernel owes, written to REPLY and entered in the record ring; it waits while a port or a place in the
ring is lacking, and one that does not translate stops its queue with QERR 5 (R290, R308). -/
def writeReport (id : Nat) (s : State) : State :=
  match s.kernel id with
  | none => s
  | some k =>
    if k.report = 0 then s
    else
      let rec_ := (s.ctx k.ctx).recording
      if rec_ && s.ringFull k.ctx then s
      else
        let bs := s.reportOf k
        match devWrite k.ctx (k.pw 6) bs s with
        | .waits => s
        | .bad => queueError k.queue 5 (s.updKernel id fun x => { x with report := 0 })
        | .made t =>
          let t := t.updKernel id fun x => { x with report := 0 }
          if rec_ then
            let r := t.takePlace k.ctx
            (r.2.writeEntry k.ctx r.1 (entryHead 8 2047 (s.ctx k.ctx).reports :: 0 ::
              ((List.range 4).map fun i => bytesAt bs (8 * i) 8) ++ [0, 0])).updCtx k.ctx fun c =>
                { c with reports := c.reports + 1 }
          else t.updCtx k.ctx fun c => { c with reports := c.reports + 1 }

/-! ### Dispatch begin (R290) -/

/-- A packet of a queue that may begin dispatch: the queue enabled, its context active and enabled, the dispatch unit
running, a packet pending, the queued report of the packet before it written, and with BAR every packet before it
completed. -/
def State.mayDispatch (s : State) (q : Nat) : Bool :=
  s.qEn q && decide (0 < s.pending q) && !s.stalled && (s.ctx (s.qCtx q)).active && s.ctxen.getLsbD (s.qCtx q)
    && !(s.kernels.any fun x => x.2.queue == q && x.2.report == 1)

/-- The packet at the read index. -/
def State.nextPacket (s : State) (q : Nat) : Option (List Nat) :=
  s.vwords (s.qCtx q) (s.qBase q + 64 * (s.qRd q % 2 ^ s.qLog q)) 8

def Kernel.fresh (q i c : Nat) (pk d : List Nat) (clock : Nat) (seed : W64) : Kernel where
  queue := q
  index := i
  ctx := c
  packet := pk
  desc := d
  stage := .waiting
  prio := Sys2Proof.fld (pk.getD 0 0) 8 2
  since := clock
  periods := 0
  placed := 0
  clusters := []
  seed := seed
  units := []
  slot := none
  image := none
  dropped := 0
  report := 0
  owes := false
  aim := none

/-- The queue error that keeps a packet from beginning dispatch, or the kernel it becomes. -/
def State.checkPacket (s : State) (q : Nat) (pk : List Nat) : Nat ⊕ Kernel :=
  let c := s.qCtx q
  let seed := if Sys2Proof.bit (pk.getD 0 0) 17 then BitVec.ofNat 64 (pk.getD 3 0) else (s.ctx c).seed
  match packetError pk with
  | some e => .inl e
  | none =>
    if pk.getD 0 0 % 2 ^ 8 = 2 then .inr { Kernel.fresh q (s.qRd q) c pk [] s.clock seed with stage := .marker }
    else match s.vwords c (pk.getD 1 0) 32 with
      | none => .inl 4
      | some d =>
        let k := Kernel.fresh q (s.qRd q) c pk d s.clock seed
        if !descOk s k then .inl 3
        else match s.images k with
          | none => .inl 4
          | some xs => if btabOk k (xs.getD 7 []) then .inr k else .inl 3

/-- DISPATCH_BEGIN: the packet at the read index passes its acquire, RDIDX advances, the seed is latched, and a queued
report is owed; a bad packet stops its queue. A report still owed is tried again. -/
def execDispatchBegin (q : Nat) (s : State) : Out :=
  .next (match s.kernels.find? fun x => x.2.queue == q && x.2.report == 1 with
    | some x => writeReport x.1 s
    | none =>
      if s.qBad q then queueError q 2 s
      else match s.nextPacket q with
        | none => queueError q 4 s
        | some pk =>
          if Sys2Proof.bit (pk.getD 0 0) 10 && !(s.uqueue q).live.isEmpty then s
          else match s.checkPacket q pk with
            | .inl e => queueError q e s
            | .inr k =>
              let id := s.nextId
              let t := s.pwrite (s.queueAt q + 16) 8 ((s.qRd q + 1) % 2 ^ 64)
              let t := t.updQueue q fun u => { u with live := u.live ++ [k.index] }
              let t := { t with kernels := Cells.put id { k with report := if k.fwd then 1 else 0 } t.kernels, nextId := id + 1 }
              if k.fwd then writeReport id t else t)

/-! ### Placement (R297, R301, R313) -/

/-- The cluster that a repair request word concerns (R359). -/
def repairCluster (w : Nat) : Nat := if w % 2 ^ 3 = 2 then Sys2Proof.fld w 13 9 / 16 else Sys2Proof.fld w 3 5

/-- Is a cluster free: in service, held by no kernel, not being cleared or repaired (R297, R360, R369)? -/
def State.freeCluster (s : State) (c : Nat) : Bool :=
  let x := s.cluster c
  x.kernel.isNone && !x.dead && x.clearing.isNone
    && !(s.repair.left.isSome && repairCluster s.repair.job == c)

/-- The kernels that hold clusters. -/
def State.placed (s : State) : List (Nat × Kernel) :=
  s.kernels.filter fun x => x.2.stage == .running || x.2.stage == .stopping

def Kernel.onDie (k : Kernel) (d : Nat) : Bool := k.clusters.any fun c => c / 10 == d

/-- Die and device barrier units in use by a list of kernels. -/
def dieUnits (ks : List Kernel) (d : Nat) : Nat := ((ks.filter fun k => k.onDie d).map Kernel.ndie).sum
def devUnits (ks : List Kernel) : Nat := (ks.map Kernel.ndev).sum

/-- Would the units of kernel k fit beside those of others, on clusters cs (R313)? -/
def unitsFit (others : List Kernel) (k : Kernel) (cs : List Nat) : Bool :=
  decide (devUnits others + k.ndev ≤ 64) &&
    (List.range 2).all fun d => !(cs.any fun c => c / 10 == d) || decide (dieUnits others d + k.ndie ≤ 64)

/-- The clusters that placement gives a kernel out of those free (R297). -/
def chooseClusters (ok : Nat → Bool) (mask : Nat) (k : Kernel) : Option (List Nat) :=
  let on := fun d => (((List.range 10).map fun c => 10 * d + c).filter fun c => Sys2Proof.bit mask c && ok c).take k.ncl
  let a := on 0
  let b := on 1
  if k.two then (if a.length = k.ncl ∧ b.length = k.ncl then some (a ++ b) else none)
  else if a.length = k.ncl then some a
  else if b.length = k.ncl then some b
  else none

/-- Where a kernel may be placed once the victims' clusters and units are counted free: a pre-empted one only where it
was. -/
def State.placeFor (s : State) (victims : List Nat) (k : Kernel) : Option (List Nat) :=
  let freed := (victims.filterMap s.kernel).flatMap Kernel.clusters
  let ok := fun c => s.freeCluster c || freed.contains c
  let others := (s.placed.filter fun x => !victims.contains x.1).map Prod.snd
  let cs := if k.stage = .preempted then (if k.clusters.all ok then some k.clusters else none)
    else chooseClusters ok (s.ctx k.ctx).clmask k
  cs.filter (unitsFit others k)

/-- The first kernel of a context in the order of R301. -/
def firstWaiting (ks : List (Nat × Kernel)) : Option (Nat × Kernel) :=
  ks.find? fun x => ks.all fun y => x.1 == y.1 || x.2.ahead y.2 || !(y.2.ahead x.2)

/-- The image slots of a context that no kernel holds (R330). -/
def State.freeSlots (s : State) (c : Nat) : List Nat :=
  (List.range (min 16 ((s.ctx c).savebase.toNat % 2 ^ 5))).filter fun j =>
    !(s.kernels.any fun x => x.2.ctx == c && x.2.slot == some j)

/-- Running kernels of a context that may be pre-empted for a priority, in the order in which they would be: lowest
priority first, then the most recently placed (R301, R329). -/
def State.victims (s : State) (c prio : Nat) : List (Nat × Kernel) :=
  let ok := fun (x : Nat × Kernel) => x.2.ctx == c && x.2.stage == .running && decide (x.2.prio < prio) &&
    x.2.cores.all fun n => match (s.core n).stop with
      | some h => h.handler.isNone
      | none => true
  (s.kernels.filter ok).mergeSort fun x y => decide (x.2.prio < y.2.prio) ||
    (x.2.prio == y.2.prio && decide (y.2.placed ≤ x.2.placed))

/-- The shortest run of victims that lets the first kernel be placed, image slots allowing; none where even all do not. -/
def State.enough (s : State) (k : Kernel) : List (Nat × Kernel) → List Nat → Nat → Option (List Nat)
  | [], _, _ => none
  | v :: r, taken, slots =>
    let need := if v.2.slot.isSome then 0 else 1
    if slots < need then s.enough k r taken slots
    else
      let now := taken ++ [v.1]
      if (s.placeFor now k).isSome then some now else s.enough k r now (slots - need)

/-! ### Kernel start (R292, R295) -/

/-- A filling that no memory has yet: its bytes are free values of their own. -/
def State.newFill (s : State) : Nat × State := (2 * s.freeCtr + 8192, { s with freeCtr := s.freeCtr + 1 })

/-- Cells of w bits from a byte list. -/
def cellsOf (w base : Nat) (bs : List W8) : Cells (BitVec w) :=
  (List.range (8 * bs.length / w)).map fun i => (base + i, BitVec.ofNat w (bytesAt bs (w / 8 * i) (w / 8)))

/-- A core as kernel start leaves it, in lockstep mode with an empty window (R380; DEDUCED, assumption log 109): its images, and its
slice, side banks, weight banks and the rest of its instruction scratchpad indeterminate (R292, R20). -/
def startCore (id : Nat) (k : Kernel) (lock : Bool) (xs : List (List W8)) (fill : Nat) (old : Core) : Core :=
  let half := Sys2Proof.bit (k.dw 1) 13
  let im : Mem := ⟨fill, []⟩
  { Core.initial with
    kernel := some id, lock := lock, kseed := k.seed, tick := old.tick, lclk := old.lclk, frozen := old.frozen,
    charge := if lock then 0 else old.charge, window := if lock then [] else old.window, ctl := old.ctl, tlb := if lock then [] else old.tlb, outrow := old.outrow,
    imem := im.writeBytes (if half then 2 ^ 17 else 0) (xs.getD 0 []), slice := ⟨fill + 2, []⟩, side := ⟨fill + 4, []⟩,
    wbanks := [(0, ⟨fill + 6, [], [], [], 0⟩), (1, ⟨fill + 8, [], [], [], 0⟩)],
    cwt := cellsOf 256 0 (xs.getD 1 []), mpst := cellsOf 128 0 (xs.getD 2 []),
    cbcfg := k.cbBanks.zipIdx.map fun b =>
      (b.1, BitVec.ofNat 64 (cbcfgWrite 0 (bytesAt (xs.getD 3 []) (32776 * b.2) 8))),
    cbook := k.cbBanks.zipIdx.flatMap fun b =>
      cellsOf 64 (4096 * b.1) (((xs.getD 3 []).drop (32776 * b.2 + 8)).take 32768),
    gtab := cellsOf 32 0 (xs.getD 4 []), latab := cellsOf 32 0 (xs.getD 5 []) }

/-- The digits i_l of a rank over the levels of a kind, innermost first (R295). -/
def sliceDigits : List (Nat × Nat) → Nat → Cells Nat
  | [], _ => []
  | l :: r, rank => Cells.put l.1 (rank % lvParts l.2) (sliceDigits r (rank / lvParts l.2))

/-- What a core receives of its levels (R295): dr and cr are its ranks. -/
def slices (ls : List Nat) (dr cr : Nat) : List (List Nat) :=
  let ix := ls.zipIdx.map fun e => (e.2, e.1)
  let of := fun kind => (ix.filter fun l => lvKind l.2 == kind).mergeSort fun a b => decide (lvOrder b.2 ≤ lvOrder a.2)
  let dd := sliceDigits (of 2) dr
  let cd := sliceDigits (of 1) cr
  ix.map fun l =>
    let e := l.2
    if lvKind e = 0 then [lvCount e]
    else
      let i := Cells.get 0 l.1 (if lvKind e = 2 then dd else cd)
      let first := i * lvCount e / lvParts e
      [first, (i + 1) * lvCount e / lvParts e - first]

/-- A partition as kernel start leaves it. -/
def startPart (k : Kernel) (q : Nat) (deliver : List (List Nat)) : Part :=
  let half := Sys2Proof.bit (k.dw 1) 13
  let on : TBank := ⟨.on, .on, .on, 0, false, false, 0⟩
  let p := { Part.initial q with
    half := half,
    banks := ((List.range 4).filter fun b => Sys2Proof.bit (k.dw 10) (4 * q + b)).map fun b => (b, on) }
  if q = 0 then
    { p with
      pc := Sys2Proof.fld (k.dw 1) 14 17,
      sq := (0, [BitVec.ofNat 64 (k.pw 2)]) ::
        deliver.zipIdx.map fun d => (d.2 + 1, d.1.map fun v => BitVec.ofNat 64 v) }
  else p

/-- The participants that an entry of the barrier table names (R314): cores from a first one by a core mask, partitions by
a partition mask, those outside the kernel left out. -/
def namedParts (k : Kernel) (first ncores e : Nat) : List Nat :=
  ((List.range ncores).filter fun i => Sys2Proof.bit e i && k.cores.contains (first + i)).flatMap fun i =>
    ((List.range 4).filter fun q => Sys2Proof.bit e (ncores + q)).map fun q => 4 * (first + i) + q

/-- The die and device units of a kernel. -/
def kernelUnits (k : Kernel) (bt : List W8) : Cells BarUnit :=
  let die := (List.range 2).flatMap fun d => if k.onDie d then (List.range k.ndie).map fun u =>
      (64 * d + u, BarUnit.mk (namedParts k (160 * d) 160 (bytesAt bt (128 + 32 * u) 32)) [] false) else []
  let dev := (List.range k.ndev).map fun u =>
      (128 + u, BarUnit.mk (namedParts k 0 320 (bytesAt bt (128 + 32 * k.ndie + 48 * u) 48)) [] false)
  die ++ dev

/-- The cluster units of a cluster. -/
def clusterUnits (c : Nat) (bt : List W8) : Cells BarUnit :=
  (List.range 16).map fun u =>
    (u, BarUnit.mk (((List.range 64).filter fun b => Sys2Proof.bit (bytesAt bt (8 * u) 8) b).map fun b => 64 * c + b) [] false)

/-- The limit in force of a cluster as a kernel is placed on it (R379). -/
def Cluster.relimit (x : Cluster) : Cluster := { x with limit := x.glimit }

/-- A cluster as kernel start leaves it. -/
def startCluster (id : Nat) (c : Nat) (xs : List (List W8)) (x : Cluster) : Cluster :=
  { x.relimit with
    posted := [], tqTail := 0, tq := [], bars := clusterUnits c (xs.getD 7 []), kernel := some id,
    mcwin := cellsOf 128 0 (xs.getD 6 []) }

/-- One core started, with its rank in its die where a die level exists, else in the kernel. The fault records of its
partitions keep their contents (R325). -/
def startOne (id : Nat) (k : Kernel) (xs : List (List W8)) (s : State) (n : Nat) : State :=
  let dies := k.levels.any fun e => lvKind e == 2
  let peers := if dies then k.cores.filter fun m => dieOf m == dieOf n else k.cores
  let cr := (peers.filter fun m => decide (m < n)).length
  let dr := if (k.cores.any fun m => decide (dieOf m < dieOf n)) then 1 else 0
  let lock := (s.ctx k.ctx).lock
  let f := s.newFill
  let t := { f.2 with freeCtr := f.2.freeCtr + 4 }
  let t := t.setCore n (startCore id k lock xs f.1 (t.core n))
  (List.range 4).foldl (fun t q => t.updPart (4 * n + q) fun x =>
    { startPart k q (slices k.levels dr cr) with frec := x.frec }) t

/-- The translations of a context leave the buffers of the cores and dies that a lockstep kernel is placed on (R354). -/
def forgetCtx (k : Kernel) (s : State) : State :=
  let t := k.cores.foldl (fun s n => s.updCore n fun c => { c with tlb := c.tlb.filter fun e => e.ctx != k.ctx }) s
  { t with dieTlb := t.dieTlb.map fun d => (d.1, if k.onDie d.1 then d.2.filter fun e => e.ctx != k.ctx else d.2) }

/-- KERNEL_START: clusters are assigned, images loaded and slices delivered; partition 0 of every core issues from the
next clock (R290, R292, R295). An image that no longer translates stops the queue with QERR 4 (DEDUCED, assumption
log 24). A started report still owed is tried again. -/
def execKernelStart (k : Nat) (s : State) : Out :=
  .next (match s.kernel k with
    | none => s
    | some x =>
      if x.report ≠ 0 then writeReport k s
      else match s.placeFor [] x, s.images x with
        | none, _ => s
        | some _, none => queueError x.queue 4
            { (s.updQueue x.queue fun u => { u with live := u.live.filter fun i => i != x.index }) with
              kernels := Cells.del k s.kernels }
        | some cs, some xs =>
          let y := { x with clusters := cs, stage := .running, placed := s.clock, periods := 0, report := if x.fwd then 2 else 0 }
          let y := { y with units := kernelUnits y (xs.getD 7 []) }
          let t := s.updKernel k fun _ => y
          let t := if (s.ctx x.ctx).lock then forgetCtx y t else t
          let t := cs.foldl (fun t c => t.updCluster c (startCluster k c xs)) t
          let t := y.cores.foldl (startOne k y xs) t
          if y.fwd then writeReport k t else t)

/-! ### Kernel end (R298, R290) -/

/-- Has a kernel no work left, its slot-2 accesses performed too (R290, R298)? -/
def State.workDone (s : State) (k : Kernel) : Bool :=
  k.stage == .running &&
    k.cores.all (fun n =>
      (s.core n).calls.isEmpty && (s.core n).near.isEmpty && (s.core n).stop.isNone && (partsOf n).all fun p =>
        (s.part p).run != .running && (s.part p).cmds.isEmpty && (s.part p).barw.isNone)
    && k.clusters.all (fun c => (s.cluster c).bars.all (fun b => b.2.arrived.isEmpty) && (s.cluster c).posted.isEmpty)
    && k.units.all fun u => u.2.arrived.isEmpty

/-- The completion word: (d << 32) + 1 added as an atomic, at a peer by a frame. -/
def addCompletion (k : Kernel) (d : Nat) (s : State) : WriteFate :=
  let a := k.pw 4
  let n := d * 2 ^ 32 + 1
  if a = 0 then .made s
  else match s.place k.ctx a true with
    | .bad _ => .bad
    | .at o b =>
      let put := fun (t : State) => t.wr (some k.ctx) none o b (splitBytes (joinBytes (t.rd o b 8) + n) 8)
      match o with
      | .peer p => match s.sendFrame k.ctx p (.atomic 0 true) b (splitBytes n 8) none none none with
        | some t => .made (put (t.refresh o))
        | none => .waits
      | _ => .made (put s)

/-- Free cells from choice number a on: n of them, those that would be the default left out. -/
def freeCells {α : Type} [DecidableEq α] (dflt : α) (n : Nat) (f : Nat → α) : Cells α :=
  ((List.range n).map fun i => (i, f i)).filter fun x => x.2 ≠ dflt

/-- The choices that make a partition's state indeterminate. -/
def looseChoices : Nat := 2533

/-- The tags, the queues and the tiles of a partition become indeterminate (R298): free values from choice number a on. -/
def Part.loosen (a : Nat) (p : Part) : Part :=
  let value := fun (w i : Nat) => BitVec.ofNat w (Config.freeNat (a + i))
  let queue := fun (w i : Nat) => (List.range (Config.freeNat (a + i) % 5)).map fun j => value w (i + 1 + j)
  { p with
    tags := value 64 0,
    sq := freeCells [] 32 fun q => queue 64 (1 + 5 * q),
    vq := freeCells [] 64 fun v => queue 1024 (161 + 5 * v),
    tiles := freeCells 0 2048 fun r => value 1024 (485 + r) }

/-- A core that its kernel leaves (R298). -/
def leaveCore (s : State) (n : Nat) : State :=
  let t := s.updCore n fun c =>
    { c with kernel := none, stop := none, stopAt := none, stopReq := false, poised := false }
  (partsOf n).foldl (fun t p => { t.updPart p (Part.loosen t.freeCtr) with freeCtr := t.freeCtr + looseChoices }) t

/-- The clusters of a kernel become free, and its cores hold none; the tags, queues and tiles of these become indeterminate
(R298). -/
def freeClusters (k : Kernel) (s : State) : State :=
  k.cores.foldl leaveCore
    (k.clusters.foldl (fun s c => s.updCluster c fun x => { x with kernel := none, tq := [], bars := [] }) s)

/-- The completed report of an ended kernel; with it written the packet is complete. -/
def finishPacket (id : Nat) (k : Kernel) (s : State) : State :=
  let t := writeReport id s
  match t.kernel id with
  | none => t
  | some y =>
    if y.report ≠ 0 then t
    else { (t.updQueue k.queue fun q => { q with live := q.live.filter fun i => i != k.index }) with
           kernels := Cells.del id t.kernels }

/-- The completion word of an ended kernel added to, and after it the completed report; a word whose address does not
translate stops the queue with QERR 5 (R290). -/
def completePacket (id : Nat) (k : Kernel) (s : State) : State :=
  let done := fun (t : State) =>
    finishPacket id k (t.updKernel id fun z => { z with owes := false, report := if k.fwd then 3 else 0 })
  if !k.owes then finishPacket id k s
  else match addCompletion k k.dropped s with
    | .waits => s
    | .bad => done (queueError k.queue 5 s)
    | .made t => done t

/-- KERNEL_END: the task entries it discards counted and its clusters freed; then the completion word is added to and the
completed report written, tried again on later clocks where they wait (R298, R290). -/
def execKernelEnd (k : Nat) (s : State) : Out :=
  .next (match s.kernel k with
    | none => s
    | some x =>
      if x.stage = .ending then completePacket k x s
      else if x.report ≠ 0 then writeReport k s
      else
        let y := { x with
          stage := .ending, dropped := (x.clusters.map fun c => (s.cluster c).tq.length).sum, owes := true }
        completePacket k y ((freeClusters x s).updKernel k fun _ => y))

end Sys2Proof.Machine
end

