-- ==== Sys2Proof/Machine/Images.lean ====
section
/-!
DEFINITION. Save images (R324, R331, R332, R333): what a kernel's image holds, the bytes of it whose places the spec
gives, and how an image is restored.
-/

namespace Sys2Proof.Machine

/-! ### A snapshot entry as bytes (R324) -/

/-- The fields of a snapshot entry that its kind of result fills. -/
structure SnapView where
  kind  : Nat
  index : Nat
  pos   : Nat
  tag   : Nat
  cbk   : Nat
  en    : Nat
  data  : Nat
deriving DecidableEq, Repr

/-- Bits of an entry of a table (R265). -/
def tableBits (tbl : Nat) : Nat :=
  match tbl with
  | 0 => 64
  | 1 => 256
  | 2 => 128
  | _ => 32

def allLanes : Nat := 2 ^ 128 - 1

/-- The byte-lane enables of a bit enable over a row. -/
def laneMask (en : V1024) : Nat := packNat 1 ((List.range 128).map fun i => b2n (en.getLsbD (8 * i)))

/-- KIND, INDEX, POS, TAG, CBK, EN and DATA of a result. -/
def LandAct.view (a : LandAct) : SnapView :=
  match a with
  | .spush q v => ⟨0, q, 0, 0, 0, allLanes, v.toNat⟩
  | .vpush q v => ⟨1, q, 0, 0, 0, allLanes, v.toNat⟩
  | .tileRow t row en v => ⟨2, t, row, 0, 0, laneMask en, v.toNat⟩
  | .pred k v => ⟨3, k, 0, 0, 0, allLanes, b2n v⟩
  | .mask k v => ⟨4, k, 0, 0, 0, allLanes, v.toNat⟩
  | .creg c en v => ⟨5, c, 0, 0, 0, if en = 0xFF then allLanes else en, v.toNat⟩
  | .sema k n => ⟨6, k, 0, 0, 0, allLanes, n⟩
  | .table tbl bank first rows tag _ =>
    ⟨7, tbl, first, tag, if tbl = 0 then bank else 0, allLanes, packNat (tableBits tbl) rows⟩
  | .cbsel k => ⟨8, k, 0, 0, 0, allLanes, 0⟩
  | .mparam k v => ⟨9, k, 0, 0, 0, allLanes, v.toNat⟩
  | .tagClear m => ⟨10, 0, 0, 0, 0, allLanes, m.toNat⟩

/-- The 256 bytes of an entry. -/
def SnapEntry.bytes (e : SnapEntry) : List W8 :=
  let v := e.act.view
  splitBytes (v.kind + 2 ^ 4 * v.index + 2 ^ 12 * e.rem + 2 ^ 16 * e.age + 2 ^ 20 * e.slot + 2 ^ 22 * e.flags
      + 2 ^ 32 * v.pos + 2 ^ 45 * v.tag + 2 ^ 51 * v.cbk) 8
    ++ splitBytes v.en 16 ++ splitBytes v.data 128 ++ splitBytes 0 104

/-! ### Where an image's bytes lie (R331, R332) -/

/-- The bytes of n cells of w bits from cell k of a table. -/
def cellBytes {w : Nat} (c : Cells (BitVec w)) (k n : Nat) : List W8 :=
  (List.range n).flatMap fun i => splitBytes (Cells.get 0 (k + i) c).toNat (w / 8)

/-- The 16 entries of a scale table; one never written holds 0x7F00 (R54). -/
def scaleBytes (c : Cells W16) : List W8 := (List.range 16).flatMap fun i => splitBytes (Cells.get 0x7F00 i c).toNat 2

/-- A barrier unit with an arrival mask of so many bytes, the arrivals numbered from base (R331). -/
def unitBytes (u : BarUnit) (base n : Nat) : List W8 :=
  splitBytes ((u.arrived.dedup.map fun p => 2 ^ (p - base)).sum) n ++ [BitVec.ofNat 8 (b2n u.phase)]

/-- The dies of a kernel, by rank. -/
def Kernel.dies (k : Kernel) : List Nat := (List.range 2).filter k.onDie

/-- The image header. -/
def headerWrites (k : Kernel) (ck : Bool) : List (Nat × List W8) :=
  let unit := fun (key u : Nat) => (0x1000 + 256 * u, unitBytes (Cells.get BarUnit.empty key k.units) 0 160)
  [(0, splitBytes (1 + 2 ^ 8 * k.clusters.length + 2 ^ 16 * k.ctx + 2 ^ 20 * b2n ck) 8),
   (8, splitBytes (k.clusters.map fun c => 2 ^ c).sum 8),
   (0x40, k.packet.flatMap fun w => splitBytes w 8), (0x80, k.desc.flatMap fun w => splitBytes w 8)]
    ++ (k.dies.zipIdx.flatMap fun d => (List.range 64).map fun u => unit (64 * d.1 + u) (64 * d.2 + u))
    ++ (List.range 64).map fun u => unit (128 + u) (128 + u)

/-- Words of 8 bytes, each at the next place. -/
def words8 (xs : List Nat) : List W8 := xs.flatMap fun x => splitBytes x 8

/-- The index of a queue's oldest entry; its tail where it is empty. -/
def Cluster.head (x : Cluster) : Nat := match x.tq.head? with
  | some e => e.1
  | none => x.tqTail

/-- A cluster section: the queue's head and tail indices, a word each (assumption log 25), the barrier units, the window table
and the queue's slots, those without an entry zero. -/
def clusterWrites (c : Nat) (x : Cluster) : List (Nat × List W8) :=
  [(0, words8 [x.head, x.tqTail])]
    ++ ((List.range 16).map fun u => (0x100 + 16 * u, unitBytes (Cells.get BarUnit.empty u x.bars) (64 * c) 8))
    ++ [(0x200, cellBytes x.mcwin 0 16)]
    ++ (List.range 1024).map fun i => (0x1000 + 32 * i, splitBytes (Cells.get 0 i x.tq).toNat 32)

/-- A weight bank by logical row and column. -/
def bankBytes (w : WBank) : List W8 :=
  (List.range 128).flatMap fun r => (List.range 256).flatMap fun n =>
    splitBytes ((w.block (256 * (r / 16) + n)).getD (r % 16) 0).toNat 2

/-- An accumulator tile in exact form by logical row. -/
def tileBytes (c : Core) (t : Nat) : List W8 :=
  let g := Cells.get ⟨false, 0⟩ t c.accTag
  (List.range 32).flatMap fun r => (c.accRow t r).flatMap fun a => splitBytes (exactForm g.ea a) 16

/-- Side-bank units, two to a byte. -/
def sideBytes (m : Mem) : List W8 :=
  (List.range (2 ^ 21)).map fun i =>
    BitVec.ofNat 8 ((m.read (2 * i)).toNat % 16 + 16 * ((m.read (2 * i + 1)).toNat % 16))

/-! ### Bank states (R333) -/

/-- The state of a bank in an image, by where its contents began: 0 written into it, 1 clean since kernel start, 2 clean since the
last restore from this slot. A bank restored from elsewhere is written. -/
def bankState (origin : Nat) (dirty ck : Bool) : Nat :=
  if dirty then 0 else if origin = 0 then 1 else if origin = 1 && !ck then 2 else 0

def TBank.imageState (b : TBank) (ck : Bool) : Nat := bankState b.origin b.dirty ck
def Core.codeState (c : Core) (ck : Bool) (b : Nat) : Nat := bankState (Cells.get 0 b c.cbOrigin) (c.cbDirty.getLsbD b) ck

/-- Does an image hold the rows of a tile bank: of one that is on or in retention, and written (R38, R333)? -/
def TBank.inImage (b : TBank) (ck : Bool) : Bool := b.state != .off && b.imageState ck == 0

/-! ### Items that the spec lists without their places (R332; assumption log 25) -/

/-- The copy of a partition's fault record: its own in a checkpoint, in a save image that of a pre-emption at its boundary, with
cause 0x40 (R330, R334, R388). -/
def recordCopy (c : Core) (ck : Bool) (p : Part) : List Nat :=
  let cyc := match c.stop with
    | some h => h.cyc
    | none => c.cycle
  let t : TrapInfo := ⟨causePreemption, false, 0, 0, false, 0, 0, p.pc, p.half, 0, 0, 0, 0, 0, 0⟩
  if ck then (List.range 8).map fun w => (Cells.get 0 w p.frec).toNat
  else (frecWords t (c.stop.any fun h => h.handler.isSome) c.lock p.snap.length cyc).map fun w => w.2.toNat

/-- The sequencer block, its items in the order of R332. -/
def sequencerBytes (c : Core) (ck : Bool) (p : Part) : List W8 :=
  let g := match p.group2 with
    | none => [0, 0]
    | some g => [1 + 2 * b2n g.guard + 4 * g.done, g.word.toNat]
  let tx := match p.txActive with
    | none => 0
    | some x => 1 + 2 * x.code
  words8 [p.pc, b2n p.half, runCode p.run, g.headD 0] ++ splitBytes (g.getD 1 0) 16
    ++ words8 [p.loops.length]
    ++ (List.range 8).flatMap (fun i =>
      let l := p.loops.getD i ⟨0, 0, 0⟩
      words8 [l.remaining, l.start + 2 ^ 32 * l.stop])
    ++ words8 [p.pblk.rem + 2 ^ 16 * p.pblk.pred, p.pblk.pat, p.preds.toNat]
    ++ cellBytes p.masks 0 8
    ++ words8 [p.tags.toNat, p.flags.toNat, p.slatch.toNat, p.pcw.toNat]
    ++ cellBytes p.mps 0 8 ++ words8 [p.gstrm.toNat, tbpwrOf p]
    ++ (List.range 64).map (fun v => BitVec.ofNat 8 (Cells.get [] v p.vq).length)
    ++ (List.range 32).map (fun q => BitVec.ofNat 8 (Cells.get [] q p.sq).length)
    ++ words8 [tx] ++ words8 (recordCopy c ck p)

def EngKind.code : EngKind → Nat
  | .fld => 0 | .fst => 1 | .fatom => 2 | .copy => 3 | .gath => 4 | .scat => 5 | .mcst => 6 | .cgath => 7 | .drn => 8
  | .txb => 9 | .txc => 10 | .txa => 11 | .spawn => 12 | .take => 13 | .join => 14 | .ckpt => 15 | .table => 16 | .ovld => 17

/-- A command record: its operation and tags, its argument words, its progress, and the CYCLE due for its tag. -/
def commandBytes (c : Core) (d : Cmd) : List W8 :=
  words8 [d.kind.code + 2 ^ 8 * d.fn + 2 ^ 16 * d.tag + 2 ^ 24 * b2n d.started, (d.needs.map fun g => 2 ^ g).sum,
    d.word 0, d.word 1, d.word 2, d.rows + 2 ^ 32 * d.wr, c.cycle + d.left, 0]

/-- A captured bank of a call: its configuration, its number and a bit that says that there is one. -/
def capWord (b : CapBank) : Nat :=
  b.valid + 2 ^ 16 * b.etype + 2 ^ 20 * b.elen + 2 ^ 24 * b2n b.whole + 2 ^ 25 * b2n b.act + 2 ^ 26 * b.k + 2 ^ 32

def stageCode : CallStage → Nat
  | .queued => 0 | .running => 1 | .ended => 2

/-- A call-queue entry with its call-local state: its kind; its partition, produced tag, place in its routine and bank tag; what it
captured; its consumed tags, its flags and the bundle that issued it; its masks and its progress (R223). -/
def callBytes (k : Call) : List W8 :=
  let kind := match k.kind with
    | .mcall r => 2 ^ 8 * r
    | .wswap => 1
    | .aclr ts => 2 + 2 ^ 8 * ts
    | .acdrn w xb => 3 + 2 ^ 8 * xb + 2 ^ 64 * w
  splitBytes kind 16 ++ words8 [k.gpi + 2 ^ 16 * k.tag.getD 64 + 2 ^ 24 * k.word + 2 ^ 40 * k.row + 2 ^ 48 * b2n k.btag,
    k.pcw.toNat, k.gstrm.toNat + 2 ^ 32 * k.mem, k.xb, (k.needs.dedup.map fun g => 2 ^ g).sum,
    k.flags + 2 ^ 8 * stageCode k.stage + 2 ^ 12 * k.grp + 2 ^ 16 * b2n k.half + 2 ^ 32 * k.pc,
    k.bno % 2 ^ 48 + 2 ^ 48 * k.agrp + 2 ^ 50 * k.bgrp, k.awm + 2 ^ 8 * k.acm, k.rows + 2 ^ 32 * k.moved]
    ++ cellBytes k.mps 0 8 ++ scaleBytes k.sctab
    ++ words8 ((List.range 3).map fun i => match k.cbs[i]? with
      | some b => capWord b
      | none => 0)
    ++ (List.range 4).flatMap fun i => splitBytes (Cells.get 0 i k.loops) 4

/-- The core header. -/
def headerBytes (s : State) (n : Nat) (ck : Bool) : List W8 :=
  let c := s.core n
  words8 [c.kseed.toNat, c.cycle, c.frz] ++ words8 ((List.range 4).map fun k => Cells.get 0 k c.sema)
    ++ words8 ((List.range 8).map c.cbcfgOf) ++ words8 ((List.range 4).map (sctabOf c)) ++ words8 [b2n c.btag]
    ++ (partsOf n).flatMap (fun p => (List.range 4).map fun b => BitVec.ofNat 8 (((s.part p).bank b).imageState ck))
    ++ (List.range 8).map (fun b => BitVec.ofNat 8 (c.codeState ck b))
    ++ words8 ((List.range 2).map (accstOf c))

/-- The census and plane limit of a bank. -/
def censusBytes (w : WBank) : List W8 :=
  words8 (w.limit :: (List.range 8).map fun b =>
    let g := w.censusOf b
    g.hi + 2 ^ 8 * g.lo + 2 ^ 16 * g.n)

/-- A partition section: its sequencer block, queues, snapshot entries and command records, and the tiles of the banks that the
image holds. -/
def partWrites (c : Core) (ck : Bool) (p : Part) : List (Nat × List W8) :=
  [(0, sequencerBytes c ck p)]
    ++ ((List.range 32).map fun q => (0x400 + 32 * q, (Cells.get [] q p.sq).flatMap fun v => splitBytes v.toNat 8))
    ++ ((List.range 64).map fun v => (0x800 + 512 * v, (Cells.get [] v p.vq).flatMap fun x => splitBytes x.toNat 128))
    ++ p.snap.zipIdx.map (fun e => (0x8800 + 256 * e.2, e.1.bytes))
    ++ p.cmds.zipIdx.map (fun d => (0xB800 + 64 * d.2, commandBytes c d.1))
    ++ ((List.range 16).filter fun t => (p.bank (t / 4)).inImage ck).map fun t =>
        (0x10000 + 0x4000 * t, (List.range 128).flatMap fun r => splitBytes (p.row t r).toNat 128)

/-- A core section; a checkpoint leaves out the slice and the side banks (R334). -/
def coreWrites (s : State) (n : Nat) (ck : Bool) : List (Nat × List W8) :=
  let c := s.core n
  [(0, headerBytes s n ck), (0x1000, cellBytes c.cwt 0 512), (0x5000, cellBytes c.mpst 0 1024),
   (0x9000, (List.range 768).flatMap fun i => splitBytes (c.gaussT i) 4),
   (0x9C00, (List.range 64).flatMap fun i => splitBytes (c.logAdd i) 4)]
    ++ c.calls.zipIdx.map (fun k => (0x800 + 256 * k.2, callBytes k.1))
    ++ ((List.range 2).map fun b => (0x10000 + 0x10000 * b, bankBytes (Cells.get WBank.zero b c.wbanks)))
    ++ ((List.range 2).map fun b => (0x30000 + 0x1000 * b, censusBytes (Cells.get WBank.zero b c.wbanks)))
    ++ ((List.range 8).map fun t => (0x40000 + 0x20000 * t, tileBytes c t))
    ++ (((List.range 8).filter fun b => c.codeState ck b == 0).map fun b =>
        (0x140000 + 0x8000 * b, cellBytes c.cbook (4096 * b) 4096))
    ++ (List.range 4).flatMap (fun q => (partWrites c ck (s.part (4 * n + q))).map fun w => (0x180000 + 0x50000 * q + w.1, w.2))
    ++ [(0x2C0000, c.imem.bytes 0 (2 ^ 18))]
    ++ (if ck then [] else [(0x300000, sideBytes c.side), (0x500000, c.slice.bytes 0 (2 ^ 23))])

/-- The sections of clusters and cores by their rank in the kernel. -/
def clusterAt (j : Nat) : Nat := 0x10000 + 0x10000 * j
def coreAt (i : Nat) : Nat := 0x200000 + 0xD00000 * i

/-- Every byte of an image whose value the model gives, by offset. -/
def imageWrites (s : State) (k : Kernel) (ck : Bool) : List (Nat × List W8) :=
  headerWrites k ck
    ++ (k.clusters.zipIdx.flatMap fun c => (clusterWrites c.1 (s.cluster c.1)).map fun w => (clusterAt c.2 + w.1, w.2))
    ++ k.cores.zipIdx.flatMap fun n => (coreWrites s n.1 ck).map fun w => (coreAt n.2 + w.1, w.2)

/-- The parts of an image that hold more than the items written: the header, the cluster sections, and each core's header, census,
sequencer and command regions. -/
def looseRegions (k : Kernel) : List (Nat × Nat) :=
  [(0, 0x10000)] ++ ((List.range k.clusters.length).map fun j => (clusterAt j, 0x10000))
    ++ (List.range k.cores.length).flatMap fun i =>
      let b := coreAt i
      [(b, 0x1000), (b + 0x30000, 0x2000)] ++ (List.range 4).flatMap fun q =>
        let a := b + 0x180000 + 0x50000 * q
        [(a, 0x8800), (a + 0xB800, 0x800)]

/-- An image of what a state holds of a kernel written to device memory from address a: its items, and free bytes where a region
holds no item (assumption log 25). -/
def writeImage (held : State) (k : Kernel) (a : Nat) (ck : Bool) (s : State) : State :=
  let f := s.newFill
  let put := fun (t : State) (w : Nat × List W8) => t.wr none none .hbm (a + w.1) w.2
  let t := (looseRegions k).foldl (fun t r =>
    put t (r.1, (List.range r.2).map fun i => Config.freeByte f.1 (a + r.1 + i))) f.2
  (imageWrites held k ck).foldl put t

/-! ### What an image holds, read back (R331 to R333) -/

/-- n cells of w bits, one after another. -/
def readCells (m : Mem) (w a n : Nat) : Cells (BitVec w) :=
  (List.range n).map fun i => (i, BitVec.ofNat w (m.readN (a + w / 8 * i) (w / 8)))

/-- A barrier unit's arrivals and phase, with an arrival mask of n bytes numbered from base. -/
def readUnit (m : Mem) (a base n : Nat) (u : BarUnit) : BarUnit :=
  let mask := m.readN a n
  { u with arrived := ((List.range (8 * n)).filter fun i => Sys2Proof.bit mask i).map fun i => base + i,
           phase := (m.read (a + n)).getLsbD 0 }

/-- The die and device units of a kernel. -/
def readUnits (m : Mem) (a : Nat) (k : Kernel) : Cells BarUnit :=
  let keys := (k.dies.zipIdx.flatMap fun d => (List.range 64).map fun u => (64 * d.1 + u, 64 * d.2 + u))
    ++ (List.range 64).map fun u => (128 + u, 128 + u)
  keys.foldl (fun c x => match c.find? fun e => e.1 == x.1 with
    | none => c
    | some e => Cells.put x.1 (readUnit m (a + 0x1000 + 256 * x.2) 0 160 e.2) c) k.units

/-- A cluster's section: what the image copy x holds beside it stays. -/
def readCluster (m : Mem) (a c : Nat) (x : Cluster) : Cluster :=
  let head := m.readN a 8 % 1024
  let slot := fun (i : Nat) => (i, BitVec.ofNat 256 (m.readN (a + 0x1000 + 32 * i) 32))
  { x with
    tqTail := m.readN (a + 8) 8 % 1024,
    tq := ((List.range 1024).map fun i => slot ((head + i) % 1024)).filter fun e => e.2.toNat % 2 ^ 64 != 0,
    bars := x.bars.map fun u => (u.1, readUnit m (a + 0x100 + 16 * u.1) (64 * c) 8 u.2),
    mcwin := readCells m 128 (a + 0x200) 16 }

/-- A weight bank: its cells, its census and its plane limit. Its block exponents have no place in the image (assumption
log 57). -/
def readBank (m : Mem) (a g : Nat) (w : WBank) : WBank where
  fill := 0
  blocks := (List.range 8).flatMap fun b => (List.range 256).map fun n =>
    (256 * b + n, (List.range 16).map fun j => BitVec.ofNat 16 (m.readN (a + 2 * ((16 * b + j) * 256 + n)) 2))
  exps := (List.range 2048).map fun i => (i, w.expo i)
  census := (List.range 8).map fun b =>
    let v := m.readN (g + 8 + 8 * b) 8
    (b, ⟨Sys2Proof.fld v 0 8, Sys2Proof.fld v 8 8, Sys2Proof.fld v 16 8⟩)
  plim := m.readN g 8

/-- An accumulator row in exact form (R226). -/
def readAccRow (m : Mem) (a : Nat) : List AccCell :=
  (List.range 256).map fun j => let v := m.readN (a + 16 * j) 16; ⟨sgn 80 v, Sys2Proof.bit v 80⟩

/-- The tags of a mask. -/
def tagsIn (v : Nat) : List Nat := (List.range 64).filter fun g => Sys2Proof.bit v g

/-- A result of kind k of R324 from the fields of its entry; one of a table load keeps its command. -/
def readResult (k index pos tag cbk en data : Nat) (old : LandAct) : LandAct :=
  let lanes : V1024 := BitVec.ofNat 1024 (packNat 8 ((List.range 128).map fun i => if Sys2Proof.bit en i then 255 else 0))
  match k with
  | 0 => .spush index (BitVec.ofNat 64 data)
  | 1 => .vpush index (BitVec.ofNat 1024 data)
  | 2 => .tileRow index pos lanes (BitVec.ofNat 1024 data)
  | 3 => .pred index (Sys2Proof.bit data 0)
  | 4 => .mask index (BitVec.ofNat 128 data)
  | 5 => .creg index (en % 256) (BitVec.ofNat 64 data)
  | 6 => .sema index (data % 2 ^ 64)
  | 7 => .table index cbk pos ((List.range (1024 / tableBits index)).map fun i => Sys2Proof.fld data (tableBits index * i) (tableBits index)) tag
      (match old with
        | .table _ _ _ _ _ id => id
        | _ => 0)
  | 8 => .cbsel index
  | 9 => .mparam index (BitVec.ofNat 64 data)
  | 10 => .tagClear (BitVec.ofNat 64 data)
  | _ => old

/-- A snapshot entry: as it was saved where its bytes are, since EN names whole bytes, else as the image gives it. -/
def readSnap (m : Mem) (a : Nat) (e : SnapEntry) : SnapEntry :=
  if m.bytes a 256 = e.bytes then e
  else
    let h := m.readN a 8
    { rem := Sys2Proof.fld h 12 4, age := Sys2Proof.fld h 16 4, slot := Sys2Proof.fld h 20 2, flags := Sys2Proof.fld h 22 6,
      act := readResult (Sys2Proof.fld h 0 4) (Sys2Proof.fld h 4 8) (Sys2Proof.fld h 32 13) (Sys2Proof.fld h 45 6) (Sys2Proof.fld h 51 3)
        (m.readN (a + 8) 16) (m.readN (a + 24) 128) e.act,
      nest := e.nest }

def engKinds : List EngKind :=
  [.fld, .fst, .fatom, .copy, .gath, .scat, .mcst, .cgath, .drn, .txb, .txc, .txa, .spawn, .take, .join, .ckpt, .table, .ovld]

/-- A command record; cyc is the CYCLE of its core. -/
def readCommand (m : Mem) (a cyc : Nat) (d : Cmd) : Cmd :=
  let w := fun i => m.readN (a + 8 * i) 8
  { d with
    kind := engKinds.getD (w 0 % 2 ^ 8) d.kind, fn := Sys2Proof.fld (w 0) 8 8, tag := Sys2Proof.fld (w 0) 16 8,
    started := Sys2Proof.bit (w 0) 24, needs := tagsIn (w 1),
    words := d.words.zipIdx.map fun x => if x.2 < 3 then w (2 + x.2) else x.1,
    rows := Sys2Proof.fld (w 5) 0 32, wr := Sys2Proof.fld (w 5) 32 32, left := w 6 - cyc }

/-- A tile bank from its field of TBPWR and its state byte (R34, R38, R333); one in transition goes on from where it stood. -/
def readTBank (pw state k : Nat) (whole : Bool) (b : TBank) : TBank :=
  let q : BankState := match Sys2Proof.fld pw (2 * k) 2 with
    | 0 => .off | 1 => .retention | _ => .on
  let b := { b with req := q, dirty := false, origin := if state = 1 then 0 else if whole then 1 else 2 }
  if Sys2Proof.bit pw (8 + k) then b else { b with state := q, target := q, left := 0, pending := false }

/-- A sequencer block, as sequencerBytes lays it out; the state bytes of the partition's tile banks stand at st. A bank that is clean
since kernel start holds zeros, one that is off holds nothing (R38, R333). -/
def readPart (m : Mem) (a st cyc : Nat) (whole : Bool) (p : Part) : Part :=
  let w := fun i => m.readN (a + 8 * i) 8
  let count := fun i => (m.read (a + 448 + i)).toNat
  let state := fun b => (m.read (st + b)).toNat
  let banks := (List.range 4).map fun b => (b, readTBank (w 55) (state b) b whole (p.bank b))
  let tx := p.txActive.getD ⟨0, 0, 0, [], [], 24, false, false⟩
  { p with
    pc := w 0, half := Sys2Proof.bit (w 1) 0,
    run := match w 2 with
      | 0 => .idle | 1 => .running | _ => .halted,
    group2 := if Sys2Proof.bit (w 3) 0
      then some ⟨BitVec.ofNat 128 (w 4 + 2 ^ 64 * w 5), Sys2Proof.bit (w 3) 1, Sys2Proof.fld (w 3) 2 4⟩ else none,
    loops := (List.range (min 8 (w 6))).map fun i => ⟨w (7 + 2 * i), Sys2Proof.fld (w (8 + 2 * i)) 0 32, Sys2Proof.fld (w (8 + 2 * i)) 32 32⟩,
    pblk := { rem := Sys2Proof.fld (w 23) 0 16, pred := Sys2Proof.fld (w 23) 16 48, pat := w 24 },
    preds := BitVec.ofNat 8 (w 25), masks := readCells m 128 (a + 8 * 26) 8, tags := BitVec.ofNat 64 (w 42),
    flags := BitVec.ofNat 6 (w 43), slatch := BitVec.ofNat 8 (w 44), pcw := BitVec.ofNat 64 (w 45),
    mps := readCells m 64 (a + 8 * 46) 8, gstrm := BitVec.ofNat 32 (w 54),
    sq := (List.range 32).map fun q => (q, (List.range (min 4 (count (64 + q)))).map fun i =>
      BitVec.ofNat 64 (m.readN (a + 0x400 + 32 * q + 8 * i) 8)),
    vq := (List.range 64).map fun v => (v, (List.range (min 4 (count v))).map fun i =>
      BitVec.ofNat 1024 (m.readN (a + 0x800 + 512 * v + 128 * i) 128)),
    tx := if Sys2Proof.bit (w 68) 0 then some { tx with code := w 68 / 2 } else p.tx.filter Tx.gone,
    snap := p.snap.zipIdx.map fun e => readSnap m (a + 0x8800 + 256 * e.2) e.1,
    cmds := p.cmds.zipIdx.map fun d => readCommand m (a + 0xB800 + 64 * d.2) cyc d.1,
    tiles := (List.range 16).flatMap fun t =>
      if state (t / 4) = 1 ∨ (Cells.get TBank.idle (t / 4) banks).state = .off then []
      else (List.range 128).map fun r => (128 * t + r, BitVec.ofNat 1024 (m.readN (a + 0x10000 + 0x4000 * t + 128 * r) 128)),
    banks := banks }

/-- A call-queue entry, as callBytes lays it out. -/
def readCall (m : Mem) (a : Nat) (k : Call) : Call :=
  let kind := m.readN a 16
  let w := fun i => m.readN (a + 16 + 8 * i) 8
  { k with
    kind := match kind % 2 ^ 8 with
      | 0 => .mcall (Sys2Proof.fld kind 8 56)
      | 1 => .wswap
      | 2 => .aclr (Sys2Proof.fld kind 8 56)
      | _ => .acdrn (Sys2Proof.fld kind 64 64) (Sys2Proof.fld kind 8 56),
    gpi := Sys2Proof.fld (w 0) 0 16, tag := if Sys2Proof.fld (w 0) 16 8 < 64 then some (Sys2Proof.fld (w 0) 16 8) else none,
    word := Sys2Proof.fld (w 0) 24 16, row := Sys2Proof.fld (w 0) 40 8, btag := Sys2Proof.bit (w 0) 48,
    pcw := BitVec.ofNat 64 (w 1), gstrm := BitVec.ofNat 32 (w 2), mem := Sys2Proof.fld (w 2) 32 32, xb := w 3, needs := tagsIn (w 4),
    flags := Sys2Proof.fld (w 5) 0 8,
    stage := (match Sys2Proof.fld (w 5) 8 4 with
      | 0 => .queued | 1 => .running | _ => .ended),
    grp := Sys2Proof.fld (w 5) 12 4, half := Sys2Proof.bit (w 5) 16, pc := Sys2Proof.fld (w 5) 32 32,
    bno := Sys2Proof.fld (w 6) 0 48, agrp := Sys2Proof.fld (w 6) 48 2, bgrp := Sys2Proof.fld (w 6) 50 2,
    awm := Sys2Proof.fld (w 7) 0 8, acm := Sys2Proof.fld (w 7) 8 8, rows := Sys2Proof.fld (w 8) 0 32, moved := Sys2Proof.fld (w 8) 32 32,
    mps := readCells m 64 (a + 88) 8, sctab := readCells m 16 (a + 152) 16,
    cbs := ((List.range 3).map fun i => m.readN (a + 184 + 8 * i) 8).filterMap fun v => if Sys2Proof.bit v 32
      then some ⟨Sys2Proof.fld v 26 3, Sys2Proof.bit v 24, Sys2Proof.bit v 25, Sys2Proof.fld v 16 4, Sys2Proof.fld v 20 4, Sys2Proof.fld v 0 16⟩
      else none,
    loops := (List.range 4).map fun i => (i, m.readN (a + 208 + 4 * i) 4) }

/-- A core's section: its header, tables, banks, accumulators and memories; a codebook bank clean since kernel start stays as it
was. -/
def readCore (m : Mem) (a : Nat) (whole : Bool) (c : Core) : Core :=
  let w := fun i => m.readN (a + 8 * i) 8
  let state := fun b => (m.read (a + 176 + b)).toNat
  let books := (List.range 8).flatMap fun b =>
    (List.range 4096).map fun i => (4096 * b + i,
      if state b = 1 then Cells.get 0 (4096 * b + i) c.cbook
      else BitVec.ofNat 64 (m.readN (a + 0x140000 + 0x8000 * b + 8 * i) 8))
  let accst := fun t => Sys2Proof.fld (m.readN (a + 184 + 8 * (t / 4)) 8) (16 * (t % 4)) 16
  { c with
    kseed := BitVec.ofNat 64 (w 0), cycle := w 1, frz := w 2,
    sema := (List.range 4).map fun k => (k, w (3 + k)),
    cbcfg := readCells m 64 (a + 8 * 7) 8, sctab := readCells m 16 (a + 8 * 15) 16, btag := Sys2Proof.bit (w 19) 0,
    accView := (List.range 8).map fun t => (t, ⟨Sys2Proof.bit (accst t) 15, Sys2Proof.fld (accst t) 0 8⟩),
    calls := c.calls.zipIdx.map fun k => readCall m (a + 0x800 + 256 * k.2) k.1,
    cbOrigin := (List.range 8).map fun b => (b, if state b = 1 then 0 else if whole then 1 else 2),
    cwt := readCells m 256 (a + 0x1000) 512, mpst := readCells m 128 (a + 0x5000) 1024,
    gtab := readCells m 32 (a + 0x9000) 768, latab := readCells m 32 (a + 0x9C00) 64,
    wbanks := (List.range 2).map fun b => (b, readBank m (a + 0x10000 + 0x10000 * b) (a + 0x30000 + 0x1000 * b) (Cells.get WBank.zero b c.wbanks)),
    acc := (List.range 256).map fun r => (r, readAccRow m (a + 0x40000 + 0x1000 * r)),
    cbook := books.filter fun e => e.2 != 0,
    imem := Mem.zero.writeBytes 0 (m.bytes (a + 0x2C0000) (2 ^ 18)) }

/-- The side banks and the slice of a core's section. -/
def readSlice (m : Mem) (a : Nat) (c : Core) : Core :=
  let units := (m.bytes (a + 0x300000) (2 ^ 21)).flatMap fun b => [BitVec.ofNat 8 (b.toNat % 16), BitVec.ofNat 8 (b.toNat / 16)]
  { c with side := Mem.zero.writeBytes 0 units, slice := Mem.zero.writeBytes 0 (m.bytes (a + 0x500000) (2 ^ 23)) }

/-! ### Capturing and restoring -/

/-- What a kernel's image holds. -/
def State.imageOf (s : State) (k : Kernel) : Image where
  clusters := k.clusters.map fun c => (c, s.cluster c)
  cores := k.cores.map fun n => (n, s.core n)
  parts := (k.cores.flatMap partsOf).map fun p => (p, s.part p)
  units := k.units

/-- What stays with a core whatever kernel it runs: the governor's state, CORECTL, its translation buffer and its row
map. The freezes of a lockstep kernel depend on its own operations alone: it begins with an empty window (R380; DEDUCED, assumption
log 109). -/
def Core.keep (x old : Core) : Core :=
  { x with
      frozen := old.frozen, charge := if x.lock then 0 else old.charge, window := if x.lock then [] else old.window,
      ctl := old.ctl, tlb := old.tlb,
      outrow := old.outrow, farNow := [], rowsNow := [], tilesNow := [], holds := [] }

/-- A core and its partitions from core section i of the image at a, where there is one: the slice and side banks as they stand
where it has none (R334). What an image has no room for, and all of a kernel without an image, is as the device saved it (assumption
log 57). The fault records stay those of the core (R325). -/
def restoreCore (id : Nat) (img : Image) (a : Option Nat) (whole : Bool) (s : State) (n i : Nat) : State :=
  let old := s.core n
  let x := Cells.get Core.initial n img.cores
  let at_ := a.map fun a => a + coreAt i
  let c := match at_ with
    | some b => readCore s.hbm b whole x
    | none => { x with cbOrigin := (List.range 8).map fun b => (b, 2) }
  let c := match whole, at_ with
    | true, some b => readSlice s.hbm b c
    | true, none => c
    | false, _ => { c with slice := old.slice, side := old.side }
  let part := fun (p : Nat) =>
    let y := Cells.get (Part.initial (p % 4)) p img.parts
    let z := match at_ with
      | some b => readPart s.hbm (b + 0x180000 + 0x50000 * (p % 4)) (b + 160 + 4 * (p % 4)) c.cycle whole y
      | none => { y with banks := (List.range 4).map fun b => (b, { y.bank b with dirty := false, origin := 2 }) }
    { z with frec := (s.part p).frec }
  (partsOf n).foldl (fun s p => s.setPart p (part p)) (s.setCore n { (c.keep old) with kernel := some id, cbDirty := 0 })

/-- A cluster from cluster section j of the image at a: its limit in force is its written one (R379), and its map stays. -/
def restoreCluster (id : Nat) (img : Image) (a : Option Nat) (s : State) (c j : Nat) : State :=
  let x := Cells.get Cluster.initial c img.clusters
  let x := match a with
    | some a => readCluster s.hbm (a + clusterAt j) c x
    | none => x
  s.updCluster c fun old =>
    { old.relimit with posted := [], tqTail := x.tqTail, tq := x.tq, bars := x.bars, mcwin := x.mcwin, kernel := some id }

/-- An image restored onto the clusters it names, from its place in device memory where it has one. -/
def restoreImage (id : Nat) (k : Kernel) (img : Image) (a : Option Nat) (whole : Bool) (s : State) : State :=
  k.cores.zipIdx.foldl (fun s n => restoreCore id img a whole s n.1 n.2)
    (k.clusters.zipIdx.foldl (fun s c => restoreCluster id img a s c.1 c.2) s)

/-- A core that no kernel holds any more. Its fault records stay. -/
def vacateCore (s : State) (n : Nat) : State :=
  let old := s.core n
  (partsOf n).foldl (fun s p => s.updPart p fun x =>
    { Part.initial 1 with frec := x.frec })
    (s.setCore n ((({ Core.initial with slice := old.slice, side := old.side, imem := old.imem } : Core)).keep old))

/-- The clusters of a pre-empted or dropped kernel become free; no walk of theirs goes on. -/
def vacate (k : Kernel) (s : State) : State :=
  let t := k.clusters.foldl (fun s c => s.updCluster c fun x =>
    { x with kernel := none, tq := [], bars := [], posted := [] }) s
  let t := k.cores.foldl vacateCore t
  { t with walks := t.walks.filter fun w => !k.cores.contains (w.gpi / 4) }

end Sys2Proof.Machine
end

