-- ==== Sys2Proof/Machine/Preempt.lean ====
section
/-!
DEFINITION. Pre-emption and resumption of kernels (R300, R301, R329 to R333), and checkpoints (R264, R334, R335).
-/

namespace Sys2Proof.Machine

/-! ### Pre-emption (R330) -/

def State.stopIs (s : State) (n : Nat) : Bool :=
  match (s.core n).stop with
  | some h => !h.active && h.handler.isNone
  | none => false

/-- A command as an image holds it: one that does not count yet looks its pages up again. -/
def Cmd.packed (c : Cmd) : Cmd := if c.counting then c else { c with looked := false, waits := [], pages := [] }

/-- Do all cores of a kernel stand still, its writes at their owners, those of a commit too, and no frame of its commands
unanswered? -/
def State.quiesced (s : State) (k : Kernel) : Bool :=
  k.cores.all (fun n => s.stopIs n && (partsOf n).all fun p =>
      (s.part p).cmds.all (fun c => c.sent != 1) && match (s.part p).tx with
        | some x => !x.busy
        | none => true)
    && k.clusters.all fun c => (s.cluster c).posted.isEmpty

/-- The address of an image slot of a context (R330), and of its checkpoint bank (R334). -/
def State.slotAt (s : State) (k j : Nat) : Nat := Sys2Proof.fld (s.ctx k).savebase.toNat 37 15 * 2 ^ 37 + j * 2 ^ 33
def State.bankAt (s : State) (k bank j : Nat) : Nat :=
  Sys2Proof.fld (s.ctx k).ckbase.toNat 38 14 * 2 ^ 38 + bank * 2 ^ 37 + j * 2 ^ 33

/-- The image is written to the kernel's slot, and its clusters become free (R330 step 6). -/
def saveKernel (id : Nat) (k : Kernel) (s : State) : State :=
  let s := k.cores.foldl (fun s n => s.updParts n fun p => { p with cmds := p.cmds.map Cmd.packed }) s
  let img := s.imageOf k
  let t := writeImage s k (s.slotAt k.ctx (k.slot.getD 0)) false s
  (vacate k t).updKernel id fun x =>
    { x with stage := .preempted, image := some img, since := s.clock, periods := 0 }

/-- A running kernel is chosen: it takes its slot, its cores are told to stop, and the long operations of cores that stand
still already are held (R330 steps 1 to 3). -/
def choosePreempted (id : Nat) (k : Kernel) (s : State) : State :=
  let slot := match k.slot with
    | some j => some j
    | none => (s.freeSlots k.ctx).head?
  let t := s.updKernel id fun x => { x with stage := .stopping, slot := slot }
  k.cores.foldl (fun s n =>
    if (s.core n).stop.isSome
      then (holdAll n s).updCore n fun c => { c with stop := c.stop.map fun h => { h with rest := true } }
      else s.updCore n fun c => { c with stopReq := true }) t

/-- One core of a kernel being pre-empted stops at its boundary, to resume at once when the kernel is restored. -/
def preemptCore (n : Nat) (s : State) : State :=
  (holdAll n (stopCore n true s)).updCore n fun c =>
    { c with stop := c.stop.map fun h => { h with resume := some 1, rest := true } }

/-- PREEMPTION: the step of pre-empting kernel k that this clock allows: it is chosen, the core of this step stops, or its
image is saved. -/
def execPreemption (k : Nat) (s : State) : Out :=
  .next (match s.kernel k with
    | none => s
    | some x =>
      if x.stage = .running then choosePreempted k x s
      else if x.stage ≠ .stopping then s
      else if (s.core s.cur.core).stop.isNone && x.cores.contains s.cur.core then preemptCore s.cur.core s
      else if s.quiesced x then saveKernel k x s
      else s)

/-! ### Resumption (R330, R313, R379) -/

/-- The long operations of an elastic core that waits for its trap to be handled go on (R321). -/
def runOn (n : Nat) (s : State) : State :=
  if (s.core n).lock || (match (s.core n).stop with
      | some h => h.resume.isSome
      | none => true) then s
  else (s.updParts n fun p => { p with cmds := p.cmds.map fun c => { c with held := false } }).updCore n fun c =>
    { c with calls := c.calls.map fun k => { k with held := false }, stop := c.stop.map fun h => { h with rest := false } }

/-- KERNEL_RESUME: the image is restored onto the clusters the kernel left; its cores resume on the next clock, those that
a trap had stopped as their handling allows. -/
def execKernelResume (k : Nat) (s : State) : Out :=
  .next (match s.kernel k with
    | none => s
    | some x =>
      match s.placeFor [] x, x.image with
      | some _, some img =>
        if x.stage ≠ .preempted then s
        else
          let t := if (s.ctx x.ctx).lock then forgetCtx x s else s
          let a := s.slotAt x.ctx (x.slot.getD 0)
          let t := restoreImage k x img (some a) true t
          let t := x.cores.foldl (fun t n => runOn n t) t
          t.updKernel k fun y => { y with stage := .running, image := none, placed := s.clock, periods := 0, units := readUnits s.hbm a y }
      | _, _ => s)

/-! ### Checkpoints (R264, R334, R335) -/

/-- The running kernels of a context. -/
def State.runningKernels (s : State) (k : Nat) : List (Nat × Kernel) :=
  s.kernels.filter fun x => x.2.ctx == k && x.2.stage == .running

/-- Has partition p arrived at its context's checkpoint, and has that not completed: its CKPT has drained, and the calls its
core issued before it have ended? -/
def State.ckptArrived (s : State) (p : Nat) : Bool :=
  let x := s.part p
  x.ckpt && !((s.core (p / 4)).stop.any fun h => h.ckpt) && x.cmds.any fun c => c.kind == .ckpt && c.counting && c.aux == 1 && c.left == 0
    && (s.core (p / 4)).calls.all fun e => decide (c.id < e.id) || e.stage == .ended

/-- Have all running partitions of a context arrived, with nothing of theirs in flight? -/
def State.ckptReady (s : State) (k : Nat) : Bool :=
  let ks := s.runningKernels k
  (ks.any fun x => x.2.cores.any fun n => (partsOf n).any s.ckptArrived)
    && !(s.kernels.any fun x => x.2.ctx == k && x.2.stage == .stopping)
    && ks.all fun x => x.2.cores.all fun n =>
      (partsOf n).all (fun p => (s.part p).run != .running || s.ckptArrived p)
        && ((s.core n).stop.isSome || ((s.core n).pend.isEmpty && (s.core n).near.isEmpty))

/-- The images of a checkpoint: each running kernel, its cores free to issue after their CKPT, without the slices and the
side banks. -/
def State.ckptKernels (s : State) (k : Nat) : Cells Kernel :=
  (s.runningKernels k).map fun x =>
    let img := s.imageOf x.2
    (x.1, { x.2 with image := some { img with
      cores := img.cores.map fun c => (c.1, { c.2 with
        slice := Mem.zero, side := Mem.zero, stop := none, stopAt := none, stopReq := false }),
      parts := img.parts.map fun p => (p.1, p.2.passCkpt) } })

/-- The checkpoint itself: the images, of every partition past its CKPT, written to the other bank, the interval closed and the next opened with an empty
log, and every CKPT tag set, in lockstep mode at its core's b' (R334). Kernels take the slots of the bank in ascending number; one beyond the sixteenth
has no place there (DESIGN CHOICE, assumption log 26). -/
def closeInterval (k : Nat) (s : State) : State :=
  let ks := s.runningKernels k
  let c := s.ctx k
  let bank := 1 - c.ck.bank
  let past := ks.foldl (fun t x => x.2.cores.foldl (fun t n => t.updParts n Part.passCkpt) t) s
  let t := (ks.zipIdx.filter fun x => decide (x.2 < 16)).foldl
    (fun t x => writeImage past x.1.2 (s.bankAt k bank x.2) true t) s
  let t := t.updCtx k fun c =>
    { c with ck := { c.ck with interval := (c.ck.interval + 1) % 2 ^ 32, valid := true, bank := bank, used := 0,
                               logged := [], ovf := false, short := false, kernels := s.ckptKernels k } }
  ks.foldl (fun t x => x.2.cores.foldl (fun t n =>
    if (t.core n).stop.isSome && c.lock then t.updCore n fun c =>
      { c with stop := c.stop.map fun h => { h with resume := if h.quiet then some 1 else h.resume, ckpt := true } }
    else t.updParts n Part.passCkpt) t) t

/-- The partitions of a context that have arrived and are not counted yet. -/
def State.newArrivals (s : State) (k : Nat) : List Nat :=
  ((s.runningKernels k).flatMap fun x => x.2.cores.flatMap partsOf).filter fun p =>
    s.ckptArrived p && (s.part p).cmds.any fun c => c.kind == .ckpt && c.rows == 0

/-- Their arrivals counted. -/
def countArrivals (ps : List Nat) (s : State) : State :=
  ps.foldl (fun s p => s.updPart p fun x =>
    { x with cmds := x.cmds.map fun c => if c.kind = .ckpt then { c with rows := 1 } else c }) s

/-- Arrivals counted, and the CYCLE of the last one's core kept. -/
def noteArrivals (k : Nat) (s : State) : State :=
  match (s.newArrivals k).getLast? with
  | none => s
  | some p => (countArrivals (s.newArrivals k) s).updCtx k fun c => { c with ck := { c.ck with last := (s.core (p / 4)).cycle } }

/-- CHECKPOINT_COMPLETE: arrivals are counted; after the last, in lockstep mode, the cores of the context's kernels are
told to stop 256 clocks after it, each counted in its own CYCLE; one that is past that count stops at its next boundary
(DEDUCED, assumption log 27). In either mode the writing of the images ends at a free clock. -/
def execCheckpointComplete (k : Nat) (s : State) : Out :=
  let t := noteArrivals k s
  let cores := (t.runningKernels k).flatMap fun x => x.2.cores
  let write := fun (t : State) => let r := t.draw 2; if r.1 = 0 then r.2 else closeInterval k r.2
  .next (if !t.ckptReady k then t
    else if !(t.ctx k).lock || cores.all (fun n => (t.core n).stop.isSome) then write t
    else if cores.any fun n => (t.core n).stopAt.isSome || (t.core n).stop.isSome then t
    else
      let cyc := (t.ctx k).ck.last
      cores.foldl (fun t n => t.updCore n fun c => { c with stopAt := some (max (cyc + 256) (c.cycle + 1)) }) t)

end Sys2Proof.Machine
end

