-- ==== Sys2Proof/Machine/Errors.lean ====
section
/-!
DEFINITION. Memory errors and what they do (R336, R349, R355 to R357, R368, R382), the record of them, and the translation
invalidation of R338.
-/

namespace Sys2Proof.Machine

/-! ### The memory-error block (R356) -/

def MemErr.fresh : MemErr := ⟨[], 0, 0, 0⟩
def State.errBlock (s : State) (die : Nat) : MemErr := Cells.get MemErr.fresh die s.memerr
def State.updErr (s : State) (die : Nat) (f : MemErr → MemErr) : State :=
  { s with memerr := Cells.put die (f (s.errBlock die)) s.memerr }

/-- A corrected error counted in its class, saturating. -/
def countCorrected (die cls : Nat) (s : State) : State :=
  s.updErr die fun e =>
    let n := Cells.get 0 cls e.cecnt
    { e with cecnt := Cells.put cls (if n = BitVec.allOnes 64 then n else n + 1) e.cecnt }

/-- CORRECTED_ERROR: corrected on the read path, no value and no clock changed, and counted (R355, R356). -/
def execCorrectedError (die cls : Nat) (s : State) : Out := .next (if cls ≤ 5 then countCorrected die cls s else s)

/-- SCRUB_ROW: a scrub delays no access and changes no value (R355); a row it corrects is a CORRECTED_ERROR. -/
def execScrubRow (_n _bg : Nat) (s : State) : Out := .next s

/-- An error beyond correction recorded (R356): the first after the record was armed fills it; every one is counted and
raises interrupt 4. ctx is the owner, where there is one; of device memory the address is that of the beat. -/
def recordError (die cls : Nat) (ctx : Option Nat) (a : Nat) (s : State) : State :=
  let t := s.updErr die fun e =>
    let first := !e.uestat.getLsbD 0
    { e with
      uestat := if first then BitVec.ofNat 64 (1 + 2 * cls + 16 * ctx.getD 0 + 2 ^ 8 * b2n ctx.isSome) else e.uestat,
      ueaddr := if first then BitVec.ofNat 64 (if cls = 4 then a / 64 * 64 else if cls = 0 then a else 0) else e.ueaddr,
      uecnt := e.uecnt + 1 }
  t.raise 4

/-- UESTAT_WRITE: writing 1 to VALID clears the record and arms it (R356). -/
def execUestatWrite (die v : Nat) (s : State) : Out :=
  .next (if Sys2Proof.bit v 0 then s.updErr die fun e => { e with uestat := 0, ueaddr := 0 } else s)

/-- CKST_WRITE: OVF, RBK and LOST clear where 1 is written (R327). -/
def execCkstWrite (k v : Nat) (s : State) : Out :=
  .next (s.updCtx k fun c => { c with ck := { c.ck with
    ovf := c.ck.ovf && !Sys2Proof.bit v 33, rbk := c.ck.rbk && !Sys2Proof.bit v 34,
    lost := c.ck.lost && !Sys2Proof.bit v 35 } })

/-! ### Rollback (R335, R336) -/

/-- The logged entries restored in turn from the log memory: keys oldest first, each at its place in the log. -/
def restoreLog (base : Nat) : Nat → List (Option Nat × Nat) → State → State
  | _, [], s => s
  | used, key :: r, s =>
    let a := base + used + 64
    match key.1 with
    | none => restoreLog base (used + 128) r { s with hbm := s.hbm.writeBytes (64 * key.2) (s.hbm.bytes a 64) }
    | some n => restoreLog base (used + 320) r
        (s.updCore n fun c => { c with slice := c.slice.writeBytes (256 * key.2) (s.hbm.bytes a 256) })

/-- The packets of dropped kernels are live no more. -/
def forgetPackets (ks : List Kernel) (s : State) : State :=
  ks.foldl (fun s k => s.updQueue k.queue fun q => { q with live := q.live.filter fun i => i != k.index }) s

/-- The kernels of a context stop, and what they had in flight is discarded (R336). -/
def dropKernels (k : Nat) (s : State) : State :=
  let ks := (s.kernels.filter fun x => x.2.ctx == k && x.2.stage != .waiting && x.2.stage != .marker).map Prod.snd
  let t := forgetPackets ks ((ks.filter fun x => x.stage != .preempted && x.stage != .ending).foldl (fun s x => vacate x s) s)
  let cores := ks.flatMap Kernel.cores
  { t with kernels := t.kernels.filter fun x => !(x.2.ctx == k && x.2.stage != .waiting && x.2.stage != .marker),
           trpend := t.trpend.filter fun n => !cores.contains n,
           gathers := t.gathers.filter fun g => g.ctx != k }

/-- A kernel of the checkpoint runs again from its image: every partition after its CKPT, its cores issuing together from the
next clock. -/
def restoreKernel (s : State) (x : (Nat × Kernel) × Nat) : State :=
  let j := x.2
  let x := x.1
  match x.2.image with
  | none => s
  | some img =>
    let c := x.2.ctx
    let t := restoreImage x.1 x.2 img (if j < 16 then some (s.bankAt c (s.ctx c).ck.bank j) else none) false s
    let t := x.2.cores.foldl (fun t n => t.updCore n fun c => { c with stop := some ⟨c.cycle, some 1, true, none, false, 0, true, false⟩ }) t
    let t := { t with kernels := Cells.put x.1 { x.2 with image := none, stage := .running } t.kernels }
    t.updQueue x.2.queue fun q => { q with live := if q.live.contains x.2.index then q.live else x.2.index :: q.live }

/-- An error beyond correction in state that context k owns: its kernels go back to the checkpoint, or end with their
completion words unwritten (R336). A kernel begun since the checkpoint ends likewise (DEDUCED, assumption log 28). -/
def loseContext (k : Nat) (s : State) : State :=
  let c := (s.ctx k).ck
  let t := dropKernels k s
  if c.valid && !c.ovf && !c.short then
    let u := restoreLog (Sys2Proof.fld (s.ctx k).logbase.toNat 12 40 * 4096) 0 c.logged.reverse t
    (c.kernels.zipIdx.foldl restoreKernel u).updCtx k fun c => { c with ck := { c.ck with rbk := true } }
  else t.updCtx k fun c => { c with ck := { c.ck with lost := true } }

/-- UNCORRECTABLE_ERROR: an error that one re-read has not removed, in state that context k owns (R336, R349, R355). -/
def execUncorrectableError (die cls k a : Nat) (s : State) : Out :=
  .next (loseContext k (recordError die cls (some k) a s))

def State.activeCtxs (s : State) : List Nat := (List.range 16).filter fun k => (s.ctx k).active

/-- SUPPLY_TRIP: an error beyond correction in every context (R382). -/
def execSupplyTrip (s : State) : Out := .next (s.activeCtxs.foldl (fun s k => loseContext k s) s)

/-! ### Links (R357, R368) -/

/-- Do the clusters or pages of a context lie on both dies (R357)? -/
def State.spansDies (s : State) (k : Nat) : Bool :=
  let on := fun d => (List.range 10).any (fun c => Sys2Proof.bit (s.ctx k).clmask (10 * d + c)) ||
    s.hasPage k (fun pa bits => hbmDie pa == d || hbmDie (pa + 2 ^ bits - 1) == d)
  on 0 && on 1

/-- RIDAR_FLIT_FAILURE: an error of class 5 on both dies, and every context on both is handled under R336 (R357). -/
def execRidarFlitFailure (s : State) : Out :=
  let ks := s.activeCtxs.filter s.spansDies
  let t := recordError 1 5 ks.head? 0 (recordError 0 5 ks.head? 0 s)
  .next (ks.foldl (fun s k => loseContext k s) t)

/-- A dead flow (R368): its frames go no further, and its context's kernels are handled under R336. Writes not
acknowledged may or may not have reached their owners: each is made or not, freely, and what an atomic has left is free. A hart that
waits for a value takes an access fault (DEDUCED, assumption log 38). -/
def killFlow (k peer : Nat) (s : State) : State :=
  let outs := (s.flow k peer).out
  let t := outs.foldl (fun s o =>
    let r := s.draw 2
    let t := match r.1, o.frame.kind with
      | 1, .write => r.2.wr none none (.peer peer) o.frame.addr o.frame.data
      | 1, .atomic _ eight =>
        let f := r.2.newFill
        f.2.wr none none (.peer peer) o.frame.addr
          ((List.range (if eight then 8 else 4)).map fun i => Config.freeByte f.1 (o.frame.addr + i))
      | _, _ => r.2
    match o.hart with
    | some x => if x.2 = .store then t
        else { t with hartErr := Cells.put x.1 ((hartPa (.peer peer) o.frame.addr).getD 0, false) t.hartErr }
    | none => t) s
  let u := t.updFlow k peer fun f => { f with dead := true, out := [] }
  (if k < 16 then loseContext k u else u).raise 6

/-! ### Translation invalidation (R338) -/

def tlbVpn (v : Nat) : Nat := Sys2Proof.fld v 12 44
def tlbCtx (v : Nat) : Nat := Sys2Proof.fld v 56 4

/-- Does an invalidation cover an entry? -/
def tlbHit (v : Nat) (e : TlbEntry) : Bool :=
  e.ctx == tlbCtx v && (Sys2Proof.bit v 60 || e.covers (tlbCtx v) (tlbVpn v * 4096))

/-- TLBINV_WRITE: an invalidation starts, and BUSY is set until every core has made it, and every other under way, after a time
that the spec does not give. -/
def execTlbinvWrite (v : Nat) (s : State) : Out :=
  let r := s.draw (2 ^ 32)
  let w := Sys2Proof.fld v 12 49 * 2 ^ 12
  .next { r.2 with tlbinv := BitVec.ofNat 64 w, tlbJobs := s.tlbJobs ++ [(w, r.1 + 1)] }

/-- TLB_INVALIDATION_DONE: the invalidations whose time has run out are complete: no buffer holds an entry that one of them
covers. -/
def execTlbInvalidationDone (s : State) : Out :=
  let done := s.tlbJobs.filter fun j => j.2 == 0
  let drop := fun (l : List TlbEntry) => l.filter fun e => !done.any fun j => tlbHit j.1 e
  .next { s with
    tlbJobs := s.tlbJobs.filter fun j => j.2 != 0,
    cores := s.cores.map fun c => (c.1, { c.2 with tlb := drop c.2.tlb }),
    dieTlb := s.dieTlb.map fun d => (d.1, drop d.2) }

end Sys2Proof.Machine
end

