-- ==== Sys2Proof/Machine/Registers.lean ====
section
/-!
DEFINITION. The device register space (R287, R327, R328, R356, R359, R361, R363, R366, R372, R376, R379): where each
register lies, what it reads as, and what a write does. Requesters are numbered as OWNER numbers them (R372): 1 port 0,
2 port 1, 3 the system cores.
-/

namespace Sys2Proof.Machine

/-! ### Where registers lie -/

/-- The registers of R361's blocks. -/
inductive DevReg where
  | ctxbase | qtbase | ctxen | ctxst
  | ctxseed (k : Nat) | qnotify (q : Nat)
  | mapOut (c : Nat) | mapRow (n : Nat) | repair
  | devid | fgbase | cgbase (k : Nat) | window (i : Nat) | pcfg (p : Nat)
  | msem (k : Nat) | glimit (c : Nat)
  | cecnt (die k : Nat) | uestat (die : Nat) | ueaddr (die : Nat) | uecnt (die : Nat)
  | iroute (i : Nat) | mailbox (a : Nat) | mailcmd
  | frec (p w : Nat) | corectl (n : Nat) | trpend (j : Nat)
  | savebase (k : Nat) | ckbase (k : Nat) | logbase (k : Nat) | logsize (k : Nat) | ckst (k : Nat)
  | tlbinv | snap (p i w : Nat)
deriving DecidableEq, Repr

def regBase : Nat := 0xFF00000000000

/-- A register of an array of n registers from an offset. -/
def arr (a base n : Nat) (f : Nat → DevReg) : Option DevReg :=
  if base ≤ a ∧ a < base + 8 * n then some (f ((a - base) / 8)) else none

/-- One register at an offset. -/
def one (a at_ : Nat) (r : DevReg) : Option DevReg := if a = at_ then some r else none

/-- The register at an offset in the dispatch block (R287). -/
def dispatchReg (a : Nat) : Option DevReg :=
  one a 0x0 .ctxbase <|> one a 0x8 .qtbase <|> one a 0x10 .ctxen <|> one a 0x18 .ctxst
    <|> arr a 0x100 16 .ctxseed <|> arr a 0x1000 1024 .qnotify

/-- … in the map block (R359). -/
def mapReg (a : Nat) : Option DevReg := arr a 0 20 .mapOut <|> arr a 0x100 320 .mapRow <|> one a 0xC00 .repair

/-- … in the fabric block (R366). -/
def fabricReg (a : Nat) : Option DevReg :=
  one a 0 .devid <|> one a 8 .fgbase <|> arr a 0x10 16 .cgbase <|> arr a 0x100 64 .window <|> arr a 0x400 12 .pcfg

/-- … in a die's memory-error block (R356). -/
def errorReg (die a : Nat) : Option DevReg :=
  arr a 0 6 (.cecnt die) <|> one a 0x40 (.uestat die) <|> one a 0x48 (.ueaddr die) <|> one a 0x50 (.uecnt die)

/-- … in the mailbox (R376): the command register stands within the buffer's 4 KiB. -/
def mailReg (a : Nat) : Option DevReg :=
  if a = 0xF00 then some .mailcmd else if a < 0x1000 then some (.mailbox a) else none

/-- … in the trap block (R327). -/
def trapReg (a : Nat) : Option DevReg :=
  arr a 0 (8 * 1280) (fun i => .frec (i / 8) (i % 8)) <|> arr a 0x14000 320 .corectl <|> arr a 0x16000 5 .trpend
    <|> arr a 0x16100 16 .savebase <|> arr a 0x16200 16 .ckbase <|> arr a 0x16300 16 .logbase
    <|> arr a 0x16400 16 .logsize <|> arr a 0x16500 16 .ckst <|> one a 0x16600 .tlbinv
    <|> if 0x100000 ≤ a ∧ a < 0x100000 + 16384 * 1280 then
      (let b := a - 0x100000
       if b % 16384 < 256 * 48 then some (.snap (b / 16384) (b % 16384 / 256) (b % 256 / 8)) else none)
    else none

/-- The register at a physical address; none where no block lists one (R361). -/
def regOf (pa : Nat) : Option DevReg :=
  let o := pa - regBase
  if pa < regBase then none
  else if 0x1000000 ≤ o then trapReg (o - 0x1000000)
  else
    let a := o % 0x10000
    match o / 0x10000 with
    | 0 => dispatchReg a
    | 1 => mapReg a
    | 2 => fabricReg a
    | 3 => arr a 0 16 .msem
    | 4 => arr a 0x80 10 .glimit
    | 5 => arr a 0x80 10 fun c => .glimit (c + 10)
    | 6 => if a < 0x1000 then errorReg 0 a else if a < 0x2000 then errorReg 1 (a - 0x1000) else none
    | 7 => arr a 8 9 fun i => .iroute (i + 1)
    | 8 => mailReg a
    | _ => none

/-! ### Reads -/

/-- The parts of v that lie in the listed fields (lowest bit, width). -/
def keep (v : Nat) (fs : List (Nat × Nat)) : Nat := (fs.map fun f => Sys2Proof.fld v f.1 f.2 * 2 ^ f.1).sum

def packBits (n : Nat) (f : Nat → Bool) : Nat := packNat 1 ((List.range n).map fun k => b2n (f k))

/-- STATE of CORECTL (R328): a resumption under way reads as running (DEDUCED, assumption log 29). -/
def State.stateField (s : State) (n : Nat) : Nat :=
  match (s.core n).stop with
  | none => 0
  | some h => if h.active then 2 else if h.resume.isSome then 0 else 1

def State.corectlOf (s : State) (n : Nat) : Nat :=
  let c := (s.core n).ctl
  c.q * 2 ^ 3 + b2n c.hhalf * 2 ^ 5 + c.hpc * 2 ^ 6 + c.hrofs * 2 ^ 23 + s.stateField n * 2 ^ 46 + b2n c.err * 2 ^ 48

def MSem.fresh : MSem := ⟨0, 0, false⟩
def State.sem (s : State) (k : Nat) : MSem := Cells.get MSem.fresh k s.msem

/-- What a register reads as. -/
def State.regRead (s : State) (r : DevReg) : Nat :=
  match r with
  | .ctxbase => s.ctxbase.toNat
  | .qtbase => s.qtbase.toNat
  | .ctxen => if s.stalled then 0 else s.ctxen.toNat
  | .ctxst => packBits 16 (fun k => (s.ctx k).active) + 2 ^ 16 * s.ctxerr.toNat + 2 ^ 32 * s.ctxovr.toNat
  | .ctxseed k => (s.ctx k).seed.toNat
  | .qnotify q => ((s.uqueue q).widx.getD 0).toNat
  | .mapOut c => (s.cluster c).out + 2 ^ 5 * b2n (s.cluster c).dead
  | .mapRow n => ((List.range 8).map fun b => Cells.get 16 b (s.core n).outrow * 2 ^ (5 * b)).sum
  | .repair => s.repair.word.toNat + 2 ^ 62 * b2n s.repair.left.isSome + 2 ^ 63 * b2n s.repair.err
  | .devid => s.devid.toNat
  | .fgbase => s.fgbase.toNat
  | .cgbase k => (s.ctx k).cgbase.toNat
  | .window i => (Cells.get 0 (i % 4) (s.ctx (i / 4)).windows).toNat
  | .pcfg p => s.pcfgOf p
  | .msem k => (s.sem k).owner + 2 ^ 4 * (((s.sem k).lease + 2 ^ 20 - 1) / 2 ^ 20) + 2 ^ 20 * b2n (s.sem k).err
  | .glimit c => (s.cluster c).glimit
  | .cecnt d k => (Cells.get 0 k (s.errBlock d).cecnt).toNat
  | .uestat d => (s.errBlock d).uestat.toNat
  | .ueaddr d => (s.errBlock d).ueaddr.toNat
  | .uecnt d => (s.errBlock d).uecnt.toNat
  | .iroute i => (Cells.get 0 i s.iroute).toNat
  | .mailbox a => s.amvin.mailbox.readN a 8
  | .mailcmd => 0
  | .frec p w => (Cells.get 0 w (s.part p).frec).toNat
  | .corectl n => s.corectlOf n
  | .trpend j => packBits 64 fun i => s.trpend.contains (64 * j + i)
  | .savebase k => (s.ctx k).savebase.toNat
  | .ckbase k => (s.ctx k).ckbase.toNat
  | .logbase k => (s.ctx k).logbase.toNat
  | .logsize k => (s.ctx k).logsize.toNat
  | .ckst k =>
    let c := (s.ctx k).ck
    c.interval + 2 ^ 32 * b2n c.valid + 2 ^ 33 * b2n c.ovf + 2 ^ 34 * b2n c.rbk + 2 ^ 35 * b2n c.lost
  | .tlbinv => s.tlbinv.toNat + 2 ^ 61 * b2n (!s.tlbJobs.isEmpty)
  | .snap p i w => match (s.part p).snap[i]? with
    | none => 0
    | some e => bytesAt e.bytes (8 * w) 8

/-- The value that a read of a register address returns (R361). -/
def State.regValue (s : State) (pa : Nat) : Nat :=
  match regOf pa with
  | none => 0
  | some r => s.regRead r

/-! ### Writes -/

/-- Does a requester hold management semaphore k (R372)? -/
def State.holds (s : State) (who k : Nat) : Bool := who != 0 && (s.sem k).owner == who

/-- Steps that a write brings about on this clock. -/
def State.next (n : Nat) (ops : List Instr) (s : State) : State :=
  { s with agenda := ops.map (fun i => ⟨n, i⟩) ++ s.agenda }

/-- A step that a write brings about d clocks later. -/
def State.later (d : Nat) (i : Instr) (s : State) : State := { s with inbox := s.inbox ++ [(s.clock + d, i)] }

/-- A write to CORECTL (R328): ERR clears where 1 is written; a reserved value or operation is refused; else the fields
are written, and RESUME or HENTER follows. -/
def writeCorectl (n v : Nat) (s : State) : State :=
  let op := v % 2 ^ 3
  let s := if Sys2Proof.bit v 48 then s.updCore n fun c => { c with ctl := { c.ctl with err := false } } else s
  if !ctlOk v || 2 < op then refuse n s
  else
    let set := fun (s : State) => s.updCore n fun c => { c with ctl := ctlFields v c.ctl.err }
    if op = 0 then set s
    else if op = 1 then (if s.stopped n then set s else s).next n [.corectlResume n]
    else s.next n [.corectlHenter n v]

/-- A write to a management semaphore. Its requests are taken at the end of the management clock, which is 24 core clocks, in the
order port 0, port 1, system cores (R372; DEDUCED, assumption log 104). -/
def writeMsem (who k v : Nat) (s : State) : State :=
  let t := if Sys2Proof.bit v 20 then { s with msem := Cells.put k { s.sem k with err := false } s.msem } else s
  ((if Sys2Proof.bit v 2 then [Instr.msemAcquire who k (Sys2Proof.fld v 4 16)] else [])
    ++ if Sys2Proof.bit v 3 then [Instr.msemRelease who k] else []).foldl (fun t i => t.later (23 - t.clock % 24) i) t

/-- The step that a repair request is (R359). -/
def repairStep (v : Nat) : Option Instr :=
  match v % 2 ^ 3 with
  | 1 => some (.retireCore (Sys2Proof.fld v 3 5) (Sys2Proof.fld v 8 5))
  | 2 => some (.retireRow (Sys2Proof.fld v 13 9) (Sys2Proof.fld v 22 3) (Sys2Proof.fld v 25 5))
  | 3 => some (.retireCluster (Sys2Proof.fld v 3 5))
  | _ => none

/-- A write to REPAIR (R359, R360): ignored unless from a holder of semaphore 1. With OP 0 its fields are written. A request is
settled after the placements of its clock, which take the cluster first; one that is refused changes only ERR. -/
def writeRepair (who v : Nat) (s : State) : State :=
  if !s.holds who 1 then s
  else
    let t := if Sys2Proof.bit v 63 then { s with repair := { s.repair with err := false } } else s
    if v % 2 ^ 3 = 0 then { t with repair := { t.repair with word := BitVec.ofNat 64 (v % 2 ^ 30) } }
    else match repairStep v with
      | none => { t with repair := { t.repair with err := true } }
      | some i => { t with repair := { t.repair with asked := t.repair.asked ++ [v % 2 ^ 30] } }.later 0 i

/-- CTXEN written: every bit set or cleared, and a stopped dispatch unit starts again (R286, R369). -/
def writeCtxen (v : Nat) (s : State) : State :=
  (s.restart v).next 0
    ((List.range 16).map fun k => if Sys2Proof.bit v k then .ctxenSet k else .ctxenClear k)

/-- The mailbox command that a value of the command register gives: a free choice, since the spec gives the commands and
not their codes (assumption log 30). -/
def mailStep (who v : Nat) : List Instr :=
  match Config.mailCommand v with
  | 0 => [.mailboxWriteFlashBlock who (Config.mailArgument v)]
  | 1 => [.mailboxReadFlashBlock who (Config.mailArgument v)]
  | 2 => [.mailboxReadMeasurement who (Config.mailArgument v)]
  | 3 => [.mailboxAdvanceCounter who]
  | _ => []

def word64 (v : Nat) : W64 := BitVec.ofNat 64 v

/-- What a write of v to a register does. -/
def State.regWrite (who : Nat) (r : DevReg) (v : Nat) (s : State) : State :=
  match r with
  | .ctxbase => { s with ctxbase := word64 (keep v [(6, 46)]) }
  | .qtbase => { s with qtbase := word64 (keep v [(5, 47)]) }
  | .ctxen => writeCtxen v s
  | .ctxst => s.next 0 [.ctxstWrite v]
  | .ctxseed k => s.later 1 (.ctxseedWrite k v)
  | .qnotify q => s.later 1 (.qnotifyWrite q v)
  | .repair => writeRepair who v s
  | .devid => if s.holds who 3 then { s with devid := word64 (keep v [(0, 12)]) } else s
  | .fgbase => if s.holds who 3 then { s with fgbase := word64 (keep v [(12, 40)]) } else s
  | .cgbase k => s.updCtx k fun c => { c with cgbase := word64 (keep v [(19, 33)]) }
  | .window i => s.updCtx (i / 4) fun c =>
      { c with windows := Cells.put (i % 4) (word64 (keep v [(21, 31), (52, 7), (63, 1)])) c.windows }
  | .pcfg p => s.next 0 [.pcfgWrite who p v]
  | .msem k => writeMsem who k v s
  | .glimit c => s.next 0 [.glimitWrite who c v]
  | .cecnt d k => s.updErr d fun e => { e with cecnt := Cells.put k (Cells.get 0 k e.cecnt &&& ~~~(word64 v)) e.cecnt }
  | .uestat d => s.next 0 [.uestatWrite d v]
  | .uecnt d => s.updErr d fun e => { e with uecnt := e.uecnt &&& ~~~(word64 v) }
  | .iroute i => s.next 0 [.irouteWrite i v]
  | .mailbox a => { s with amvin := { s.amvin with mailbox := s.amvin.mailbox.writeN a 8 v } }
  | .mailcmd => s.next 0 (mailStep who v)
  | .corectl n => writeCorectl n v s
  | .savebase k => s.updCtx k fun c => { c with savebase := word64 (keep v [(37, 15), (0, 5)]) }
  | .ckbase k => s.updCtx k fun c => { c with ckbase := word64 (keep v [(38, 14)]) }
  | .logbase k => s.updCtx k fun c => { c with logbase := word64 (keep v [(12, 40)]) }
  | .logsize k => s.updCtx k fun c => { c with logsize := word64 (keep v [(0, 32)]) }
  | .ckst k => s.next 0 [.ckstWrite k v]
  | .tlbinv => s.next 0 [.tlbinvWrite v]
  | .mapOut _ | .mapRow _ | .ueaddr _ | .frec _ _ | .trpend _ | .snap _ _ _ => s

/-- REGISTER_WRITE: an aligned 8-byte write; a register with a behaviour of its own takes it, a read-only one or an offset that
no block lists ignores it (R361, R327, R287). -/
def execRegisterWrite (who pa v : Nat) (s : State) : Out :=
  .next (match regOf pa with
    | none => s
    | some r => s.regWrite who r v)

end Sys2Proof.Machine
end

