-- ==== Sys2Proof/Machine/Fabric.lean ====
section
/-!
DEFINITION. The fabric as frames reach the device (R316, R364 to R368): acceptance, delivery in sequence,
acknowledgements, resending, and the ports.
-/

namespace Sys2Proof.Machine

/-! ### Frames received (R365, R366) -/

/-- The group of rack-level scheduler nodes. -/
def schedGroup : Nat := 255

/-- Does a context's group mask name a device (R366)? -/
def State.inGroup (s : State) (group dev : Nat) : Bool :=
  (s.hbm.read (s.fgbase.toNat + 512 * group + dev / 8)).getLsbD (dev % 8)

def isWrite : Sys2Proof.FrameKind → Bool
  | .write => true
  | _ => false

def isRead : Sys2Proof.FrameKind → Bool
  | .read => true
  | _ => false

/-- Bytes that a frame touches at its address. -/
def frameSpan (f : Sys2Proof.Frame) : Nat :=
  match f.kind with
  | .atomic _ eight => if eight then 8 else 4
  | _ => f.data.length

/-- Does a window take a frame (R366)? -/
def windowTakes (w : W64) (f : Sys2Proof.Frame) : Bool :=
  let v := w.toNat
  let base := Sys2Proof.fld v 21 31 * 2 ^ 21
  let lsz := Sys2Proof.fld v 52 5
  Sys2Proof.bit v 63 && decide (21 ≤ lsz) && decide (lsz ≤ 38)
    && decide (base ≤ f.addr) && decide (f.addr + frameSpan f ≤ base + 2 ^ lsz) && decide (f.addr + frameSpan f ≤ hbmSize)
    && (isRead f.kind || Sys2Proof.bit v 57) && (f.group != schedGroup || Sys2Proof.bit v 58)

/-- The queue whose QNOTIFY a scheduler's frame writes (R316, R366). -/
def notifyQueue (f : Sys2Proof.Frame) : Option Nat :=
  let b := 0x7F00001000
  if f.group = schedGroup && isWrite f.kind && decide (b ≤ f.addr) && decide (f.addr < b + 8 * 1024) && f.addr % 8 == 0
    then some ((f.addr - b) / 8) else none

/-- Is a frame accepted (R366)? A contribution to a collective names no memory address: any enabled window that permits writes
takes it (DEDUCED, assumption log 20). -/
def State.accepts (s : State) (f : Sys2Proof.Frame) : Bool :=
  let c := s.ctx f.ctx
  let member := f.group == schedGroup || (f.group == c.fgrp && s.inGroup f.group f.src)
  c.active && member && match f.kind with
    | .collective .. => f.group != schedGroup && (List.range 4).any fun w =>
        (Cells.get 0 w c.windows).getLsbD 63 && (Cells.get 0 w c.windows).getLsbD 57
    | _ => (notifyQueue f).isSome || (List.range 4).any fun w => windowTakes (Cells.get 0 w c.windows) f

/-- A frame's effect at its owner, and the bytes that its answer carries. A contribution's address carries its member and
BYTES (PRESUMED, assumption log 20). -/
def applyFrame (f : Sys2Proof.Frame) (s : State) : List W8 × State :=
  match f.kind, notifyQueue f with
  | .write, some q => ([], s.later 1 (.qnotifyWrite q (joinBytes (f.data.take 8))))
  | .write, none => ([], s.wr (some f.ctx) none .hbm f.addr f.data)
  | .read, _ => (s.rd .hbm f.addr f.data.length, s)
  | .atomic op eight, _ =>
    let n := if eight then 8 else 4
    let old := s.rd .hbm f.addr n
    (old, s.wr (some f.ctx) none .hbm f.addr
      (splitBytes (atomicNew op (8 * n) (joinBytes old) (joinBytes (f.data.take n))) n))
  | .collective grp rank row, _ =>
    ([], { s with gathers := s.gathers ++
      [⟨f.ctx, grp, rank, f.addr % 2 ^ 11, row, f.addr / 2 ^ 11, f.data, some (f.src, f.seq)⟩] })

/-- The clock from which the answer to an accepted frame may go: when every write it carries has been applied (R365). A QNOTIFY is
written on the next clock, a contribution when it lands. -/
def answerFrom (f : Sys2Proof.Frame) (clock : Nat) : Option Nat :=
  match f.kind with
  | .collective .. => none
  | _ => some (if (notifyQueue f).isSome then clock + 1 else clock)

/-- Does a frame meet a tile that a committing transaction holds (R261)? -/
def State.frameWaits (s : State) (f : Sys2Proof.Frame) : Bool :=
  match f.kind with
  | .collective .. => false
  | _ => (notifyQueue f).isNone && s.accepts f && s.heldAt .hbm f.addr (frameSpan f)

/-- The frame next in sequence delivered or refused, and answered when it may be. -/
def deliver (f : Sys2Proof.Frame) (s : State) : State :=
  let r := if s.accepts f then (true, applyFrame f s) else (false, [], s)
  let a : AckOut := ⟨f.ctx, f.src, f.seq, !r.1, r.2.1⟩
  (r.2.2.updFlow f.ctx f.src fun x =>
    { x with expect := (x.expect + 1) % 2 ^ 32, early := x.early.filter fun g => g.seq != f.seq,
             owed := x.owed ++ [(a, if r.1 then answerFrom f s.clock else some s.clock)] }).answer

/-- The frame of a flow that is held and next in sequence. -/
def Flow.next (x : Flow) : Option Sys2Proof.Frame := x.early.find? fun f => f.seq == x.expect

/-- The frames held early that have become next, in turn. -/
def deliverHeld : Nat → Nat → Nat → State → State
  | 0, _, _, s => s
  | n + 1, k, peer, s => match (s.flow k peer).next with
    | none => s
    | some f => if s.frameWaits f then s else deliverHeld n k peer (deliver f s)

/-- FRAME_RECEIVE: a frame in sequence is delivered, and those held behind it; an early one is held, as one is that meets a held
tile, and a duplicate is discarded (R261, R365). -/
def execFrameReceive (f : Sys2Proof.Frame) (s : State) : Out :=
  let x := s.flow f.ctx f.src
  let ahead := (f.seq + 2 ^ 32 - x.expect) % 2 ^ 32
  .next (if ahead = 0 && !s.frameWaits f then
      let t := deliver f s
      deliverHeld (t.flow f.ctx f.src).early.length f.ctx f.src t
    else if ahead < 2 ^ 31 && !(x.early.any fun g => g.seq == f.seq) then
      s.updFlow f.ctx f.src fun x => { x with early := x.early ++ [f] }
    else s)

/-! ### Acknowledgements (R365, R366) -/

/-- The virtual address through which a command reaches a byte of a peer: from the translations it holds. -/
def Cmd.peerVa (c : Cmd) (peer a : Nat) : Nat :=
  match c.pages.find? fun g => match g.2 with
    | .page (.peer d) pa bits _ => d == peer && decide ((pa + g.1 * 4096 % 2 ^ bits) / 4096 = a / 4096)
    | _ => false with
  | some g => g.1 * 4096 + a % 4096
  | none => a

/-- The translation fault of a refused frame: reason 11, at level 7 (R325, R366). -/
def refusalOf (va : Nat) (f : Sys2Proof.Frame) : LateFault := xlateFault va 7 (!isRead f.kind) 3

/-- What a command whose frame is refused still owes: of a collective the row, to the member that the frame's address names. -/
def Cmd.refused (c : Cmd) (f : Sys2Proof.Frame) (s : State) : Cmd :=
  match f.kind with
  | .collective _ _ row =>
    let m := ((c.members s).findIdx? fun m => m == (f.dst, f.addr % 2 ^ 11)).getD 0
    { c with owed := c.owed ++ [(m + 1024 * row, [])] }
  | _ => { c with sent := 0 }

/-- A refused frame: its command takes the translation fault, and still owes what the frame carried (R283, R366); a hart takes an
access fault (DEDUCED, assumption log 38). -/
def refuseFrame (o : OutFrame) (s : State) : State :=
  match o.cmd, o.post with
  | some (p, id), _ => match s.cmd p id with
    | none => s
    | some c => faultCmd (c.refused o.frame s) (refusalOf (c.peerVa o.frame.dst o.frame.addr) o.frame) s
  | none, some w => match (s.clusters.flatMap fun c => c.2.posted).find? fun x => x.id == w with
    | none => s
    | some x => match s.cmd x.gpi x.cmd with
      | none => s.unpost w
      | some c => faultCmd { c with owed := c.owed ++ [(x.va, x.data)], rows := c.rows - b2n x.last }
          (refusalOf x.va o.frame) (s.unpost w)
  | none, none => match o.hart with
    | some x => { s with hartErr := Cells.put x.1 ((hartPa (.peer o.frame.dst) o.frame.addr).getD 0, false) s.hartErr }
    | none => s

/-- FRAME_ACK_RECEIVE: an acknowledgement of flow fl up to a sequence number frees the frames it covers, and what waited for
them goes on; a refusal is that of the last of them (R365, R366). -/
def execFrameAckReceive (fl seq : Nat) (refused : Bool) (s : State) : Out :=
  .next (match s.flows[fl]? with
    | none => s
    | some x =>
      let covered := fun (o : OutFrame) => decide ((seq + 2 ^ 32 - o.frame.seq) % 2 ^ 32 < 2 ^ 31)
      let t := s.updFlow x.ctx x.peer fun x => { x with out := x.out.filter fun o => !covered o }
      (x.out.filter covered).foldl (fun t o => if refused && o.frame.seq == seq then refuseFrame o t else acked o t) t)

/-! ### Resending (R365, R368) -/

/-- The port of the next attempt: the same, or after each four failed attempts an up port of another plane, a free choice
among them. -/
def State.nextPort (s : State) (o : OutFrame) : Nat × State :=
  let others := s.upPorts.filter fun p => s.plane p != s.plane o.port
  if o.tries % 4 = 0 then
    let r := s.draw others.length
    ((others[r.1]?).getD o.port, r.2)
  else (o.port, s)

/-- One frame of a flow sent again. -/
def resend (k peer : Nat) (o : OutFrame) (s : State) : State :=
  let r := s.nextPort o
  r.2.updFlow k peer fun x => { x with out := x.out.map fun y =>
    if y.frame.seq = o.frame.seq then { y with port := r.1, tries := y.tries + 1, left := s.resendTime k } else y }

/-- FRAME_RESEND: the frames of flow fl whose time has run out are sent again; one that has failed 64 times makes the flow
dead. Of a flow with none, the event is the peer's word, as an input, that its end of the flow is dead, which this device's
kernels of the context meet as well (R368; DEDUCED, assumption log 102). -/
def execFrameResend (fl : Nat) (s : State) : Out :=
  .next (match s.flows[fl]? with
    | none => s
    | some x =>
      let due := x.out.filter fun o => o.left == 0
      if due.isEmpty || due.any fun o => decide (64 ≤ o.tries) then killFlow x.ctx x.peer s
      else due.foldl (fun s o => resend x.ctx x.peer o s) s)

/-! ### Ports (R364, R366) -/

/-- PCFG_WRITE: accepted from a holder of semaphore 3; a changed protocol or plane takes the port down, and the frames it
carried are sent again when their time runs out. -/
def execPcfgWrite (who port v : Nat) (s : State) : Out :=
  .next (if !s.holds who 3 then s
    else
      let g := s.pcfgOf port
      let proto := if v % 4 = 3 then g % 4 else v % 4
      let plane := Sys2Proof.fld v 2 2
      let same := proto == g % 4 && plane == Sys2Proof.fld g 2 2
      let rtc := (BitVec.ofNat 8 (Sys2Proof.fld g 8 8) &&& ~~~(BitVec.ofNat 8 (Sys2Proof.fld v 8 8))).toNat
      { s with pcfg := Cells.put port (BitVec.ofNat 64
          (proto + 4 * plane + 2 ^ 4 * b2n (same && Sys2Proof.bit g 4) + 2 ^ 8 * rtc)) s.pcfg })

/-- PORT_RETRAIN: the link of a port that has a protocol trains and carries frames; RTC counts it, saturating (DEDUCED of a
first training, assumption log 32). -/
def execPortRetrain (port : Nat) (s : State) : Out :=
  let g := s.pcfgOf port
  .next (if g % 4 = 0 then s
    else { s with pcfg := Cells.put port (BitVec.ofNat 64
      (g % 2 ^ 4 + 2 ^ 4 + 2 ^ 8 * min 255 (Sys2Proof.fld g 8 8 + 1))) s.pcfg })

end Sys2Proof.Machine
end

