-- ==== Sys2Proof/Machine/Board.lean ====
section
/-!
DEFINITION. The rest of the package (R268, R282, R342, R343, R358 to R363, R369 to R382): errors that no context owns, harts, storage, interrupts, management
ports and semaphores, the root-of-trust controller and boot, repair, and the current governor.
-/

namespace Sys2Proof.Machine

/-! ### Errors that no context owns (R369) -/

/-- The memories of a core zeroed. -/
def clearCore (s : State) (n : Nat) : State :=
  let old := s.core n
  (partsOf n).foldl (fun s p => s.setPart p (Part.initial 1)) (s.setCore n (({ Core.initial with tick := old.tick, lclk := old.lclk }).keep old))

def clusterCores (c : Nat) : List Nat := (List.range 16).map fun j => 16 * c + j

/-- The records of a partition that holds no kernel read as zero until a trap next writes them. -/
def zeroRecords (p : Nat) (s : State) : State :=
  if (s.core (p / 4)).kernel.isSome then s else s.updPart p fun x => { x with frec := [], snap := [] }

/-- A register of the trap block that no context owns reads as zero until it is next written: those of a core or partition that
holds no kernel, and those of a context that is not active. -/
def zeroTrapReg (r : DevReg) (s : State) : State :=
  let ofCtx := fun (k : Nat) (f : Context → Context) => if (s.ctx k).active then s else s.updCtx k f
  match r with
  | .frec p _ | .snap p _ _ => zeroRecords p s
  | .corectl n => if (s.core n).kernel.isSome then s else s.updCore n fun c => { c with ctl := ⟨0, false, 0, 0, false⟩ }
  | .trpend j => { s with trpend := s.trpend.filter fun n => n / 64 != j || (s.core n).kernel.isSome }
  | .savebase k => ofCtx k fun c => { c with savebase := 0 }
  | .ckbase k => ofCtx k fun c => { c with ckbase := 0 }
  | .logbase k => ofCtx k fun c => { c with logbase := 0 }
  | .logsize k => ofCtx k fun c => { c with logsize := 0 }
  | .ckst k => ofCtx k fun c => { c with ck := Context.initial.ck }
  | .tlbinv => { s with tlbinv := 0 }
  | _ => s

/-- UNOWNED_ERROR: w names the row of R369's table in its order and a what of it: 0 cluster a, cleared unless a kernel holds
or left it; 1 a buffer entry written before it is read; 2 the beat of device memory at a; 3 the dispatch unit; 4 the
records of partition a, which holds no kernel; 5 the flow numbered a, a frame of which is held; 6 the root-of-trust controller; 7 the
register at offset a of the trap block. -/
def execUnownedError (die cls w a : Nat) (s : State) : Out :=
  let t := recordError die cls none a s
  let keeps := fun (x : Nat × Kernel) => (x.2.stage == .preempted || x.2.stage == .running || x.2.stage == .stopping)
    && x.2.clusters.contains a
  .next (match w with
    | 0 => if t.kernels.any keeps then t
        else
          let r := t.draw 4096
          (clusterCores a).foldl clearCore (r.2.updCluster a fun c => { c with clearing := some (r.1 + 1) })
    | 2 => { t with badBeats := (a / 64) :: t.badBeats.filter fun b => b != a / 64 }
    | 3 => { t with stalled := true }
    | 4 => zeroRecords a t
    | 5 => match t.flows[a]? with
      | none => t
      | some f => killFlow f.ctx f.peer t
    | 6 => { t with amvin := { t.amvin with boot := .recovery } }
    | 7 => match trapReg a with
      | some r => zeroTrapReg r t
      | none => t
    | _ => t)

/-- CLUSTER_CLEAR_DONE: the zeroing ends and the cluster is free again (R369). -/
def execClusterClearDone (cl : Nat) (s : State) : Out :=
  .next (s.updCluster cl fun c => if c.clearing = some 0 then { c with clearing := none } else c)

/-! ### Writes by agents that name physical addresses -/

/-- A write of device memory by a hart or by storage, at its owner at once (R282). -/
def State.directWrite (a : Nat) (bs : List W8) (s : State) : State := s.wr none none .hbm a bs

/-! ### Interrupt routing (R363) -/

/-- IROUTE_WRITE: the entry is written; setting EN delivers an event that is held. -/
def execIrouteWrite (i v : Nat) (s : State) : Out :=
  let t := { s with iroute := Cells.put i (BitVec.ofNat 64 (v % 2 ^ 17)) s.iroute }
  .next (if Sys2Proof.bit v 16 && s.irqHeld.contains i
    then { t with irqHeld := t.irqHeld.filter fun j => j != i }.raise i else t)

/-! ### Harts (R282, R361) -/

/-- What a hart's physical address names. -/
inductive HartTarget where
  | memory (a : Nat)
  | peer (d a : Nat)
  | storage
  | registers
  | nothing
deriving DecidableEq, Repr

def hartTarget (pa : Nat) : HartTarget :=
  if pa < hbmSize then .memory pa
  else if pa < 0x8000000000000 then .nothing
  else if pa < 0xE000000000000 then .peer ((pa - 0x8000000000000) / hbmSize) ((pa - 0x8000000000000) % hbmSize)
  else if pa < 0xF000000000000 then .storage
  else if regBase ≤ pa ∧ pa < 2 ^ 52 then .registers
  else .nothing

/-- HART_REGISTER_ACCESS_FAULT: the hart takes an access fault at the address, and nothing else happens (R361). -/
def execHartRegisterAccessFault (h pa : Nat) (s : State) : Out := .next { s with hartErr := Cells.put h (pa, false) s.hartErr }

def hartFault (h pa : Nat) (s : State) : State := s.next 0 [.hartRegisterAccessFault h pa]

/-- A read that meets a beat beyond correction: an access fault with the hardware-error cause (R369). -/
def hartHardwareError (h pa : Nat) (s : State) : State := { s with hartErr := Cells.put h (pa, true) s.hartErr }

/-- Is an access a release at DEV, or wider (R282): .rl on what writes, .aqrl, or a FENCE with writes on both sides? -/
def releases (a : Sys2Proof.HartAccess) : Bool :=
  match a.op with
  | .store | .amo _ | .storeConditional => a.rl
  | .load | .loadReserved => a.aq && a.rl
  | .fence _ pw _ _ sw => pw && sw
  | .fenceI => false

/-- Does an access meet a beat beyond correction (R369)? -/
def State.meetsBad (s : State) (a n : Nat) : Bool := s.badBeats.any fun b => decide (a / 64 ≤ b) && decide (b ≤ (a + n - 1) / 64)

/-- Do accesses of a hart to peers await their acknowledgement (R282)? -/
def State.hartWaits (s : State) (h : Nat) : Bool :=
  s.flows.any fun f => f.out.any fun o => o.hart.any fun x => x.1 == h

/-- Does one of them return a value? The hart makes no other access before it has it (DEDUCED, assumption log 38). -/
def State.hartReads (s : State) (h : Nat) : Bool :=
  s.flows.any fun f => f.out.any fun o => o.hart.any fun x => x.1 == h && x.2 != .store

/-- A load, store or atomic in device memory, never through a posting buffer (R282). -/
def hartMemory (h : Nat) (x : Sys2Proof.HartAccess) (a : Nat) (s : State) : State :=
  hartPerform h x.op .hbm a x.pa x.size x.v (fun v t => t.directWrite a (splitBytes v x.size)) s

/-- The kind of the frame that carries an access of a hart to a peer (R365). -/
def hartFrame (x : Sys2Proof.HartAccess) : Sys2Proof.FrameKind :=
  match x.op with
  | .store | .storeConditional => .write
  | .amo op => .atomic op (x.size == 8)
  | _ => .read

/-- An access put off to the next clock, before the others of its hart. -/
def putOff (h : Nat) (x : Sys2Proof.HartAccess) (s : State) : State :=
  let mine := fun (i : Instr) => match i with
    | .hartMemoryAccess g _ => g == h
    | _ => false
  { s with inbox := (s.clock + 1, .hartMemoryAccess h x) ::
      s.inbox.map fun e => if mine e.2 && decide (e.1 ≤ s.clock) then (s.clock + 1, e.2) else e }

/-- An access of a hart to a peer goes out in a frame, and is made on its acknowledgement; a store-conditional without its reservation
fails at once (R282). -/
def hartPeer (h : Nat) (x : Sys2Proof.HartAccess) (d a : Nat) (s : State) : State :=
  if x.op = .storeConditional ∧ s.reserved h x.pa = false then hartReturn h 1 { s with resv := Cells.del h s.resv }
  else (s.sendFrame 16 d (hartFrame x) a (splitBytes x.v x.size) none none (some (h, x.op))).getD (putOff h x s)

/-- The posted writes of the whole device. -/
def State.allPosted (s : State) : List Nat := s.clusters.flatMap fun c => c.2.posted.map Posted.id

/-- The effect of an access that nothing holds. A FENCE that orders peer accesses waits for the acknowledgements of its hart's
(R282). -/
def hartAccess (h : Nat) (x : Sys2Proof.HartAccess) (s : State) : State :=
  if s.hartReads h then putOff h x s
  else match x.op with
  | .fence _ _ peer _ _ => if peer && s.hartWaits h then putOff h x s else s
  | .fenceI => s
  | _ =>
    let bad := match x.op with
      | .load | .loadReserved | .amo _ => true
      | _ => false
    match hartTarget x.pa with
    | .memory a =>
      if hbmSize < a + x.size then hartFault h x.pa s
      else if s.heldAt .hbm a x.size then putOff h x s
      else if bad && s.meetsBad a x.size then hartHardwareError h x.pa s
      else hartMemory h x a s
    | .peer d a =>
      if hbmSize < a + x.size then hartFault h x.pa s else hartPeer h x d a s
    | .storage => match x.op with
      | .store => s
      | _ => let r := s.draw (2 ^ (8 * x.size)); hartReturn h r.1 r.2
    | .registers =>
      if x.size ≠ 8 ∨ x.pa % 8 ≠ 0 then hartFault h x.pa s
      else match x.op with
        | .load => hartReturn h (s.regValue x.pa) s
        | .store => s.next 0 [.registerWrite 3 x.pa x.v]
        | _ => hartFault h x.pa s
    | .nothing => hartFault h x.pa s

/-- HART_MEMORY_ACCESS: a released hart's access. A release first waits until every write that the posting buffers held when it
came has reached its owner (R274 (b), R282). -/
def execHartMemoryAccess (h : Nat) (a : Sys2Proof.HartAccess) (s : State) : Out :=
  let now := s.allPosted
  let gate := match Cells.has h s.hartGate, releases a with
    | true, _ => (Cells.get [] h s.hartGate).filter now.contains
    | false, true => now
    | false, false => []
  .next (if !s.amvin.released then s
    else if gate.isEmpty then hartAccess h a { s with hartGate := Cells.del h s.hartGate }
    else putOff h a { s with hartGate := Cells.put h gate s.hartGate })

/-- STORAGE_DMA_ACCESS: 8 bytes of device memory read or written; a request elsewhere reaches nothing (R361), nor does one before
the first image is verified (R373). -/
def execStorageDmaAccess (wr : Bool) (pa v : Nat) (s : State) : Out :=
  .next (if s.amvin.boot != .off && wr && decide (pa + 8 ≤ hbmSize) then s.directWrite pa (splitBytes v 8) else s)

/-! ### Management ports and semaphores (R370 to R372) -/

/-- The registers that a management port reaches: every one once the device runs; in recovery state semaphore 0 and the mailbox,
by which its holder writes a new image (R375; DEDUCED, assumption log 106); before the first image is verified, none (R373). -/
def State.portReaches (s : State) (pa : Nat) : Bool :=
  match s.amvin.boot with
  | .off => false
  | .running => true
  | .recovery => pa == regBase + 0x30000 || (decide (regBase + 0x80000 ≤ pa) && decide (pa < regBase + 0x81000))

/-- MGMT_REQUEST: inside a session one register is read or written, port 0 as requester 1 and port 1 as requester 2; anything
else is refused with no effect (R370, R371, R373, R375). -/
def execMgmtRequest (port : Nat) (session wr : Bool) (pa v : Nat) (s : State) : Out :=
  .next (if !session || !s.portReaches pa || hartTarget pa != .registers || pa % 8 != 0 then s
    else if wr then s.next 0 [.registerWrite (port + 1) pa v]
    else { s with mgmtOut := Cells.put port (s.regValue pa) s.mgmtOut })

def State.putSem (k : Nat) (m : MSem) (s : State) : State := { s with msem := Cells.put k m s.msem }

/-- MSEM_ACQUIRE: a lease of `lease` times 2^20 management clocks granted or renewed, or refused with ERR (R372). -/
def execMsemAcquire (who k lease : Nat) (s : State) : Out :=
  let m := s.sem k
  .next (if lease ≠ 0 ∧ (m.owner = 0 ∨ m.owner = who) then s.putSem k { m with owner := who, lease := lease * 2 ^ 20 }
    else s.putSem k { m with err := true })

/-- MSEM_RELEASE: the owner frees the semaphore; anyone else is ignored (R372). -/
def execMsemRelease (who k : Nat) (s : State) : Out :=
  let m := s.sem k
  .next (if m.owner = who then s.putSem k { m with owner := 0, lease := 0 } else s)

/-- LEASE_EXPIRY: the semaphore is freed, and interrupt 7 raised (R372). -/
def execLeaseExpiry (k : Nat) (s : State) : Out :=
  let m := s.sem k
  .next (if m.owner ≠ 0 ∧ m.lease = 0 then (s.putSem k { m with owner := 0 }).raise 7 else s)

/-! ### The root-of-trust controller (R373 to R377) -/

def State.updAmvin (s : State) (f : Amvin → Amvin) : State := { s with amvin := f s.amvin }

/-- A mailbox command of the holder of semaphore 0; another's is ignored. Its end raises interrupt 9 (DESIGN CHOICE,
assumption log 30). -/
def mailboxDo (who : Nat) (f : Amvin → Amvin) (s : State) : Out := .next (if s.holds who 0 then (s.updAmvin f).raise 9 else s)

/-- MAILBOX_WRITE_FLASH_BLOCK: the buffer's 4 KiB become block blk of the boot flash (R376). -/
def execMailboxWriteFlashBlock (who blk : Nat) (s : State) : Out :=
  mailboxDo who (fun a => { a with flash := a.flash.writeBytes (4096 * blk) (a.mailbox.bytes 0 4096) }) s

/-- MAILBOX_READ_FLASH_BLOCK (R376). -/
def execMailboxReadFlashBlock (who blk : Nat) (s : State) : Out :=
  mailboxDo who (fun a => { a with mailbox := a.mailbox.writeBytes 0 (a.flash.bytes (4096 * blk) 4096) }) s

/-- MAILBOX_READ_MEASUREMENT: the 48 bytes of a measurement at the start of the buffer (R376, R377). -/
def execMailboxReadMeasurement (who idx : Nat) (s : State) : Out :=
  mailboxDo who (fun a => { a with mailbox := a.mailbox.writeBytes 0 (Cells.get (List.replicate 48 0) idx a.meas) }) s

/-- MAILBOX_ADVANCE_COUNTER: the counter becomes the running image's SVN (R376). -/
def execMailboxAdvanceCounter (who : Nat) (s : State) : Out :=
  mailboxDo who (fun a => { a with counter := BitVec.ofNat 64 (max a.counter.toNat a.svn) }) s

/-- The image of a type as the flash holds it: its header and its body (R374). -/
def Amvin.imageHeader (a : Amvin) (ty : Nat) : List W8 := a.flash.bytes (Config.imagePlace ty) 4096
def Amvin.imageBody (a : Amvin) (ty : Nat) : List W8 :=
  a.flash.bytes (Config.imagePlace ty + 4096) (bytesAt (a.imageHeader ty) 0xC 4)

/-- A field of an image header. -/
def headerField (h : List W8) (a n : Nat) : List W8 := (h.drop a).take n

/-- Is the image of a type accepted (R375)? -/
def Amvin.accepts (a : Amvin) (ty : Nat) : Bool :=
  let h := a.imageHeader ty
  let len := bytesAt h 0xC 4
  bytesAt h 0 4 == 0x4D414750 && bytesAt h 4 4 == ty && decide (a.counter.toNat ≤ bytesAt h 8 4)
    && decide (1 ≤ len) && decide (len ≤ 2 ^ 28)
    && Config.sha384 (headerField h 0x40 97) == a.ecKey && Config.sha384 (headerField h 0xA8 56) == a.lmsKey
    && Config.ecdsaOk (headerField h 0x40 97) (Config.sha384 (headerField h 0 256)) (headerField h 0x100 96)
    && Config.lmsOk (headerField h 0xA8 56) (headerField h 0 256) (headerField h 0x200 3584)
    && headerField h 0x10 48 == Config.sha384 (a.imageBody ty)

/-- An accepted image measured (R377). -/
def Amvin.measure (a : Amvin) (ty : Nat) : Amvin :=
  { a with meas := Cells.put ty (Config.sha384 (a.imageHeader ty ++ a.imageBody ty)) a.meas }

/-- One entry of the repair record applied to the map (R358 to R360). -/
def applyRepair (s : State) (w : Nat) : State :=
  match w % 2 ^ 3 with
  | 1 => s.updCluster (Sys2Proof.fld w 3 5) fun c => { c with out := Sys2Proof.fld w 8 5 }
  | 2 => s.updCore (Sys2Proof.fld w 13 9) fun c =>
    { c with outrow := Cells.put (Sys2Proof.fld w 22 3) (Sys2Proof.fld w 25 5) c.outrow }
  | 3 => s.updCluster (Sys2Proof.fld w 3 5) fun c => { c with dead := true }
  | _ => s

/-- The bank tables of the boot firmware (R343): a bank with at most 8 rows to replace maps them to its spares. A core with a worse
bank is the one out of service in its cluster; where the cluster has no spare position left, it is out of service itself (DEDUCED,
assumption log 107). -/
def replaceRows (s : State) : State :=
  let worse := (s.amvin.worn.filter fun b => decide (8 < b.2.length)).map fun b => b.1 / 64
  worse.foldl (fun s n => s.updCluster (n / 17) fun c =>
      if c.out = n % 17 then c else if c.out = 16 then { c with out := n % 17 } else { c with dead := true })
    { s with remap := s.amvin.worn.filter fun b => decide (b.2.length ≤ 8) }

/-- Everything as reset leaves it but the model's own counts, the inputs still to come, and what the root-of-trust controller
keeps. -/
def State.cleared (s : State) : State :=
  { State.reset with clock := s.clock, freeCtr := s.freeCtr, nextId := s.nextId, inbox := s.inbox, amvin := s.amvin }

/-- POWER_ON_BOOT: the Amvin firmware is verified, then the training and system-core images; memory is trained, the repair
record and the bank tables applied, every memory cleared and the harts released. A refused image leaves recovery state (R343, R375,
R377). -/
def execPowerOnBoot (s : State) : Out :=
  let t := s.cleared
  let a := { t.amvin with boot := .recovery, meas := [], mailbox := Mem.zero, svn := 0, released := false }
  .next (if !a.accepts 1 then { t with amvin := a }
    else
      let b := { a.measure 1 with svn := bytesAt (a.imageHeader 1) 8 4 }
      if !b.accepts 3 then { t with amvin := b }
      else
        let c := b.measure 3
        if !c.accepts 2 then { t with amvin := c }
        else replaceRows (c.repair.foldl applyRepair { t with amvin := { c.measure 2 with boot := .running, released := true } }))

/-- GET_MEASUREMENTS: the measurements taken, by ascending index, 48 bytes each, and the responder's signature of them with the
device key (R377), whose value is free (assumption log 103); nothing answers before the first image is verified (R373). -/
def execGetMeasurements (port : Nat) (s : State) : Out :=
  let m := s.amvin.meas.flatMap Prod.snd
  .next (if s.amvin.boot = .off then s
    else { s with mgmtOut := Cells.put port (joinBytes m) s.mgmtOut,
                  mgmtSig := Cells.put port (Config.spdmSign s.amvin.devKey m) s.mgmtSig })

/-- What device memory, the slices and the maps are before and after a device reset. -/
def keepMemories (s t : State) : State :=
  let u := { t with hbm := s.hbm, peers := s.peers, remap := s.remap }
  let u := s.clusters.foldl (fun u c => u.updCluster c.1 fun x => { x with out := c.2.out, dead := c.2.dead }) u
  s.cores.foldl (fun u c => u.updCore c.1 fun x =>
    { x with imem := c.2.imem, slice := c.2.slice, side := c.2.side, outrow := c.2.outrow }) u

/-- DEVICE_RESET: every state item takes its reset value (R20, R21); memories, the maps and the root-of-trust controller stay
as they stand (DEDUCED, assumption log 34). -/
def execDeviceReset (s : State) : Out := .next (keepMemories s s.cleared)

/-! ### Repair (R359, R360) -/

/-- Is a request refused on the grounds common to all: a repair under way, or the cluster not free or outside the device? -/
def State.repairBars (s : State) (c : Nat) : Bool :=
  s.repair.left.isSome || decide (20 ≤ c) || (s.cluster c).kernel.isSome

/-- A request accepted or refused: its fields written and BUSY set for 4,096 clocks, or ERR. w is what its operation says; of a
request made by a write of REPAIR the whole of the written fields stand in `asked`. -/
def settleRepair (ok : Bool) (w : Nat) (s : State) : State :=
  let mine := fun v => repairStep v == repairStep w
  let r := { s.repair with asked := s.repair.asked.eraseP mine }
  if ok then { s with repair := { r with
    word := BitVec.ofNat 64 ((s.repair.asked.find? mine).getD w), job := w, left := some 4096 } }
  else { s with repair := { r with err := true } }

/-- RETIRE_CORE: OP 1, core position pos of cluster cl. -/
def execRetireCore (cl pos : Nat) (s : State) : Out :=
  .next (settleRepair (!s.repairBars cl && decide (pos ≤ 16) && (s.cluster cl).out == 16) (1 + 2 ^ 3 * cl + 2 ^ 8 * pos) s)

/-- RETIRE_ROW: OP 2, row `row` of band b of core n. -/
def execRetireRow (n b row : Nat) (s : State) : Out :=
  .next (settleRepair (!s.repairBars (n / 16) && decide (row ≤ 16) && Cells.get 16 b (s.core n).outrow == 16)
    (2 + 2 ^ 13 * n + 2 ^ 22 * b + 2 ^ 25 * row) s)

/-- RETIRE_CLUSTER: OP 3, where no pre-empted kernel left the cluster either. -/
def execRetireCluster (cl : Nat) (s : State) : Out :=
  let left := s.kernels.any fun x => x.2.stage == .preempted && x.2.clusters.contains cl
  .next (settleRepair (!s.repairBars cl && !left) (3 + 2 ^ 3 * cl) s)

/-- REPAIR_COMPLETE: the new map holds, the repair record keeps it, BUSY clears and interrupt 8 is raised (R360). -/
def execRepairComplete (s : State) : Out :=
  .next (if s.repair.left = some 0 then
      let w := s.repair.job
      ({ applyRepair s w with
        repair := { s.repair with left := none }, amvin := { s.amvin with repair := s.amvin.repair ++ [w] } }).raise 8
    else s)

/-! ### The current governor (R378 to R381) -/

/-- The limit that the governor holds a cluster to: halved while the thermal alarm lasts (R381). -/
def State.limitOf (s : State) (c : Nat) : Nat := (s.cluster c).limit / (if s.alarm then 2 else 1)

/-- A core's window with the charge of the clock that has ended; a frozen clock is charged nothing. -/
def Core.charged (c : Core) : Core :=
  { c with window := ((if c.frozen then 0 else c.charge) :: c.window).take 64, charge := 0 }

/-- GOVERNOR_CLOCK: each core's window takes in the clock that has ended; a core above its limit is frozen on this clock, and in
lockstep mode the whole of its cluster (R378). -/
def execGovernorClock (s : State) : Out :=
  let cs : Cells Core := s.cores.map fun c => (c.1, c.2.charged)
  let hot : List Nat := (cs.filter fun c => decide (s.limitOf (clusterOf c.1) < c.2.window.sum)).map Prod.fst
  .next { s with cores := cs.map fun c => (c.1, { c.2 with
    frozen := hot.contains c.1 || (c.2.lock && hot.any fun n => clusterOf n == clusterOf c.1) }) }

/-- Does a cluster run a kernel of a lockstep context? -/
def State.lockstepCluster (s : State) (c : Nat) : Bool :=
  match (s.cluster c).kernel.bind s.kernel with
  | some k => (s.ctx k.ctx).lock
  | none => false

/-- GLIMIT_WRITE: accepted from a holder of semaphore 2; in force at once, or for a lockstep kernel's cluster at its next
placement or resumption (R379). -/
def execGlimitWrite (who cl v : Nat) (s : State) : Out :=
  .next (if !s.holds who 2 then s
    else s.updCluster cl fun c =>
      { c with glimit := v % 2 ^ 16, limit := if s.lockstepCluster cl then c.limit else v % 2 ^ 16 })

/-- THERMAL_ALARM_BEGIN: every limit is halved, OVR set for every active lockstep context, and interrupt 5 raised (R381). -/
def execThermalAlarmBegin (s : State) : Out :=
  .next ({ s with
    alarm := true,
    ctxovr := (s.activeCtxs.filter fun k => (s.ctx k).lock).foldl (fun v k => v ||| BitVec.ofNat 16 (2 ^ k)) s.ctxovr }.raise 5)

/-- THERMAL_ALARM_END (R381). -/
def execThermalAlarmEnd (s : State) : Out := .next { s with alarm := false }

end Sys2Proof.Machine
end

