-- ==== Sys2Proof/Machine/Issue.lean ====
section
/-!
DEFINITION. The issue of a bundle or issue group (R30, R62 to R86, R139, R144, R320, R326, R378): its fetch, its form, the
checks of its words, the run of its slots and its commit. BUNDLE_ISSUE and COMPACT_GROUP2_ISSUE stage the words; the
step then decodes them and runs each in slot order through issueSlots.
-/

namespace Sys2Proof.Machine

/-! ### Fetch (R22, R152) -/

/-- The 16 bytes at the program counter: those in the scratchpad, or any that a write has replaced since the partition last
fenced: a free choice in elastic mode, one fixed by the program's own progress in lockstep mode (R152, R284). -/
def fetchBundle (p : Nat) (s : State) : W128 × State :=
  let x := s.part p
  let a := 2 ^ 17 * b2n x.half + x.pc
  let now := BitVec.ofNat 128 ((s.core (p / 4)).imem.readN a 16)
  let old := (x.stale.filter fun e => e.1 == a).map Prod.snd
  if old.isEmpty then (now, s)
  else
    let c := s.core (p / 4)
    let n := old.length + 1
    let r := if c.lock then (Config.fixedChoice [0, p, x.bno, x.pc, c.cycle] % n, s) else s.draw n
    (old.getD r.1 now, r.2)

/-- The word of slot k of a bundle (R63). -/
def slotWord (w : W128) (k : Nat) : Nat := Sys2Proof.fld w.toNat (32 * k) 32

/-- The form field F (R62). -/
def formOf (w : W128) : Nat := Sys2Proof.fld w.toNat 30 2

/-! ### What a word needs (R49, R70, R72) -/

/-- The major of a word at a slot position, and its FN field (R65). -/
def majOf (slot w : Nat) : Nat := if slot = 0 then Sys2Proof.fld w 24 6 else Sys2Proof.fld w 26 6
def fnOf (w : Nat) : Nat := Sys2Proof.fld w 0 6

/-- Does a word hold a vector or tile operation (R71, R87)? -/
def isVec (slot w : Nat) : Bool :=
  (slot == 1 || slot == 3) && decide (0x10 ≤ majOf slot w) && decide (majOf slot w ≤ 0x27)

/-- Scalar ports of the scalar block, majors 0x01 to 0x0D (R49). -/
def scalarPorts (maj fn : Nat) : Nat :=
  match maj with
  | 0x01 => if fn = 15 then 1 else 2
  | 0x02 => 1 | 0x04 => 2
  | 0x05 => if fn % 32 = 4 ∨ fn % 32 = 7 ∨ fn % 32 = 8 then 1 else 2
  | 0x06 => 2 | 0x07 => 2 | 0x08 => 1 | 0x09 => 2 | 0x0A => 1 | 0x0C => 1 | 0x0D => 2
  | _ => 0

/-- Vector and scalar ports of the vector and tile block, majors 0x10 to 0x27. -/
def vectorPorts (maj fn w : Nat) : Nat × Nat :=
  match maj with
  | 0x10 => (2, 0)
  | 0x11 => (if Sys2Proof.fld w 2 2 = 0 then 0 else 1, 0)
  | 0x12 => (if fn % 16 = 3 then 3 else if fn % 16 = 6 ∨ fn % 16 = 7 then 1 else 2, 0)
  | 0x13 => (if 0x38 ≤ fn then 1 else 2, 0)
  | 0x14 => (2, 0) | 0x16 => (2, 0)
  | 0x17 => (1, 0) | 0x18 => (1, 0) | 0x19 => (1, 0) | 0x1A => (1, 0)
  | 0x1B => (1, 1)
  | 0x1C => (if fn ≤ 1 then 2 else 1, 0)
  | 0x1D => (2, 0) | 0x1E => (1, 0) | 0x1F => (1, 0)
  | 0x20 => (0, 1) | 0x21 => (1, 1) | 0x22 => (1, 1) | 0x23 => (1, 1) | 0x24 => (2, 0) | 0x25 => (1, 1)
  | 0x26 => (if fn / 4 = 1 then 1 else 0, 1)
  | 0x27 => (if fn = 8 then 1 else 2, 0)
  | _ => (0, 0)

/-- Scalar ports of slot 3 from major 0x28: one for each argument word of an engine command (R70). -/
def matrixPorts (maj fn w : Nat) : Nat :=
  match maj with
  | 0x29 => if fn = 1 then 0 else 1
  | 0x2A => 1
  | 0x2B => if Sys2Proof.bit w 25 then 0 else 1
  | 0x2E => 1 + Sys2Proof.fld w 5 1
  | 0x2F => 1 | 0x37 => 1 | 0x30 => 2 | 0x31 => 2 | 0x32 => 3 | 0x33 => 1 | 0x34 => 3 | 0x35 => 1 | 0x36 => 2
  | 0x39 => if Sys2Proof.fld w 5 3 = 1 then 1 else 0
  | 0x3A => 1
  | 0x3C => if Sys2Proof.fld w 5 3 = 5 then 2 else 1
  | _ => 0

/-- The vector and scalar ports that a word needs at a slot (R49, R70). -/
def portsOf (slot w : Nat) : Nat × Nat :=
  let m := majOf slot w
  let fn := fnOf w
  match slot with
  | 0 =>
    if m = 0x13 then (0, 1) else if m = 0x15 then (0, b2n (Sys2Proof.bit w 23)) else if m = 0x1E then (0, 1)
    else (0, scalarPorts m fn)
  | 2 =>
    match m with
    | 0x01 => (0, 1) | 0x03 => (0, 1) | 0x05 => (0, 1)
    | 0x02 => (0, 2) | 0x07 => (0, 2) | 0x08 => (0, 2)
    | 0x04 => (1, 1) | 0x06 => (1, 1)
    | _ => (0, 0)
  | _ => if m < 0x10 then (0, scalarPorts m fn) else if m < 0x28 then vectorPorts m fn w else (0, matrixPorts m fn w)

/-- What a slot's extension is to its word (R72): nothing, more of its immediate or offset, a third tag, a lane mask, or a
lane mask and a rounding mode (R159). -/
inductive ExtUse where
  | none | immediate | tag | mask | rounds
deriving DecidableEq, Repr

def extUse (slot w : Nat) : ExtUse :=
  let m := majOf slot w
  let fn := fnOf w
  if slot = 0 then .none
  else if slot = 2 then .immediate
  else if m = 0x02 ∨ m = 0x03 ∨ m = 0x08 ∨ m = 0x11 then .immediate
  else if m = 0x2B then (if Sys2Proof.bit w 25 then .immediate else .none)
  else if m < 0x10 ∨ m = 0x15 ∨ m = 0x20 then .none
  else if m = 0x26 then (if fn / 4 = 1 then .none else .mask)
  else if m = 0x27 then (if fn = 8 then .mask else .none)
  else if m = 0x12 then (if fn % 16 < 4 then .rounds else .mask)
  else if m = 0x17 then (if fn / 16 = 0 then .rounds else .mask)
  else if m = 0x19 ∨ m = 0x1A ∨ m = 0x24 ∨ m = 0x25 then .rounds
  else if m = 0x21 then (if 32 ≤ fn then .rounds else .mask)
  else if m < 0x28 then .mask
  else if m = 0x28 ∨ m = 0x2E ∨ (0x30 ≤ m ∧ m ≤ 0x36) ∨ (0x38 ≤ m ∧ m ≤ 0x3C) then .tag
  else .none

/-- Is the extension of a headed slot one that its word takes (R67, R72, R159, R214, R259)? A mask number without ME is a
field that the word does not use. -/
def extOk (slot w ext : Nat) : Bool :=
  if w = 0 then ext == 0
  else match extUse slot w with
    | .none => ext == 0
    | .immediate => if slot = 3 ∧ majOf slot w = 0x2B then decide (ext < 8) else true
    | .tag => if majOf slot w = 0x39 ∧ Sys2Proof.fld w 5 3 ≠ 1 then ext == Sys2Proof.fld w 20 6 else true
    | .mask => ext % 4 == 0 && (Sys2Proof.bit ext 5 || ext == 0)
    | .rounds => decide (ext % 4 ≤ 1) && (Sys2Proof.bit ext 5 || decide (ext ≤ 1))

/-! ### Templates (R76 to R78) -/

/-- The width of the register number in the D field of a word whose D holds something above it: the condition of a compare
with immediate (R131), the sign-extension bit of LDS (R233), the form bit of SCLDI (R214). -/
def regWidth (slot maj width : Nat) : Nat :=
  if slot = 2 then (if maj = 0x01 then 5 else width)
  else if maj = 0x08 then 3
  else if slot ≠ 0 ∧ maj = 0x2B then 5
  else width

/-- The fields of a slot's words at the positions of D, A and B: lowest bit and the width of the register number; none where
the format has no such field. -/
def opFields (slot maj : Nat) : List (Option (Nat × Nat)) :=
  let imm := maj = 0x02 ∨ maj = 0x03 ∨ maj = 0x08 ∨ (slot ≠ 0 ∧ (maj = 0x11 ∨ maj = 0x20 ∨ maj = 0x2B))
  match slot with
  | 0 => [some (19, regWidth slot maj 5), some (14, 5), if imm then none else some (9, 5)]
  | 2 => [some (20, regWidth slot maj 6), some (14, 5), none]
  | _ => [some (20, regWidth slot maj 6), some (14, 6), if imm then none else some (8, 6)]

/-- OFF added to a field of a word; none where the format has no such field or the sum passes the end of the register
numbers (R78; DEDUCED, assumption log 69: no sum carries into what stands above a register number in its field). -/
def addOffset (on : Bool) (off : Nat) (f : Option (Nat × Nat)) (w : Nat) : Option Nat :=
  if !on then some w
  else match f with
    | none => none
    | some f => if Sys2Proof.fld w f.1 f.2 + off < 2 ^ f.2 then some (w + off * 2 ^ f.1) else none

/-- A word after the offsets that an entry asks for (R77). -/
def offsetWord (slot e off : Nat) : Option Nat :=
  let w := Sys2Proof.fld e 0 32
  let fs := opFields slot (majOf slot w)
  ((List.range 3).foldl (fun (a : Option Nat) i => a.bind fun w =>
    addOffset (Sys2Proof.bit e (35 + i)) off (fs.getD i none) w) (some w))

/-- May RO be 1 for a word (R78)? -/
def takesRm (slot w : Nat) : Bool :=
  let m := majOf slot w
  let fn := fnOf w
  (slot != 2 && ((m == 0x05 && decide (fn % 32 ≤ 4)) || m == 0x0C))
    || (slot != 0 && slot != 2 && ((m == 0x12 && decide (fn % 16 ≤ 3)) || (m == 0x17 && fn / 16 == 0)
      || m == 0x19 || m == 0x1A || m == 0x1B || (m == 0x21 && decide (32 ≤ fn)) || m == 0x24 || m == 0x25))

/-- May CO be 1 for a word (R78)? -/
def takesCf (slot w : Nat) : Bool :=
  let m := majOf slot w
  slot != 0 && slot != 2 && (m == 0x19 || m == 0x1A || m == 0x1B || (m == 0x21 && decide (32 ≤ fnOf w)) || m == 0x25)

def rmOf (n : Nat) : RMode := if n = 0 then .rne else if n = 1 then .rtz else .sr

/-- The checks of a control-word table entry that its bits decide (R77, R78). -/
def entryOk (slot e w : Nat) : Bool :=
  let rm := Sys2Proof.fld e 52 3
  Sys2Proof.bit e 34 && Sys2Proof.fld e 60 4 == 0 && decide (Sys2Proof.fld e 48 3 ≤ 4)
    && (slot != 0 || (Sys2Proof.fld w 30 2 == 0 && Sys2Proof.fld e 38 2 == 0 && Sys2Proof.fld e 40 6 == 0
      && Sys2Proof.fld e 46 2 == 0 && decide (majOf 0 w ≤ 0x0D)))
    && (!Sys2Proof.bit e 51 || (takesRm slot w && decide (rm ≤ 2) && (rm == 2) == (majOf slot w == 0x1B && slot != 0)))
    && (!Sys2Proof.bit e 55 || takesCf slot w)

/-- A word with its FN[3:0] replaced by CF (R77). -/
def withCf (e w : Nat) : Nat := if Sys2Proof.bit e 55 then w / 16 * 16 + Sys2Proof.fld e 56 4 else w

/-- A template reference as the slot word it stands for; none where a check of its entry fails (R76 to R78). -/
def templateSlot (c : Core) (r : Nat) : Nat × Option RawSlot :=
  let e := (Cells.get 0 (r / 128) c.cwt).toNat
  let slot := Sys2Proof.fld e 32 2
  (slot, match offsetWord slot e (r % 128) with
    | none => none
    | some w =>
      if entryOk slot e w then some
        { slot := slot, word := w, also := [Sys2Proof.fld e 0 32, withCf e w],
          mod := ⟨slot != 0, Sys2Proof.fld e 40 6, 0, (if Sys2Proof.bit e 51 then some (rmOf (Sys2Proof.fld e 52 3)) else none),
            (if Sys2Proof.bit e 55 then some (Sys2Proof.fld e 56 4) else none), Sys2Proof.fld e 64 192, true⟩,
          wcode := Sys2Proof.fld e 38 2, vp := Sys2Proof.fld e 46 2, sp := Sys2Proof.fld e 48 3 }
      else none)

/-! ### Staging (R62, R68, R69, R74, R75, R83) -/

/-- A cursor at the start of a bundle or issue group. -/
def Cursor.start (p group : Nat) (w : W128) (covered guard : Bool) (done : Nat) : Cursor :=
  { Cursor.empty with core := p / 4, gpi := p, word := w, group := group, covered := covered, guard := guard, done := done,
                      others := ((List.range 3).filter fun k => slotWord w (k + 1) != 0).length }

/-- A fault mark of a slot; slot 4 stands for none of the four. -/
def Cursor.bad (c : Cursor) (cause : Nat) (slots : List Nat) : Cursor :=
  { c with marks := c.marks ++ slots.map fun k => ⟨k, cause, 0, 0⟩ }

/-- The words of a plain bundle under the default allotment (R69). -/
def plainSlots (w : W128) : List RawSlot :=
  [⟨0, slotWord w 0, [], Mod.plain, 0, 0, 2⟩, ⟨1, slotWord w 1, [], Mod.plain, 0, 2, 1⟩,
   ⟨2, slotWord w 2, [], Mod.plain, 0, 1, 2⟩, ⟨3, slotWord w 3, [], Mod.plain, 0, 1, 1⟩]

/-- The scalar read ports of an SPX scheme for slots 1, 2 and 3 (R68). -/
def spxPorts (x : Nat) : Nat × Nat × Nat :=
  match x with
  | 0 => (2, 2, 2)
  | 1 => (3, 2, 1)
  | 2 => (1, 2, 3)
  | _ => (1, 1, 4)

/-- The words of a headed bundle under its header (R68). -/
def headedSlots (w : W128) : List RawSlot :=
  let h := slotWord w 0
  let sp := spxPorts (Sys2Proof.fld h 6 2)
  let mod := fun (x : Nat) => Mod.mk true (Sys2Proof.fld h x 6) 0 none none 0 false
  [⟨1, slotWord w 1, [], mod 12, Sys2Proof.fld h 8 2, Sys2Proof.fld h 0 2, sp.1⟩,
   ⟨2, slotWord w 2, [], mod 18, 0, Sys2Proof.fld h 2 2, sp.2.1⟩,
   ⟨3, slotWord w 3, [], mod 24, Sys2Proof.fld h 10 2, Sys2Proof.fld h 4 2, sp.2.2⟩]

/-- Does a header allot more vector ports than exist (R68)? -/
def headerBad (w : W128) : Bool :=
  let h := slotWord w 0
  decide (4 < Sys2Proof.fld h 0 2 + Sys2Proof.fld h 2 2 + Sys2Proof.fld h 4 2)

/-- Template reference i of a compact bundle (R74). -/
def refOf (w : W128) (i : Nat) : Nat := Sys2Proof.fld w.toNat (if i = 0 then 0 else 16 * (i + 1)) 16

/-- Template references in the order of their slots (R30). -/
def inSlotOrder (ts : List (Nat × Option RawSlot)) : List (Nat × Option RawSlot) :=
  (List.range 4).flatMap fun k => ts.filter fun t => t.1 == k

/-- A compact bundle's references of one issue group staged: the enabled ones in slot order, a slot named twice marked (R74,
R76). The disabled references of group 2 are looked at when group 2 issues, after group 1 has committed (DEDUCED, assumption
log 88: the fault is of the group that the reference belongs to). -/
def stageRefs (c : Core) (refs : List Nat) (cu : Cursor) : Cursor :=
  let on := refs.filter fun i => Sys2Proof.bit cu.word.toNat (23 + i)
  let hard := Sys2Proof.fld cu.word.toNat 16 7 != 0
    || refs.any fun i => !Sys2Proof.bit cu.word.toNat (23 + i) && refOf cu.word i != 0
  let ts := on.map fun i => templateSlot c (refOf cu.word i)
  let twice := (List.range 4).filter fun k => decide (1 < (ts.filter fun t => t.1 == k).length)
  let fails := (ts.filter fun t => t.2.isNone).map Prod.fst
  let cu := { cu with staged := (inSlotOrder ts).filterMap Prod.snd }
  cu.bad causeIllegalEncoding (twice ++ fails ++ if hard then [4] else [])

/-- The words of a bundle staged by its form (R62). -/
def stage (c : Core) (cu : Cursor) : Cursor :=
  match formOf cu.word with
  | 0 => { cu with staged := plainSlots cu.word }
  | 1 =>
    let t := { cu with staged := headedSlots cu.word }
    if headerBad cu.word then t.bad causeIllegalEncoding [1, 2, 3] else t
  | 2 => stageRefs c [0, 1, 2, 3] cu
  | _ => cu.bad causeIllegalBundle [0]

/-- Would the end bundle at pc loop back (R139)? -/
def loopsBack (pc : Nat) : List LoopLevel → Bool
  | [] => false
  | l :: r => l.stop == pc && (decide (1 < l.remaining) || loopsBack pc r)

/-- BUNDLE_ISSUE: the bundle at the program counter is fetched and its words are staged. The guard is that of its place in
the predicate block (R83), and a covered bundle that would loop back before the block's last is illegal (R85), with slot 0
marked (DEDUCED, assumption log 87). -/
def execBundleIssue (p : Nat) (s : State) : Out :=
  let f := fetchBundle p s
  let x := s.part p
  let covered := decide (0 < x.pblk.rem)
  let guard := !covered || x.preds.getLsbD x.pblk.pred == Sys2Proof.bit x.pblk.pat 0
  let cu := stage (s.core (p / 4)) (Cursor.start p (if formOf f.1 = 2 then 1 else 0) f.1 covered guard 0)
  let cu := if decide (1 < x.pblk.rem) && loopsBack x.pc x.loops then cu.bad causeIllegalSequence [0] else cu
  .next { f.2 with cur := cu }

/-- COMPACT_GROUP2_ISSUE: references 4 to 6 of the compact bundle whose group 1 issued on the clock before (R75). -/
def execCompactGroup2Issue (p : Nat) (s : State) : Out :=
  .next (match (s.part p).group2 with
    | none => s
    | some g =>
      let cu := Cursor.start p 2 g.word (decide (0 < (s.part p).pblk.rem)) g.guard g.done
      { s with cur := stageRefs (s.core (p / 4)) [4, 5, 6] cu })

/-! ### The checks of class 2 (R64 to R80, R88) -/

/-- Does a word decode at a slot? -/
noncomputable def decodes (slot w : Nat) : Bool :=
  match decodeSlot slot w with
  | .ok _ => true
  | .error _ => false

/-- The template form of VPERM, which no slot word may hold (R168). -/
def isVpermt (slot w : Nat) : Bool := isVec slot w && majOf slot w == 0x16 && Sys2Proof.bit w 2

/-- Are a slot's ports, extension and form in order? A template's ports are exactly those it states (R70, R72, R78). -/
def RawSlot.fits (r : RawSlot) : Bool :=
  let n := portsOf r.slot r.word
  (if r.mod.template then n.1 == r.vp && n.2 == r.sp else decide (n.1 ≤ r.vp) && decide (n.2 ≤ r.sp))
    && (!r.mod.headed || extOk r.slot r.word r.mod.ext) && (r.mod.template || !isVpermt r.slot r.word)

/-- A staged word as an instruction; none where a check fails. -/
noncomputable def RawSlot.instr (r : RawSlot) : Option Instr :=
  match decodeSlot r.slot r.word with
  | .error _ => none
  | .ok i => if r.fits && r.also.all (decodes r.slot) then some i else none

/-- The lane width of a staged slot among those that decode (R71). -/
def widthOf (two : Bool) (code : Nat) : Nat :=
  match code with
  | 0 => if two then 512 else 1024
  | 1 => 256
  | 2 => 512
  | _ => 1024

/-- Elements of VRED's types (R169). -/
def redBits (fn : Nat) : Nat := (([32, 16, 16, 32, 16, 8] : List Nat)[fn % 8]?).getD 8

/-- The slots whose widths break R71, R50 or R169, and the slots with their widths given. -/
def setWidths (rs : List RawSlot) : List Nat × List RawSlot :=
  let vec := rs.filter fun r => isVec r.slot r.word
  let two := decide (1 < vec.length)
  let out := rs.map fun r =>
    if isVec r.slot r.word then { r with mod := { r.mod with width := widthOf two r.wcode } } else r
  let total : Nat := ((out.filter fun r => isVec r.slot r.word).map fun r => r.mod.width).sum
  let bad := (out.filter fun r => if isVec r.slot r.word
    then decide (1024 < total) || (majOf r.slot r.word == 0x17 &&
      r.mod.width / redBits (fnOf r.word) / 2 ^ Sys2Proof.fld r.word 8 3 == 0)
    else r.wcode != 0).map RawSlot.slot
  (bad, out)

/-- The slots of an issue group that together need more ports than exist (R76): every slot of the group that decodes is
marked (DEDUCED, assumption log 89). -/
def portsBad (rs : List RawSlot) : List Nat :=
  let need := rs.map fun r => portsOf r.slot r.word
  if (rs.any fun r => r.mod.template) && (decide (4 < (need.map Prod.fst).sum) || decide (6 < (need.map Prod.snd).sum))
    then rs.map RawSlot.slot else []

/-! ### Running the slots -/

/-- The slots of a bundle run in slot order; one whose guard fails has no effect (R84). CRGET TAGS in slot 0 so reads a tag before a
command of slot 3 clears it (R82, R257; DEDUCED, assumption log 117). -/
def runSlots (run : Instr → State → Out) : List (RawSlot × Instr) → State → Out
  | [], s => .next s
  | (r, i) :: rest, s =>
    if r.slot ≠ 0 ∧ s.cur.guard = false then runSlots run rest s
    else match run i (s.updCur fun c => { c with slot := r.slot, mod := r.mod }) with
      | .next t => runSlots run rest t
      | .fault f => .fault f
      | .refused q => .refused q

/-! ### The end of a presentation (R30, R86, R320) -/

/-- The queue that a result is pushed to, as a cursor numbers queues. -/
def pushKey : LandAct → Option Nat
  | .spush q _ => some q
  | .vpush q _ => some (vkey q)
  | _ => none

/-- The landed entries of a queue. -/
def Part.landed (p : Part) (k : Nat) : Nat :=
  if k < 32 then (Cells.get [] k p.sq).length else (Cells.get [] (k - 32) p.vq).length

/-- Pushes to a queue that have issued and not landed, the captured ones included (R30). -/
def State.inflight (s : State) (p k : Nat) : Nat :=
  ((s.core (p / 4)).pend.filter fun l => l.gpi == p && pushKey l.act == some k).length
    + ((s.part p).snap.filter fun e => pushKey e.act == some k).length

/-- Does queue k overflow by the bundle in progress (R30, R144)? -/
def State.overflows (s : State) (k : Nat) : Bool :=
  let c := s.cur
  let room := if c.clears.contains k then 0 else s.me.landed k - Cells.get 0 k c.taken
  decide (4 < room + s.inflight c.gpi k + (c.out.filter fun l => pushKey l.act == some k).length)

/-- The marks of queue overflow: every slot that pushes to the queue. -/
def State.overflowMarks (s : State) : List Mark :=
  ((s.cur.out.filterMap fun l => pushKey l.act).dedup.filter s.overflows).flatMap fun k =>
    ((s.cur.out.filter fun l => pushKey l.act == some k).map Landing.slot).dedup.map fun x => ⟨x, causeOverflow, 0, 0⟩

/-- The class of R86 that a cause belongs to. -/
def causeClass (c : Nat) : Nat := if c = 1 then 1 else if c = 2 then 2 else if c = 3 then 3 else 4

/-- The mark that names the cause (R320): of the first class, the lowest slot, then the lowest code. -/
def firstMark : List Mark → Option Mark
  | [] => none
  | m :: r => match firstMark r with
    | none => some m
    | some n =>
      if causeClass n.cause < causeClass m.cause then some n
      else if causeClass m.cause < causeClass n.cause then some m
      else if n.slot < m.slot ∨ (n.slot = m.slot ∧ n.cause < m.cause) then some n else some m

/-- FMASK: the slots marked in the class that is raised (R86). -/
def faultMask (cls : Nat) (ms : List Mark) : Nat :=
  ((List.range 4).map fun k => if ms.any (fun m => m.slot == k && causeClass m.cause == cls) then 2 ^ k else 0).sum

/-- The trap of a bundle that meets faults at issue (R320, R325, R326); none where it meets none. -/
def issueTrap (c : Cursor) (p : Part) (ms : List Mark) : Option TrapInfo :=
  (firstMark ms).map fun m =>
    ⟨m.cause, c.group == 2, faultMask (causeClass m.cause) ms, (if c.group = 2 then c.done else 0), false, 0, 0,
      p.pc, p.half, m.value, m.aux, 0, 0, 0, 0⟩

/-! ### Commit -/

/-- The taken entries removed from each queue, and then the queues that QCLR clears (R30, R144). -/
def Part.takeEntries (c : Cursor) (p : Part) : Part :=
  let p := c.taken.foldl (fun p e =>
    if e.1 < 32 then { p with sq := Cells.put e.1 ((Cells.get [] e.1 p.sq).drop e.2) p.sq }
    else { p with vq := Cells.put (e.1 - 32) ((Cells.get [] (e.1 - 32) p.vq).drop e.2) p.vq }) p
  c.clears.foldl (fun p k =>
    if k < 32 then { p with sq := Cells.put k [] p.sq } else { p with vq := Cells.put (k - 32) [] p.vq }) p

/-- The check of the loop stack after a bundle at x that took no transfer (R139): the target of a loop-back, if any, and
the stack. It sees the stack as the bundle's own LPOP or LCLR leaves it (DEDUCED, assumption log 90). -/
def loopEnd (x : Nat) : List LoopLevel → Option Nat × List LoopLevel
  | [] => (none, [])
  | l :: r =>
    if l.stop ≠ x then (none, l :: r)
    else if 1 < l.remaining then (some l.start, { l with remaining := l.remaining - 1 } :: r)
    else loopEnd x r

/-- The sequencer after a bundle, or after group 1 of a compact one (R22, R75, R83, R134, R139, R145, R152, R155). -/
def Part.sequence (c : Cursor) (p : Part) : Part :=
  if c.group = 1 then
    { p with group2 := some ⟨c.word, c.guard, (c.staged.map fun r => 2 ^ r.slot).sum⟩ }
  else
    let p := { p with
      group2 := none, bno := p.bno + 1, hold := c.hold, run := c.ends.getD p.run,
      pblk := if c.covered then { p.pblk with rem := p.pblk.rem - 1, pat := p.pblk.pat / 2 } else p.pblk }
    match c.next with
    | some t => { p with pc := t, half := p.half != c.newHalf }
    | none =>
      let r := loopEnd p.pc p.loops
      { p with pc := r.1.getD (seqNext p.pc), loops := r.2 }

/-- What the governor charges for a slot's issue (R378). -/
def issueWeight (r : RawSlot) : Nat :=
  let m := majOf r.slot r.word
  if r.word = 0 then 0
  else if isVec r.slot r.word then 4 * (r.mod.width / 256)
  else if r.slot = 0 ∨ (r.slot ≠ 2 ∧ m < 0x10) then 1
  else if r.slot = 3 ∧ ((0x30 ≤ m ∧ m ≤ 0x36) ∨ (0x38 ≤ m ∧ m ≤ 0x3C)) then 2
  else 0

/-- The bundle in progress commits: its entries are taken, its results are in flight, its partition goes on, a software
trap waits for the next boundary, and an ERET restores the program (R30, R139, R153, R329). -/
def commitBundle (base s : State) : State :=
  let c := s.cur
  let t := s.updPart c.gpi fun p => (p.takeEntries c).sequence c
  let t := t.updCore c.core fun x => { x with pend := x.pend ++ c.out }
  let t := t.weigh c.core ((c.staged.map issueWeight).sum)
  let t := match c.trap with
    | some code => t.updPart c.gpi fun p => { p with trapNow := some (softTrap (base.part c.gpi) code) }
    | none => t
  let t := { t with cur := Cursor.empty }
  if c.resume then eretCommit c.core t else t

/-- The trap that a presentation begun in state base comes to, if any (R86). -/
def presentTrap (base s : State) : Option TrapInfo :=
  issueTrap s.cur (base.part s.cur.gpi) (s.cur.marks ++ s.overflowMarks)

/-- State base again with no bundle in progress. The free choices made since stay counted. -/
def putBack (base s : State) : State := { base with cur := Cursor.empty, freeCtr := s.freeCtr }

/-- The end of a presentation that began in state base: a fault is trapped and nothing commits, a wait holds no state, and
otherwise the bundle commits (R86, R156). -/
def finishIssue (base s : State) : State :=
  match presentTrap base s with
  | some t => takeTrap s.cur.gpi t (putBack base s)
  | none => if s.cur.wait then putBack base s else commitBundle base s

/-- The staged words decoded, checked and run in slot order; run is the meaning of an instruction. A bundle that fails a
check of the first two classes runs no slot (R86). -/
noncomputable def runStaged (run : Instr → State → Out) (s : State) : Out :=
  let rs := s.cur.staged
  let fails := (rs.filter fun r => r.instr.isNone).map RawSlot.slot
  let ok := rs.filter fun r => r.instr.isSome
  let ws := setWidths ok
  let t := s.updCur fun c => { c with staged := ws.2 }.bad causeIllegalEncoding (fails ++ ws.1 ++ portsBad ok)
  if t.cur.marks.any fun m => decide (causeClass m.cause < 3) then .next t
  else runSlots run (ws.2.filterMap fun r => r.instr.map fun i => (r, i)) t

/-- The staged words of a bundle run, and the presentation ended. -/
noncomputable def issueSlots (run : Instr → State → Out) (s : State) : Out :=
  match runStaged run s with
  | .next u => .next (finishIssue s u)
  | .fault f => .fault f
  | .refused q => .refused q

end Sys2Proof.Machine
end

