-- ==== Sys2Proof/Machine/Phases.lean ====
section
/-!
DEFINITION. The clock of the part: which steps happen on a clock, and in what order (R26 to R28, R86, R207, R231, R232, R239,
R270, R300, R301, R318). A clock is a sequence of phases. A phase lists the steps due in it, and the machine runs them one
by one before the next phase is listed.
-/

namespace Sys2Proof.Machine

/-! ### Lists of steps -/

/-- A planner's answer: the steps it lists, and the state, whose free choices and own counts it may have moved on. -/
abbrev Plan := List Turn × State

/-- The plans for a list of units one after another. -/
def planAll (f : State → Nat → Plan) (ns : List Nat) (s : State) : Plan :=
  ns.foldl (fun a n => let r := f a.2 n; (a.1 ++ r.1, r.2)) ([], s)

def State.coreList (s : State) : List Nat := s.cores.map Prod.fst
def State.partList (s : State) : List Nat := s.parts.map Prod.fst
def State.clusterList (s : State) : List Nat := s.clusters.map Prod.fst

def turns (n k : Nat) (i : Instr) : List Turn := List.replicate k ⟨n, i⟩

/-- Does core n move on this clock: it is not frozen (R27), and does not wait at the CYCLE value of a pre-emption (R300)? -/
def State.awake (s : State) (n : Nat) : Bool := !(s.core n).frozen && !(s.core n).poised

/-- Do the long operations of a core count this clock? Those of a core that stopped in lockstep mode or for a pre-emption are
at rest (R321, R330), but for those a handler issues while none of the program's is held (R329). -/
def Core.longRuns (c : Core) : Bool :=
  !c.frozen && !c.poised && match c.stop with
    | none => true
    | some h => !h.rest || (h.active && c.calls.all fun k => !k.held)

/-! ### The start of a clock (R299, R305, R378) -/

/-- The contexts whose period begins on this clock. -/
def State.periodStarts (s : State) : List Nat :=
  s.activeCtxs.filter fun k => decide ((s.ctx k).since < s.clock) && (s.clock - (s.ctx k).since) % 4096 == 0

/-- A partition's marks of what has happened on this clock, and the faults it may take on it. -/
def Part.newClock (p : Part) : Part := { p with setNow := 0, orNow := 0, ripe := p.late.length }

def planClock (s : State) : Plan :=
  (⟨0, .governorClock⟩ :: s.periodStarts.map fun k => ⟨0, .budgetPeriodStart k⟩,
    { s with parts := s.parts.map fun p => (p.1, p.2.newClock) })

/-- Aging, after the periods of the clock. -/
def planAging (s : State) : Plan :=
  ((s.kernels.filter fun x => decide (256 ≤ x.2.periods)).map fun x => ⟨0, .priorityAging x.1⟩, s)

/-! ### Inputs (R361, R366, R372) -/

/-- Repair requests are settled after the placements of their clock (R360). -/
def isRepair : Instr → Bool
  | .retireCore .. | .retireRow .. | .retireCluster .. => true
  | _ => false

/-- The order in which inputs of one clock are taken: errors, those of the lower class first (R356), management ports in order,
the rest, and the harts by ascending number (R370); then the requests of semaphores, by ascending owner (R372). -/
def inputRank : Instr → Nat
  | .uncorrectableError _ cls _ _ | .unownedError _ cls _ _ | .correctedError _ cls => min cls 15
  | .ridarFlitFailure => 5
  | .mgmtRequest port .. => 16 + min port 1
  | .hartMemoryAccess h _ => 32 + min h 4095
  | .msemAcquire who .. | .msemRelease who _ => 8192 + who
  | _ => 24

/-- The input taken next: due, of the lowest rank, the first listed. -/
def State.nextInput (s : State) (late : Bool) : Option (Nat × Instr) :=
  let due := s.inbox.filter fun e => decide (e.1 ≤ s.clock) && isRepair e.2 == late
  due.find? fun e => due.all fun f => decide (inputRank e.2 ≤ inputRank f.2)

/-- One input as the steps of this phase, or none. -/
def planInput (late : Bool) (s : State) : Plan :=
  match s.nextInput late with
  | none => ([], s)
  | some e => ([⟨0, e.2⟩], { s with inbox := s.inbox.erase e })

/-! ### Slot-2 accesses and the matrix unit (R207, R208, R216, R221, R222, R231, R232) -/

def planNear (s : State) : Plan :=
  (s.coreList.flatMap fun n => if s.awake n then turns n (s.core n).near.length (.slot2Perform n) else [], s)

/-- Calls whose tags are set on this clock. -/
def Core.callsDue (c : Core) (isCall : Bool) : Nat :=
  (c.calls.filter fun k => k.stage == .ended && decide (k.tagClock ≤ c.lclk) && match k.kind with
    | .mcall _ => isCall
    | _ => !isCall).length

/-- Completions of calls, background loads and accumulator landings of a core. -/
def matrixDue (s : State) (n : Nat) : Plan :=
  let c := s.core n
  (if c.longRuns then
      turns n (c.callsDue true) (.mcallCompletion n) ++ turns n (c.callsDue false) (.acdrnTagSet n)
        ++ turns n (c.loads.filter fun l => decide (l.due ≤ c.lclk)).length (.weightBankLoadDone n)
        ++ turns n (c.matPend.filter fun l => decide (l.due ≤ c.lclk)).length (.accumulatorRowLanding n)
    else [], s)

/-- Is a codebook, Gaussian-table or log-add-table load that was issued before an entry still to land (R207)? -/
def State.tableBefore (s : State) (n id : Nat) : Bool :=
  let hit := fun (a : LandAct) => match a with
    | .table t _ _ _ _ g => (t == 0 || t == 3 || t == 4) && decide (g < id)
    | _ => false
  ((s.core n).pend.any fun l => hit l.act) || (partsOf n).any fun p => (s.part p).snap.any fun e => hit e.act

/-- May the next call-queue entry of core n start (R207, R275)? -/
def State.callReady (s : State) (n : Nat) : Bool :=
  let c := s.core n
  c.longRuns && c.running.isNone && decide (c.lastEnd ≤ c.lclk) &&
    match c.calls.find? fun k => k.stage == .queued with
    | none => false
    | some k =>
      let p := s.part k.gpi
      let tags := p.tags &&& ~~~p.setNow
      !k.held && decide (2 ≤ k.age) && k.needs.all (fun g => tags.getLsbD g)
        && !p.acquiring k.bno && !s.tableBefore n k.id

/-- Does an ACLR entry execute on this clock (R216)? -/
def Core.aclrDue (c : Core) : Bool :=
  c.longRuns && match c.running with
  | some k => !k.held && decide (k.ended ≤ c.lclk) && match k.kind with
    | .aclr _ => true
    | _ => false
  | none => false

def planCallStart (s : State) (n : Nat) : Plan :=
  (if (s.core n).aclrDue then [⟨n, .aclrEntryExecute n⟩]
    else if s.callReady n then [⟨n, .callEntryStart n⟩] else [], s)

/-- WAIT and SYNC of a running call that end (R221). -/
def planMicroWait (s : State) (n : Nat) : Plan :=
  let c := s.core n
  (match c.running with
    | some k =>
      if !c.longRuns || k.held || k.stepped then []
      else if k.waiting && k.busy == 0 then [⟨n, .microWaitExpiry n⟩]
      else if k.syncing && decide (k.land ≤ c.lclk) then [⟨n, .microSyncResume n⟩] else []
    | none => [], s)

/-- The slice and the side banks noted as an expander reads them on this clock (R341, R345). -/
def noteSlice (n : Nat) (s : State) : State := s.updCore n fun c => { c with past := ((c.slice, c.side) :: c.past).take 5 }

/-- The step of the running call of a core on this clock: its next micro-operation, or its next row; a word that is no
micro-operation, or none, is the microroutine fault (R221). -/
def planMicro (s : State) (n : Nat) : Plan :=
  let c := s.core n
  match c.running with
  | none => ([], s)
  | some k =>
    let now := { k with stepped := true }
    if !c.longRuns || k.held || k.stepped || k.fault.isSome then ([], s)
    else match k.kind with
    | .mcall _ =>
      let word := if k.word < 1024 then decodeMicro (Cells.get 0 k.word c.mpst).toNat else .error .noEncoding
      let t := match word with
        | .ok i => noteCodec n k i (noteSlice n s)
        | .error _ => noteSlice n s
      if 0 < k.busy then ([], putCall n { now with busy := k.busy - 1 } t)
      else if k.waiting || k.syncing then ([], s)
      else match word with
        | .ok i => ([⟨n, i⟩], putCall n now t)
        | .error _ => ([], faultCall n now microFault s)
    | .acdrn .. => if k.ended ≤ c.lclk then ([⟨n, .acdrnRowWrite n⟩], putCall n now s) else ([], s)
    | .aclr _ | .wswap => ([], s)

/-! ### Engine commands (R232, R237, R239, R254, R270, R271, R353, R367) -/

/-- The commands of partition p that pass a test, in issue order. -/
def State.cmdsOf (s : State) (p : Nat) (f : Cmd → Bool) : List Cmd :=
  if s.awake (p / 4) then (s.part p).cmds.filter f else []

/-- Has a command an access to make? A table load has its one, from the clock after its issue on (R265). -/
def Cmd.moves (c : Cmd) : Bool :=
  c.counts && (c.aux == 0 || !c.owed.isEmpty) && match c.kind with
  | .mcst | .drn | .ckpt | .txb | .txa => false
  | .table => decide (1 ≤ c.age)
  | _ => true

/-- A multicast row is due 24 clocks after the start and one each clock from there (R254). -/
def Cmd.rowDue (c : Cmd) : Bool := c.counts && c.kind == .mcst && c.aux == 0 && decide (24 + c.rows ≤ c.ran)

/-- The accesses of a partition's commands, those of TAKE apart: an entry appended on a clock can be taken on it (R311). Whether a
command makes one on a clock is a choice, where it must make none. -/
def planAccess (takes : Bool) (p : Nat) (s : State) (c : Cmd) : Plan :=
  if takes != (c.kind == .take && c.out.isEmpty) then ([], s)
  else if c.rowDue then ([⟨p / 4, .multicastRowLanding p c.id⟩], s)
  else if !c.moves && !c.commits s then ([], s)
  else
    let r := if c.kind = .table || c.must s then (1, s) else c.choose 0 2 s
    (turns (p / 4) r.1 (.farAccessArrival p c.id), r.2)

/-- The rows of a collective that land for a command on this clock: as many as must so that one may land on each clock left, and in
elastic mode a free number more (R367). -/
def planLandings (p : Nat) (s : State) (c : Cmd) : Plan :=
  if c.kind != .cgath || !c.counts then ([], s)
  else
    let here := (s.arrived c).length
    let left := (c.members s).length * c.cgRows - c.landed.length - c.left
    let r := if (s.core c.core).lock then (min here left, s) else
      let r := s.draw (here - min here left + 1)
      (min here left + r.1, r.2)
    (turns (p / 4) r.1 (.collectiveContributionLanding p c.id), r.2)

/-- The buffered writes of a partition's cluster that one command made, or that no command of the partition owns any more, and
that go on this clock. -/
def State.drainsOf (s : State) (p : Nat) (f : Nat → Bool) : List Posted :=
  ((s.cluster (clusterOf (p / 4))).posted.filter fun x => x.go && x.gpi == p && f x.cmd)

/-- Step 3 of R232 for one partition: of each of its commands in issue order the buffered writes that go on this clock, its next
access, and the landings of its collective. -/
def planFar (s : State) (p : Nat) : Plan :=
  let cmds := (s.part p).cmds
  let drains := fun (f : Nat → Bool) => turns (16 * clusterOf (p / 4)) (s.drainsOf p f).length (.postedWriteDrain (clusterOf (p / 4)))
  let r := cmds.foldl (fun (a : Plan) c =>
    let b := if s.awake (p / 4) then planAccess false p a.2 c else ([], a.2)
    let d := if s.awake (p / 4) then planLandings p b.2 c else ([], b.2)
    (a.1 ++ drains (fun id => id == c.id) ++ b.1 ++ d.1, d.2)) ([], s)
  (drains (fun id => cmds.all fun c => c.id != id) ++ r.1, r.2)

/-- The visits of a partition's TAKEs, which follow the appends of the clock (R312). -/
def planTakes (s : State) (p : Nat) : Plan :=
  (s.cmdsOf p fun _ => true).foldl (fun (a : Plan) c =>
    let b := planAccess true p a.2 c
    (a.1 ++ b.1, b.2)) ([], s)

/-- Does a buffered write go on this clock: where it must, else by its command's choice? -/
def goesNow (cl : Nat) (s : State) (x : Posted) : Bool × State :=
  if x.sent then (false, s)
  else match s.mustDrain cl x, s.cmd x.gpi x.cmd with
    | true, _ => (true, s)
    | false, none => (true, s)
    | false, some c =>
      let r := c.choose (64 + x.addr) 2 s
      (r.1 == 1, r.2)

/-- The buffered writes of a cluster that go to their owners on this clock, of those that no earlier one overlaps (R271). -/
def markDrains (s : State) (cl : Nat) : State :=
  let ps := (s.cluster cl).posted
  let r := (drainable [] ps).foldl (fun (a : List Nat × State) x =>
    let g := goesNow cl a.2 x
    (if g.1 then x.id :: a.1 else a.1, g.2)) ([], s)
  if ps.isEmpty then s
  else r.2.updCluster cl fun c => { c with posted := c.posted.map fun x => { x with go := r.1.contains x.id } }

/-- The rows that multicasts use on this clock, before any other (R340). -/
def reserveRows (s : State) (p : Nat) : State :=
  (s.cmdsOf p Cmd.rowDue).foldl (fun s c => reserveRow c s) s

/-- The far accesses, engine transfers and multicast rows of a clock, in ascending global partition index and then in issue order
(R232, R270). -/
def planFarAll (s : State) : Plan :=
  let t := s.partList.foldl reserveRows (s.clusterList.foldl markDrains s)
  planAll planFar s.partList t

/-- Walks that complete, and walks that take a walker, in order of arrival. -/
def planWalks (s : State) : Plan :=
  let done := s.walks.filter fun w => w.left == some 0
  (done.map fun w => ⟨w.gpi / 4, .pageWalkCompletion w.gpi w.cmd⟩, s)

def planNewWalks (s : State) : Plan :=
  ((s.walks.filter fun w => w.left.isNone).map fun w => ⟨w.gpi / 4, .pageWalk w.gpi w.cmd⟩, s)

def planComplete (s : State) (p : Nat) : Plan :=
  ((s.cmdsOf p s.finished).map fun c => ⟨p / 4, .commandCompletion p c.id⟩, s)

/-- The releases of a partition that first meet (a) of R274 note what their cluster's buffer holds. -/
def State.gates (p : Nat) (s : State) : State := ((s.part p).cmds).foldl noteGate s

def planGates (s : State) : Plan := ([], s.partList.foldl (fun s p => s.gates p) s)

/-- The commands of a partition that start, or whose start goes on (R239, R274). -/
def planStart (s : State) (p : Nat) : Plan :=
  ((s.cmdsOf p fun c => !c.counting && c.fault.isNone && !c.held && c.waits.isEmpty && (c.started || s.mayBegin c)).map
    fun c => ⟨p / 4, .commandStart p c.id⟩, s)

/-- Drains look at what they cover once the completions and starts of the clock are made, and again once its table loads have
landed (R237, R258, R265); so do the releases that the clock has issued (R274). -/
def planCovers (s : State) : Plan :=
  ([], s.partList.foldl (fun s p => State.gates p (if s.awake (p / 4) then s.drains p else s)) s)

/-! ### Checkpoints, barriers, bank power, resumption (R36, R315, R323, R334) -/

def planCheckpoint (s : State) : Plan :=
  ((s.activeCtxs.filter fun k => (s.runningKernels k).any fun x => x.2.cores.any fun n =>
      (partsOf n).any s.ckptArrived).map fun k => ⟨0, .checkpointComplete k⟩, s)

def planRelease (s : State) (p : Nat) : Plan :=
  let x := s.part p
  let out := fun (b : Option BarWait) => match b with
    | some b => b.released
    | none => false
  (if out x.barw || (match x.held with
      | some h => out h.barw
      | none => false) then [⟨p / 4, .barrierRelease p⟩] else [], s)

def planBankEnd (s : State) (p : Nat) : Plan :=
  ((List.range 4).filterMap fun b =>
    let k := (s.part p).bank b
    if k.left = 0 ∧ k.state ≠ k.target then some ⟨p / 4, .tbpwrTransitionEnd p b⟩ else none, s)

/-- Every access of the clock is made: what far accesses and multicast rows wrote enters the slices (R232, R279). -/
def planSettle (s : State) (ps : List Nat) (f : State → Nat → Plan) : Plan := planAll f ps s.settle

def planBankStart (s : State) (p : Nat) : Plan :=
  ((List.range 4).filterMap fun b =>
    if s.bankStarts p b then some ⟨p / 4, .tbpwrTransitionStart p b⟩ else none, s)

/-- The cores whose resumption falls on this clock. -/
def planResume (s : State) : Plan :=
  ((s.coreList.filter fun n => s.awake n && (match (s.core n).stop with
      | some h => h.resume == some 0
      | none => false) && (match (s.core n).kernel.bind s.kernel with
      | some k => k.stage == .running
      | none => true)).map fun n => ⟨n, .coreResume n⟩, s)

/-! ### Issue (R25, R86, R148, R264, R318, R321) -/

/-- Does core n issue on this clock: it holds a kernel, and is not frozen or stopped but in its handler? -/
def State.issues (s : State) (n : Nat) : Bool :=
  (s.core n).kernel.isSome && s.awake n && match (s.core n).stop with
  | none => true
  | some h => h.active

/-- May partition p issue: in handler state only the handler's partition does (R328)? -/
def State.mine (s : State) (p : Nat) : Bool :=
  match (s.core (p / 4)).stop with
  | none => true
  | some h => h.handler == some (p % 4)

/-- The partitions of core n that present a bundle or group. -/
def State.presenters (s : State) (n : Nat) : List Nat :=
  (partsOf n).filter fun p =>
    let x := s.part p
    s.mine p && x.run == .running && x.barw.isNone && !x.ckpt && x.hold == 0

/-- Is this clock a boundary of a partition (R318)? -/
def Part.boundary (x : Part) : Bool :=
  x.run != .running || x.barw.isSome || (x.group2.isNone && x.hold == 0)

/-- The trap pending at a partition's boundary: a software trap, else the first fault after commit met before this clock. In
handler state only the handler's own operations count. -/
def State.pendingTrap (s : State) (p : Nat) : Option TrapInfo :=
  let x := s.part p
  let from_ := match (s.core (p / 4)).stop with
    | some h => h.from_
    | none => 0
  if !x.boundary || !s.mine p then none
  else match x.trapNow with
    | some t => some t
    | none => ((x.late.take x.ripe).find? fun f => decide (from_ ≤ f.2)).map fun f => lateTrap s p f.1 f.2

/-- The steps by which traps are taken. -/
def trapPlan (n : Nat) (ts : List (Nat × TrapInfo)) (s : State) : Plan :=
  (ts.map fun t => ⟨n, .trapTake t.1⟩,
    ts.foldl (fun s t => s.updPart t.1 fun x => { x with trapNow := some t.2 }) s)

def issueOp (s : State) (p : Nat) : Instr :=
  if (s.part p).group2.isSome then .compactGroup2Issue p else .bundleIssue p

/-- Every result of core n that is due lands. -/
def landDue : Nat → Nat → Bool → State → State
  | 0, _, _, s => s
  | k + 1, n, tbl, s => landDue k n tbl (landNext n tbl s)

def Core.dueCount (c : Core) (tbl : Bool) : Nat :=
  (c.pend.filter fun l => decide (l.due ≤ c.tick) && isTable l.act == tbl).length

/-- One partition's presentation tried: the trap it comes to, and the state after it. -/
noncomputable def tryIssue (run : Instr → State → Out) (p : Nat) (s : State) : Option TrapInfo × State :=
  match run (issueOp s p) s with
  | .next t => match runStaged run t with
    | .next u => match presentTrap t u with
      | some i => (some i, putBack t u)
      | none => (none, finishIssue t u)
    | _ => (none, s)
  | _ => (none, s)

/-- The presentations of a clock tried in turn: the traps they come to, and the free choices they make. -/
noncomputable def tryAll (run : Instr → State → Out) : List Nat → State → List (Nat × TrapInfo) × State
  | [], s => ([], s)
  | p :: r, s =>
    let a := tryIssue run p s
    let b := tryAll run r a.2
    ((match a.1 with
      | some i => [(p, i)]
      | none => []) ++ b.1, b.2)

/-- Is a core of the kernel of core n stopped by a trap? -/
def State.trapped (s : State) (n : Nat) : Bool :=
  (s.kin n).any fun m => match (s.core m).stop with
    | some h => !h.quiet
    | none => false

/-- The stop that core n makes on this clock in place of issue: for a pre-emption, or because another core of its kernel
trapped or a checkpoint asks it (R300, R321, R334). -/
def stopTurn (s : State) (n : Nat) : Option Turn :=
  let c := s.core n
  let pre : Turn := ⟨n, .preemption (c.kernel.getD 0)⟩
  if c.stop.isSome then none
  else if (match c.stopAt with
      | some x => decide (x ≤ c.cycle)
      | none => false) then some (if c.stopReq && !s.trapped n then pre else ⟨n, .lockstepCoreStop n⟩)
  else if c.stopReq && !c.lock && (partsOf n).all (fun p => (s.part p).group2.isNone) then some pre
  else none

/-- Core n on this clock: one that no longer holds a kernel only lands its last results (R26); else it stops, or takes the traps pending at its boundaries; else its results land and its bundles
issue, unless one meets a fault, for then nothing of the core lands or commits (R318, R321, R322). -/
noncomputable def planCore (run : Instr → State → Out) (s : State) (n : Nat) : Plan :=
  if !s.issues n then
    (if (s.core n).kernel.isNone && s.awake n
      then turns n ((s.core n).dueCount false) (.resultLanding n) ++ turns n ((s.core n).dueCount true) (.tableLoadLanding n)
      else [], s)
  else match stopTurn s n with
    | some t => ([t], s)
    | none =>
      match (partsOf n).filterMap fun p => (s.pendingTrap p).map fun t => (p, t) with
      | t :: r => trapPlan n (t :: r) s
      | [] =>
        let c := s.core n
        let k := c.dueCount false
        let k2 := c.dueCount true
        let ps := s.presenters n
        let a := tryAll run ps (landDue k2 n true (landDue k n false s))
        if a.1.isEmpty then
          (turns n k (.resultLanding n) ++ turns n k2 (.tableLoadLanding n) ++ ps.map fun p => ⟨n, issueOp s p⟩, s)
        else trapPlan n a.1 { s with freeCtr := a.2.freeCtr }

/-- The aim of kernel id set, and what it does to each of its cores. -/
def setAim (id : Nat) (k : Kernel) (aim : Option Nat) (f : Core → Core) (s : State) : State :=
  k.cores.foldl (fun s n => s.updCore n f) (s.updKernel id fun x => { x with aim := aim })

/-- In lockstep mode the cores of a kernel that is to be pre-empted stop at one CYCLE value, the largest that one of them has.
A core that has reached it waits there, neither issuing nor counting, for the others. When all have, they stop; where one
then stands between the groups of a compact bundle, they go on to the next value (R300; DEDUCED, assumption log 23). Once a
core has stopped, or is to stop, for another reason, no core waits. -/
def aimStops (s : State) (x : Nat × Kernel) : State :=
  let k := x.2
  let cs := k.cores.map s.core
  if k.stage ≠ .stopping || !(s.ctx k.ctx).lock then s
  else if cs.any (fun c => c.stop.isSome || c.stopAt.isSome) then setAim x.1 k none (fun c => { c with poised := false }) s
  else
    let aim := k.aim.getD ((cs.map Core.cycle).foldl max 0)
    if cs.any fun c => decide (c.cycle < aim) then
      setAim x.1 k (some aim) (fun c => { c with poised := decide (aim ≤ c.cycle) }) s
    else if k.cores.all fun n => (partsOf n).all fun p => (s.part p).group2.isNone then
      setAim x.1 k none (fun c => { c with poised := false, stopAt := some aim }) s
    else setAim x.1 k (some (aim + 1)) (fun c => { c with poised := false }) s

def planAim (s : State) : Plan := ([], s.kernels.foldl aimStops s)

/-! ### The dispatch unit (R286, R290, R297, R298, R301, R330) -/

/-- The first kernel of a context that waits for clusters, once its queued report is written. A stopped dispatch unit starts none,
but a pre-empted one, already started, still runs to its end (R369; DEDUCED, assumption log 105). -/
def State.nextWaiting (s : State) (c : Nat) : Option (Nat × Kernel) :=
  (firstWaiting ((s.waiting c).filter fun x => !s.stalled || x.2.stage == .preempted)).filter fun x => x.2.report == 0

/-- Queues whose next packet begins dispatch: each on a free clock, the spec giving no time. -/
def planBegin (s : State) : Plan :=
  let owed := (s.kernels.filter fun x => x.2.report == 1).map fun x => x.2.queue
  let ready := (s.queues.map Prod.fst).filter s.mayDispatch
  let r := planAll (fun s q => let r := s.draw 2; (turns 0 r.1 (.dispatchBegin q), r.2)) ready s
  (owed.map (fun q => ⟨0, .dispatchBegin q⟩) ++ r.1, r.2)

/-- The next placement, of the lowest context that has one (R297, R301). -/
def planPlace (s : State) : Plan :=
  (((List.range 16).findSome? fun c => match s.nextWaiting c with
    | none => none
    | some x => if (s.placeFor [] x.2).isSome
        then some (⟨0, if x.2.stage = .preempted then .kernelResume x.1 else .kernelStart x.1⟩ : Turn) else none).toList, s)

/-- The kernels that a context pre-empts for the first it cannot place; those stopping already count as freed. -/
def State.newVictims (s : State) (c : Nat) : List Nat :=
  match s.nextWaiting c with
  | none => []
  | some x =>
    let going := (s.kernels.filter fun y => y.2.ctx == c && y.2.stage == .stopping).map Prod.fst
    if (s.placeFor going x.2).isSome then []
    else match s.enough x.2 (s.victims c x.2.prio) going (s.freeSlots c).length with
      | some vs => vs.filter fun v => !going.contains v
      | none => []

def planVictims (s : State) : Plan :=
  ((List.range 16).flatMap fun c => (s.newVictims c).map fun v => ⟨0, .preemption v⟩, s)

/-- Images to save, kernels and markers that end, and reports owed. -/
def planEnds (s : State) : Plan :=
  (s.kernels.filterMap fun x =>
    if x.2.stage = .stopping ∧ s.quiesced x.2 then some ⟨x.2.cores.headD 0, .preemption x.1⟩
    else if x.2.stage = .running ∧ x.2.report = 2 then some ⟨0, .kernelStart x.1⟩
    else if s.workDone x.2 || (x.2.stage == .marker && x.2.report == 0) || x.2.stage == .ending
      then some ⟨0, .kernelEnd x.1⟩
    else none, s)

def planDeactivate (s : State) : Plan :=
  (((List.range 16).filter s.idleCtx).map fun k => ⟨0, .contextDeactivate k⟩, s)

/-! ### The end of a clock -/

/-- Semaphores, repair, clearing, invalidation and frames whose time has run out (R338, R360, R365, R369, R372). -/
def planTimers (s : State) : Plan :=
  ((s.msem.filter fun m => m.2.owner != 0 && m.2.lease == 0).map (fun m => ⟨0, .leaseExpiry m.1⟩)
    ++ (if s.repair.left = some 0 then [⟨0, .repairComplete⟩] else [])
    ++ ((s.clusters.filter fun c => c.2.clearing == some 0).map fun c => ⟨0, .clusterClearDone c.1⟩)
    ++ (if s.tlbJobs.any fun j => j.2 == 0 then [⟨0, .tlbInvalidationDone⟩] else [])
    ++ ((s.flows.zipIdx.filter fun f => f.1.out.any fun o => o.left == 0).map fun f => ⟨0, .frameResend f.2⟩)
    ++ (s.flows.filterMap Flow.next).filterMap fun f => if s.frameWaits f then none else some ⟨0, .frameReceive f⟩, s)

def Cmd.tickOn (c : Cmd) : Cmd :=
  if c.held then c
  else if c.counts then { c with age := c.age + 1, ran := c.ran + 1, left := c.left - 1 }
  else { c with age := c.age + 1 }

def BarWait.tickOn (b : BarWait) : BarWait := { b with own := b.own + 1, left := b.left.map fun n => n - 1 }

def TBank.tickOn (b : TBank) : TBank := { b with left := b.left - 1 }

/-- One clock of a partition: long says whether long operations count it, bars whether releases on their way come nearer,
runs whether the partition may issue. A release comes nearer while a trap stops its core (R321), a bank's transition does
not in lockstep mode (DEDUCED, assumption log 73). -/
def Part.tickOn (long bars runs : Bool) (p : Part) : Part :=
  let p := { p with cmds := p.cmds.map Cmd.tickOn, hold := if runs then p.hold - 1 else p.hold }
  let p := if bars then { p with
    barw := p.barw.map BarWait.tickOn, held := p.held.map fun h => { h with barw := h.barw.map BarWait.tickOn } } else p
  if long then { p with banks := p.banks.map fun b => (b.1, b.2.tickOn) } else p

/-- One clock of a call: its step of the clock stays noted until its core's long operations have counted the clock. -/
def Call.tickOn (long : Bool) (k : Call) : Call :=
  if long then { k with stepped := false, age := k.age + 1, bands := k.bands.map fun n => n - 1 } else k

/-- Bands consuming planes on this clock (R378). -/
def Core.busyBands (c : Core) : Nat := ((c.calls.flatMap Call.bands).filter fun n => decide (0 < n)).length

/-- Does a core count the clock in CYCLE or FRZCNT: it holds a kernel that began before this clock, runs, and does not wait at
the CYCLE value of a pre-emption (R321)? Neither counts in a handler (R328 of CYCLE; of FRZCNT DEDUCED, assumption
log 86). -/
def Core.counting (c : Core) : Bool := c.kernel.isSome && c.begun && c.stop.isNone && !c.poised

/-- One clock of a core (R27, R60, R321). A kernel's CYCLE is 0 on the first clock on which it issues, and the clock on which
it starts counts nowhere. resumes says whether a resumption counts the clock: it counts the clocks of the die, the frozen
ones too (R328). -/
def Core.tickOn (resumes : Bool) (c : Core) : Core :=
  let d := { c with
    semaNow := [],
    begun := c.begun || c.kernel.isSome,
    stop := c.stop.map fun h => if resumes then { h with resume := h.resume.map fun n => n - 1 } else h }
  if c.frozen then { d with frz := if c.counting then c.frz + 1 else c.frz }
  else if c.poised then d
  else
    let long := c.longRuns
    { d with
      tick := c.tick + 1,
      lclk := if long then c.lclk + 1 else c.lclk,
      charge := c.charge + (if long then 12 * c.busyBands else 0),
      calls := c.calls.map (Call.tickOn long),
      cycle := if c.counting then c.cycle + 1 else c.cycle }

/-- Does the kernel of a core run, so that a resumption counts? -/
def State.kernelRuns (s : State) (c : Core) : Bool :=
  match c.kernel.bind s.kernel with
  | some k => k.stage == .running
  | none => true

def Flow.tickOn (f : Flow) : Flow := { f with out := f.out.map fun o => { o with left := o.left - 1 } }

/-- A management clock is every 24th (R372: 100 MHz). -/
def MSem.tickOn (m : MSem) : MSem := { m with lease := m.lease - 1 }

/-- The clock ends: every count of it moves on. -/
def State.tickOn (s : State) : State :=
  { s with
    clock := s.clock + 1,
    parts := s.parts.map (fun p => (p.1,
      let c := s.core (p.1 / 4)
      if c.frozen || c.poised then p.2
      else p.2.tickOn c.longRuns (c.longRuns || s.kernelRuns c) (c.stop.isNone || s.mine p.1))),
    cores := s.cores.map (fun c => (c.1, c.2.tickOn (s.kernelRuns c.2))),
    clusters := s.clusters.map (fun c => (c.1, { c.2 with clearing := c.2.clearing.map fun n => n - 1 })),
    walks := s.walks.map (fun w => { w with left := w.left.map fun n => n - 1 }),
    flows := s.flows.map Flow.tickOn,
    msem := if s.clock % 24 = 23 then s.msem.map (fun m => (m.1, m.2.tickOn)) else s.msem,
    repair := { s.repair with left := s.repair.left.map fun n => n - 1 },
    tlbJobs := s.tlbJobs.map fun j => (j.1, j.2 - 1) }

/-! ### The phases in order -/

/-- Phases that come back until they list nothing: inputs, and placements. -/
def repeats (ph : Nat) : Bool := ph == 2 || ph == 30 || ph == 34

/-- The steps of a phase that lists them at once. -/
def phasePlan (ph : Nat) (s : State) : Plan :=
  match ph with
  | 0 => planClock s
  | 1 => planAging s
  | 2 => planInput false s
  | 3 => planNear s
  | 4 => planAll matrixDue s.coreList s
  | 5 => planAll planCallStart s.coreList s
  | 6 => planAll planMicroWait s.coreList s
  | 7 => planAll planMicro s.coreList s
  | 8 => planFarAll s
  | 9 => planAll planTakes s.partList s
  | 10 => planGates s
  | 11 => ([], s.answer)
  | 12 => planWalks s
  | 13 => planAll planComplete s.partList s
  | 14 => planAll planStart s.partList s
  | 15 => planNewWalks s
  | 16 => planCovers s
  | 17 => planCheckpoint s
  | 18 => planAll planRelease s.partList s
  | 19 => planAll planBankEnd s.partList s
  | 20 => planResume s
  | 21 => planAim s
  | 23 => planCovers s
  | 24 => planAll planCallStart s.coreList s
  | 25 => planAll planMicroWait s.coreList s
  | 26 => planAll planMicro s.coreList s
  | 27 => planSettle s s.partList planBankStart
  | 28 => planEnds s
  | 29 => planBegin s
  | 30 => planPlace s
  | 31 => planVictims s
  | 32 => planDeactivate s
  | 33 => planTimers s
  | 34 => planInput true s
  | _ => ([], s.tickOn)

/-- The phase in which the cores issue, one after another in ascending order (R4). -/
def issuePhase : Nat := 22

/-- The last phase: the clock ends. -/
def lastPhase : Nat := 35

/-- The next phase listed: its steps are the agenda. A phase that repeats, and the phase of issue, come back until they have
nothing more. -/
noncomputable def nextPhase (run : Instr → State → Out) (s : State) : State :=
  if s.phase = issuePhase then
    match s.coreList.find? fun n => decide (s.phCore ≤ n) with
    | none => { s with phase := s.phase + 1, phCore := 0 }
    | some n =>
      let r := planCore run s n
      { r.2 with agenda := r.1, phCore := n + 1 }
  else
    let r := phasePlan s.phase s
    { r.2 with
      agenda := r.1,
      phase := if lastPhase ≤ s.phase then 0 else if repeats s.phase && !r.1.isEmpty then s.phase else s.phase + 1 }

end Sys2Proof.Machine
end

