-- ==== Sys2Proof/Machine/Scalar.lean ====
section
/-!
DEFINITION. The scalar block, majors 0x01 to 0x0D (R121 to R133): in slot 0 and, with the suffix Q, in slots 1 and 3.
The operations are the same; the slot's own immediate width follows the header (R119).
-/

namespace Sys2Proof.Machine

/-- ADD: a + b (R121). -/
def execAdd (d a b : Nat) (k m : Bool) (s : State) : Out :=
  scalar2 d a b k m 1 intAdd s

/-- ADD: a + b (R121, slots 1 and 3). -/
def execAddQ (d a b : Nat) (k m : Bool) (s : State) : Out :=
  scalar2 d a b k m 1 intAdd s

/-- SUB: a - b (R121). -/
def execSub (d a b : Nat) (k m : Bool) (s : State) : Out :=
  scalar2 d a b k m 1 intSub s

/-- SUB: a - b (R121, slots 1 and 3). -/
def execSubQ (d a b : Nat) (k m : Bool) (s : State) : Out :=
  scalar2 d a b k m 1 intSub s

/-- AND: a & b (R121). -/
def execAnd (d a b : Nat) (k m : Bool) (s : State) : Out :=
  scalar2 d a b k m 1 intAnd s

/-- AND: a & b (R121, slots 1 and 3). -/
def execAndQ (d a b : Nat) (k m : Bool) (s : State) : Out :=
  scalar2 d a b k m 1 intAnd s

/-- OR: a | b (R121). -/
def execOr (d a b : Nat) (k m : Bool) (s : State) : Out :=
  scalar2 d a b k m 1 intOr s

/-- OR: a | b (R121, slots 1 and 3). -/
def execOrQ (d a b : Nat) (k m : Bool) (s : State) : Out :=
  scalar2 d a b k m 1 intOr s

/-- XOR: a ^ b (R121). -/
def execXor (d a b : Nat) (k m : Bool) (s : State) : Out :=
  scalar2 d a b k m 1 intXor s

/-- XOR: a ^ b (R121, slots 1 and 3). -/
def execXorQ (d a b : Nat) (k m : Bool) (s : State) : Out :=
  scalar2 d a b k m 1 intXor s

/-- ANDN: a & ~b (R121). -/
def execAndn (d a b : Nat) (k m : Bool) (s : State) : Out :=
  scalar2 d a b k m 1 intAndn s

/-- ANDN: a & ~b (R121, slots 1 and 3). -/
def execAndnQ (d a b : Nat) (k m : Bool) (s : State) : Out :=
  scalar2 d a b k m 1 intAndn s

/-- SHL: a << b[5:0] (R121). -/
def execShl (d a b : Nat) (k m : Bool) (s : State) : Out :=
  scalar2 d a b k m 1 intShl s

/-- SHL: a << b[5:0] (R121, slots 1 and 3). -/
def execShlQ (d a b : Nat) (k m : Bool) (s : State) : Out :=
  scalar2 d a b k m 1 intShl s

/-- SHR: a >> b[5:0], logical (R121). -/
def execShr (d a b : Nat) (k m : Bool) (s : State) : Out :=
  scalar2 d a b k m 1 intShr s

/-- SHR: a >> b[5:0], logical (R121, slots 1 and 3). -/
def execShrQ (d a b : Nat) (k m : Bool) (s : State) : Out :=
  scalar2 d a b k m 1 intShr s

/-- SRA: a shifted right by b[5:0], sign bits entering (R121). -/
def execSra (d a b : Nat) (k m : Bool) (s : State) : Out :=
  scalar2 d a b k m 1 intSra s

/-- SRA: a shifted right by b[5:0], sign bits entering (R121, slots 1 and 3). -/
def execSraQ (d a b : Nat) (k m : Bool) (s : State) : Out :=
  scalar2 d a b k m 1 intSra s

/-- MIN: the signed minimum (R121). -/
def execMin (d a b : Nat) (k m : Bool) (s : State) : Out :=
  scalar2 d a b k m 1 intMin s

/-- MIN: the signed minimum (R121, slots 1 and 3). -/
def execMinQ (d a b : Nat) (k m : Bool) (s : State) : Out :=
  scalar2 d a b k m 1 intMin s

/-- MAX: the signed maximum (R121). -/
def execMax (d a b : Nat) (k m : Bool) (s : State) : Out :=
  scalar2 d a b k m 1 intMax s

/-- MAX: the signed maximum (R121, slots 1 and 3). -/
def execMaxQ (d a b : Nat) (k m : Bool) (s : State) : Out :=
  scalar2 d a b k m 1 intMax s

/-- MINU: the unsigned minimum (R121). -/
def execMinu (d a b : Nat) (k m : Bool) (s : State) : Out :=
  scalar2 d a b k m 1 intMinu s

/-- MINU: the unsigned minimum (R121, slots 1 and 3). -/
def execMinuQ (d a b : Nat) (k m : Bool) (s : State) : Out :=
  scalar2 d a b k m 1 intMinu s

/-- MAXU: the unsigned maximum (R121). -/
def execMaxu (d a b : Nat) (k m : Bool) (s : State) : Out :=
  scalar2 d a b k m 1 intMaxu s

/-- MAXU: the unsigned maximum (R121, slots 1 and 3). -/
def execMaxuQ (d a b : Nat) (k m : Bool) (s : State) : Out :=
  scalar2 d a b k m 1 intMaxu s

/-- ADDSS: the saturating sum; SAT if clamped (R121). -/
def execAddss (d a b : Nat) (k m : Bool) (s : State) : Out :=
  scalarFlag2 d a b k m 1 intAddss s

/-- ADDSS: the saturating sum; SAT if clamped (R121, slots 1 and 3). -/
def execAddssQ (d a b : Nat) (k m : Bool) (s : State) : Out :=
  scalarFlag2 d a b k m 1 intAddss s

/-- SUBSS: the saturating difference; SAT if clamped (R121). -/
def execSubss (d a b : Nat) (k m : Bool) (s : State) : Out :=
  scalarFlag2 d a b k m 1 intSubss s

/-- SUBSS: the saturating difference; SAT if clamped (R121, slots 1 and 3). -/
def execSubssQ (d a b : Nat) (k m : Bool) (s : State) : Out :=
  scalarFlag2 d a b k m 1 intSubss s

/-- MOV: the value of a (R121). -/
def execMov (d a : Nat) (k : Bool) (s : State) : Out :=
  scalar1 d a k 1 id s

/-- MOV: the value of a (R121, slots 1 and 3). -/
def execMovQ (d a : Nat) (k : Bool) (s : State) : Out :=
  scalar1 d a k 1 id s

/-- ADDI: a + sext(IMM) (R122). -/
def execAddi (d a : Nat) (k : Bool) (i : Nat) (s : State) : Out :=
  scalar1 d a k 1 (fun x => x + BitVec.ofInt 64 (s.immS i)) s

/-- ADDI: a + sext(IMM) (R122, slots 1 and 3). -/
def execAddiQ (d a : Nat) (k : Bool) (i : Nat) (s : State) : Out :=
  scalar1 d a k 1 (fun x => x + BitVec.ofInt 64 (s.immS i)) s

/-- LUI: sext(IMM) << sh (R123). -/
def execLui (d n i : Nat) (s : State) : Out :=
  .next (pushS d 1 0 (BitVec.ofInt 64 (s.immS i) <<< n) s)

/-- LUI: sext(IMM) << sh (R123, slots 1 and 3). -/
def execLuiQ (d n i : Nat) (s : State) : Out :=
  .next (pushS d 1 0 (BitVec.ofInt 64 (s.immS i) <<< n) s)

/-- MUL: the low half of the product (R124). -/
def execMul (d a b : Nat) (k m : Bool) (s : State) : Out :=
  scalar2 d a b k m 3 (fun x y => x * y) s

/-- MUL: the low half of the product (R124, slots 1 and 3). -/
def execMulQ (d a b : Nat) (k m : Bool) (s : State) : Out :=
  scalar2 d a b k m 3 (fun x y => x * y) s

/-- MULH: the high half of the signed product (R124). -/
def execMulh (d a b : Nat) (k m : Bool) (s : State) : Out :=
  scalar2 d a b k m 3 intMulh s

/-- MULH: the high half of the signed product (R124, slots 1 and 3). -/
def execMulhQ (d a b : Nat) (k m : Bool) (s : State) : Out :=
  scalar2 d a b k m 3 intMulh s

/-- MULHU: the high half of the unsigned product (R124). -/
def execMulhu (d a b : Nat) (k m : Bool) (s : State) : Out :=
  scalar2 d a b k m 3 intMulhu s

/-- MULHU: the high half of the unsigned product (R124, slots 1 and 3). -/
def execMulhuQ (d a b : Nat) (k m : Bool) (s : State) : Out :=
  scalar2 d a b k m 3 intMulhu s

/-- CLZ: leading zero bits (R125). -/
def execClz (d a : Nat) (k : Bool) (s : State) : Out :=
  scalar1 d a k 1 intClz s

/-- CLZ: leading zero bits (R125, slots 1 and 3). -/
def execClzQ (d a : Nat) (k : Bool) (s : State) : Out :=
  scalar1 d a k 1 intClz s

/-- CTZ: trailing zero bits (R125). -/
def execCtz (d a : Nat) (k : Bool) (s : State) : Out :=
  scalar1 d a k 1 intCtz s

/-- CTZ: trailing zero bits (R125, slots 1 and 3). -/
def execCtzQ (d a : Nat) (k : Bool) (s : State) : Out :=
  scalar1 d a k 1 intCtz s

/-- POPC: one bits (R125). -/
def execPopc (d a : Nat) (k : Bool) (s : State) : Out :=
  scalar1 d a k 1 intPopc s

/-- POPC: one bits (R125, slots 1 and 3). -/
def execPopcQ (d a : Nat) (k : Bool) (s : State) : Out :=
  scalar1 d a k 1 intPopc s

/-- SHLI: a << n, n = B + 32h (R125). -/
def execShli (d a n : Nat) (k h : Bool) (s : State) : Out :=
  scalar1 d a k 1 (fun x => x <<< (n + 32 * b2n h)) s

/-- SHLI: a << n, n = B + 32h (R125, slots 1 and 3). -/
def execShliQ (d a n : Nat) (k h : Bool) (s : State) : Out :=
  scalar1 d a k 1 (fun x => x <<< (n + 32 * b2n h)) s

/-- SHRI: logical right shift by n = B + 32h (R125). -/
def execShri (d a n : Nat) (k h : Bool) (s : State) : Out :=
  scalar1 d a k 1 (fun x => x >>> (n + 32 * b2n h)) s

/-- SHRI: logical right shift by n = B + 32h (R125, slots 1 and 3). -/
def execShriQ (d a n : Nat) (k h : Bool) (s : State) : Out :=
  scalar1 d a k 1 (fun x => x >>> (n + 32 * b2n h)) s

/-- SRAI: arithmetic right shift by n = B + 32h (R125). -/
def execSrai (d a n : Nat) (k h : Bool) (s : State) : Out :=
  scalar1 d a k 1 (fun x => x.sshiftRight (n + 32 * b2n h)) s

/-- SRAI: arithmetic right shift by n = B + 32h (R125, slots 1 and 3). -/
def execSraiQ (d a n : Nat) (k h : Bool) (s : State) : Out :=
  scalar1 d a k 1 (fun x => x.sshiftRight (n + 32 * b2n h)) s

/-- ADDX: (a + (b << sc)) mod 2^56 (R126). -/
def execAddx (d a b : Nat) (k m : Bool) (c : Nat) (s : State) : Out :=
  scalar2 d a b k m 1 (fun x y => addr56 (x + (y <<< c))) s

/-- ADDX: (a + (b << sc)) mod 2^56 (R126, slots 1 and 3). -/
def execAddxQ (d a b : Nat) (k m : Bool) (c : Nat) (s : State) : Out :=
  scalar2 d a b k m 1 (fun x y => addr56 (x + (y <<< c))) s

/-- SUBX: (a - (b << sc)) mod 2^56 (R126). -/
def execSubx (d a b : Nat) (k m : Bool) (c : Nat) (s : State) : Out :=
  scalar2 d a b k m 1 (fun x y => addr56 (x - (y <<< c))) s

/-- SUBX: (a - (b << sc)) mod 2^56 (R126, slots 1 and 3). -/
def execSubxQ (d a b : Nat) (k m : Bool) (c : Nat) (s : State) : Out :=
  scalar2 d a b k m 1 (fun x y => addr56 (x - (y <<< c))) s

/-- FADD: a + b rounded once (R127). -/
def execFadd (d a b : Nat) (k m r : Bool) (s : State) : Out :=
  float2 d a b k m r (fun md x y => sumNums md [x, y]) s

/-- FADD: a + b rounded once (R127, slots 1 and 3). -/
def execFaddQ (d a b : Nat) (k m r : Bool) (s : State) : Out :=
  float2 d a b k m r (fun md x y => sumNums md [x, y]) s

/-- FSUB: a - b rounded once (R127). -/
def execFsub (d a b : Nat) (k m r : Bool) (s : State) : Out :=
  float2 d a b k m r (fun md x y => sumNums md [x, negNum y]) s

/-- FSUB: a - b rounded once (R127, slots 1 and 3). -/
def execFsubQ (d a b : Nat) (k m r : Bool) (s : State) : Out :=
  float2 d a b k m r (fun md x y => sumNums md [x, negNum y]) s

/-- FMUL: a * b rounded once (R127). -/
def execFmul (d a b : Nat) (k m r : Bool) (s : State) : Out :=
  float2 d a b k m r (fun _ x y => mulNum x y) s

/-- FMUL: a * b rounded once (R127, slots 1 and 3). -/
def execFmulQ (d a b : Nat) (k m r : Bool) (s : State) : Out :=
  float2 d a b k m r (fun _ x y => mulNum x y) s

/-- FDIV: a / b rounded once (R127). -/
def execFdiv (d a b : Nat) (k m r : Bool) (s : State) : Out :=
  float2 d a b k m r (fun _ x y => divNum x y) s

/-- FDIV: a / b rounded once (R127, slots 1 and 3). -/
def execFdivQ (d a b : Nat) (k m r : Bool) (s : State) : Out :=
  float2 d a b k m r (fun _ x y => divNum x y) s

/-- FSQRT: the square root rounded once (R127). -/
def execFsqrt (d a : Nat) (k r : Bool) (s : State) : Out :=
  floatFlag1 d a k (fun x => sqrtRes (s.rmode (ownMode r)) (readFlt fmtBinary32 x)) s

/-- FSQRT: the square root rounded once (R127, slots 1 and 3). -/
def execFsqrtQ (d a : Nat) (k r : Bool) (s : State) : Out :=
  floatFlag1 d a k (fun x => sqrtRes (s.rmode (ownMode r)) (readFlt fmtBinary32 x)) s

/-- FMIN: the smaller, -0 below +0 (R127). -/
def execFmin (d a b : Nat) (k m : Bool) (s : State) : Out :=
  scalar2 d a b k m 4 (fun x y => w32 (fltExtreme fmtBinary32 true (lo32 x) (lo32 y))) s

/-- FMIN: the smaller, -0 below +0 (R127, slots 1 and 3). -/
def execFminQ (d a b : Nat) (k m : Bool) (s : State) : Out :=
  scalar2 d a b k m 4 (fun x y => w32 (fltExtreme fmtBinary32 true (lo32 x) (lo32 y))) s

/-- FMAX: the larger, -0 below +0 (R127). -/
def execFmax (d a b : Nat) (k m : Bool) (s : State) : Out :=
  scalar2 d a b k m 4 (fun x y => w32 (fltExtreme fmtBinary32 false (lo32 x) (lo32 y))) s

/-- FMAX: the larger, -0 below +0 (R127, slots 1 and 3). -/
def execFmaxQ (d a b : Nat) (k m : Bool) (s : State) : Out :=
  scalar2 d a b k m 4 (fun x y => w32 (fltExtreme fmtBinary32 false (lo32 x) (lo32 y))) s

/-- FABS: the sign cleared (R127). -/
def execFabs (d a : Nat) (k : Bool) (s : State) : Out :=
  scalar1 d a k 4 (fun x => w32 (fltSetSign fmtBinary32 false (lo32 x))) s

/-- FABS: the sign cleared (R127, slots 1 and 3). -/
def execFabsQ (d a : Nat) (k : Bool) (s : State) : Out :=
  scalar1 d a k 4 (fun x => w32 (fltSetSign fmtBinary32 false (lo32 x))) s

/-- FNEG: the sign inverted (R127). -/
def execFneg (d a : Nat) (k : Bool) (s : State) : Out :=
  scalar1 d a k 4 (fun x => w32 (fltSetSign fmtBinary32 (!bit (lo32 x) 31) (lo32 x))) s

/-- FNEG: the sign inverted (R127, slots 1 and 3). -/
def execFnegQ (d a : Nat) (k : Bool) (s : State) : Out :=
  scalar1 d a k 4 (fun x => w32 (fltSetSign fmtBinary32 (!bit (lo32 x) 31) (lo32 x))) s

/-- CVTIF: INT64 to binary32 (R128). -/
def execCvtif (d a : Nat) (k r : Bool) (s : State) : Out :=
  convert1 d a k r fmtInt64 (.flt fmtBinary32) false s

/-- CVTIF: INT64 to binary32 (R128, slots 1 and 3). -/
def execCvtifQ (d a : Nat) (k r : Bool) (s : State) : Out :=
  convert1 d a k r fmtInt64 (.flt fmtBinary32) false s

/-- CVTUF: UINT64 to binary32 (R128). -/
def execCvtuf (d a : Nat) (k r : Bool) (s : State) : Out :=
  convert1 d a k r fmtUint64 (.flt fmtBinary32) false s

/-- CVTUF: UINT64 to binary32 (R128, slots 1 and 3). -/
def execCvtufQ (d a : Nat) (k r : Bool) (s : State) : Out :=
  convert1 d a k r fmtUint64 (.flt fmtBinary32) false s

/-- CVTWF: INT32 to binary32 (R128). -/
def execCvtwf (d a : Nat) (k r : Bool) (s : State) : Out :=
  convert1 d a k r fmtInt32 (.flt fmtBinary32) false s

/-- CVTWF: INT32 to binary32 (R128, slots 1 and 3). -/
def execCvtwfQ (d a : Nat) (k r : Bool) (s : State) : Out :=
  convert1 d a k r fmtInt32 (.flt fmtBinary32) false s

/-- CVTFI: binary32 to INT64 (R128). -/
def execCvtfi (d a : Nat) (k r : Bool) (s : State) : Out :=
  convert1 d a k r (.flt fmtBinary32) fmtInt64 false s

/-- CVTFI: binary32 to INT64 (R128, slots 1 and 3). -/
def execCvtfiQ (d a : Nat) (k r : Bool) (s : State) : Out :=
  convert1 d a k r (.flt fmtBinary32) fmtInt64 false s

/-- CVTFU: binary32 to UINT64 (R128). -/
def execCvtfu (d a : Nat) (k r : Bool) (s : State) : Out :=
  convert1 d a k r (.flt fmtBinary32) fmtUint64 false s

/-- CVTFU: binary32 to UINT64 (R128, slots 1 and 3). -/
def execCvtfuQ (d a : Nat) (k r : Bool) (s : State) : Out :=
  convert1 d a k r (.flt fmtBinary32) fmtUint64 false s

/-- CVTFW: binary32 to INT32, sign-extended (R128). -/
def execCvtfw (d a : Nat) (k r : Bool) (s : State) : Out :=
  convert1 d a k r (.flt fmtBinary32) fmtInt32 true s

/-- CVTFW: binary32 to INT32, sign-extended (R128, slots 1 and 3). -/
def execCvtfwQ (d a : Nat) (k r : Bool) (s : State) : Out :=
  convert1 d a k r (.flt fmtBinary32) fmtInt32 true s

/-- CVTFWU: binary32 to UINT32, zero-extended (R128). -/
def execCvtfwu (d a : Nat) (k r : Bool) (s : State) : Out :=
  convert1 d a k r (.flt fmtBinary32) fmtUint32 false s

/-- CVTFWU: binary32 to UINT32, zero-extended (R128, slots 1 and 3). -/
def execCvtfwuQ (d a : Nat) (k r : Bool) (s : State) : Out :=
  convert1 d a k r (.flt fmtBinary32) fmtUint32 false s

/-- FEQ: pd := a = b, neither NaN (R130). -/
def execFeq (d a b : Nat) (k m : Bool) (s : State) : Out :=
  compare2 d a b k m 4 (fun x y => fltEq fmtBinary32 (lo32 x) (lo32 y)) s

/-- FEQ: pd := a = b, neither NaN (R130, slots 1 and 3). -/
def execFeqQ (d a b : Nat) (k m : Bool) (s : State) : Out :=
  compare2 d a b k m 4 (fun x y => fltEq fmtBinary32 (lo32 x) (lo32 y)) s

/-- FLT: pd := a < b, neither NaN (R130). -/
def execFlt (d a b : Nat) (k m : Bool) (s : State) : Out :=
  compare2 d a b k m 4 (fun x y => fltLt fmtBinary32 (lo32 x) (lo32 y)) s

/-- FLT: pd := a < b, neither NaN (R130, slots 1 and 3). -/
def execFltQ (d a b : Nat) (k m : Bool) (s : State) : Out :=
  compare2 d a b k m 4 (fun x y => fltLt fmtBinary32 (lo32 x) (lo32 y)) s

/-- FLE: pd := a ≤ b, neither NaN (R130). -/
def execFle (d a b : Nat) (k m : Bool) (s : State) : Out :=
  compare2 d a b k m 4 (fun x y => fltLe fmtBinary32 (lo32 x) (lo32 y)) s

/-- FLE: pd := a ≤ b, neither NaN (R130, slots 1 and 3). -/
def execFleQ (d a b : Nat) (k m : Bool) (s : State) : Out :=
  compare2 d a b k m 4 (fun x y => fltLe fmtBinary32 (lo32 x) (lo32 y)) s

/-- FUN: pd := a or b is NaN (R130). -/
def execFunord (d a b : Nat) (k m : Bool) (s : State) : Out :=
  compare2 d a b k m 4 (fun x y => fltUn fmtBinary32 (lo32 x) (lo32 y)) s

/-- FUN: pd := a or b is NaN (R130, slots 1 and 3). -/
def execFunordQ (d a b : Nat) (k m : Bool) (s : State) : Out :=
  compare2 d a b k m 4 (fun x y => fltUn fmtBinary32 (lo32 x) (lo32 y)) s

/-- CEQ: pd := a = b (R129). -/
def execCeq (d a b : Nat) (k m : Bool) (s : State) : Out :=
  compare2 d a b k m 1 (fun x y => x == y) s

/-- CEQ: pd := a = b (R129, slots 1 and 3). -/
def execCeqQ (d a b : Nat) (k m : Bool) (s : State) : Out :=
  compare2 d a b k m 1 (fun x y => x == y) s

/-- CNE: pd := a ≠ b (R129). -/
def execCne (d a b : Nat) (k m : Bool) (s : State) : Out :=
  compare2 d a b k m 1 (fun x y => x != y) s

/-- CNE: pd := a ≠ b (R129, slots 1 and 3). -/
def execCneQ (d a b : Nat) (k m : Bool) (s : State) : Out :=
  compare2 d a b k m 1 (fun x y => x != y) s

/-- CLT: pd := a < b signed (R129). -/
def execClt (d a b : Nat) (k m : Bool) (s : State) : Out :=
  compare2 d a b k m 1 (BitVec.slt) s

/-- CLT: pd := a < b signed (R129, slots 1 and 3). -/
def execCltQ (d a b : Nat) (k m : Bool) (s : State) : Out :=
  compare2 d a b k m 1 (BitVec.slt) s

/-- CLE: pd := a ≤ b signed (R129). -/
def execCle (d a b : Nat) (k m : Bool) (s : State) : Out :=
  compare2 d a b k m 1 (BitVec.sle) s

/-- CLE: pd := a ≤ b signed (R129, slots 1 and 3). -/
def execCleQ (d a b : Nat) (k m : Bool) (s : State) : Out :=
  compare2 d a b k m 1 (BitVec.sle) s

/-- CLTU: pd := a < b unsigned (R129). -/
def execCltu (d a b : Nat) (k m : Bool) (s : State) : Out :=
  compare2 d a b k m 1 (BitVec.ult) s

/-- CLTU: pd := a < b unsigned (R129, slots 1 and 3). -/
def execCltuQ (d a b : Nat) (k m : Bool) (s : State) : Out :=
  compare2 d a b k m 1 (BitVec.ult) s

/-- CLEU: pd := a ≤ b unsigned (R129). -/
def execCleu (d a b : Nat) (k m : Bool) (s : State) : Out :=
  compare2 d a b k m 1 (BitVec.ule) s

/-- CLEU: pd := a ≤ b unsigned (R129, slots 1 and 3). -/
def execCleuQ (d a b : Nat) (k m : Bool) (s : State) : Out :=
  compare2 d a b k m 1 (BitVec.ule) s

/-- CEQI: pd := a = imm (R131). -/
def execCeqi (p a : Nat) (k : Bool) (i : Nat) (s : State) : Out :=
  compareImm p a k i (fun x y => x == y) s

/-- CEQI: pd := a = imm (R131, slots 1 and 3). -/
def execCeqiQ (p a : Nat) (k : Bool) (i : Nat) (s : State) : Out :=
  compareImm p a k i (fun x y => x == y) s

/-- CNEI: pd := a ≠ imm (R131). -/
def execCnei (p a : Nat) (k : Bool) (i : Nat) (s : State) : Out :=
  compareImm p a k i (fun x y => x != y) s

/-- CNEI: pd := a ≠ imm (R131, slots 1 and 3). -/
def execCneiQ (p a : Nat) (k : Bool) (i : Nat) (s : State) : Out :=
  compareImm p a k i (fun x y => x != y) s

/-- CLTI: pd := a < imm signed (R131). -/
def execClti (p a : Nat) (k : Bool) (i : Nat) (s : State) : Out :=
  compareImm p a k i (BitVec.slt) s

/-- CLTI: pd := a < imm signed (R131, slots 1 and 3). -/
def execCltiQ (p a : Nat) (k : Bool) (i : Nat) (s : State) : Out :=
  compareImm p a k i (BitVec.slt) s

/-- CLTUI: pd := a < imm unsigned (R131). -/
def execCltui (p a : Nat) (k : Bool) (i : Nat) (s : State) : Out :=
  compareImm p a k i (BitVec.ult) s

/-- CLTUI: pd := a < imm unsigned (R131, slots 1 and 3). -/
def execCltuiQ (p a : Nat) (k : Bool) (i : Nat) (s : State) : Out :=
  compareImm p a k i (BitVec.ult) s

/-- SEL: a when the predicate reads 1, else b; both are read (R133). -/
def execSel (d a b : Nat) (k m : Bool) (p : Nat) (s : State) : Out :=
  scalar2 d a b k m 1 (fun x y => if s.pred p then x else y) s

/-- SEL: a when the predicate reads 1, else b; both are read (R133, slots 1 and 3). -/
def execSelQ (d a b : Nat) (k m : Bool) (p : Nat) (s : State) : Out :=
  scalar2 d a b k m 1 (fun x y => if s.pred p then x else y) s

/-- PAND: pa and pb (R132). -/
def execPand (d a b : Nat) (s : State) : Out :=
  .next (writeP d 1 (s.pred a && s.pred b) s)

/-- PAND: pa and pb (R132, slots 1 and 3). -/
def execPandQ (d a b : Nat) (s : State) : Out :=
  .next (writeP d 1 (s.pred a && s.pred b) s)

/-- POR: pa or pb (R132). -/
def execPor (d a b : Nat) (s : State) : Out :=
  .next (writeP d 1 (s.pred a || s.pred b) s)

/-- POR: pa or pb (R132, slots 1 and 3). -/
def execPorQ (d a b : Nat) (s : State) : Out :=
  .next (writeP d 1 (s.pred a || s.pred b) s)

/-- PXOR: pa xor pb (R132). -/
def execPxor (d a b : Nat) (s : State) : Out :=
  .next (writeP d 1 (s.pred a != s.pred b) s)

/-- PXOR: pa xor pb (R132, slots 1 and 3). -/
def execPxorQ (d a b : Nat) (s : State) : Out :=
  .next (writeP d 1 (s.pred a != s.pred b) s)

/-- PANDN: pa and not pb (R132). -/
def execPandn (d a b : Nat) (s : State) : Out :=
  .next (writeP d 1 (s.pred a && !s.pred b) s)

/-- PANDN: pa and not pb (R132, slots 1 and 3). -/
def execPandnQ (d a b : Nat) (s : State) : Out :=
  .next (writeP d 1 (s.pred a && !s.pred b) s)

/-- PNOT: not pa (R132). -/
def execPnot (d a : Nat) (s : State) : Out :=
  .next (writeP d 1 (!s.pred a) s)

/-- PNOT: not pa (R132, slots 1 and 3). -/
def execPnotQ (d a : Nat) (s : State) : Out :=
  .next (writeP d 1 (!s.pred a) s)

/-- PSET: 1 (R132). -/
def execPset (d : Nat) (s : State) : Out :=
  .next (writeP d 1 true s)

/-- PSET: 1 (R132, slots 1 and 3). -/
def execPsetQ (d : Nat) (s : State) : Out :=
  .next (writeP d 1 true s)

/-- PCLR: 0 (R132). -/
def execPclr (d : Nat) (s : State) : Out :=
  .next (writeP d 1 false s)

/-- PCLR: 0 (R132, slots 1 and 3). -/
def execPclrQ (d : Nat) (s : State) : Out :=
  .next (writeP d 1 false s)

end Sys2Proof.Machine
end

