-- ==== Sys2Proof/Machine/Dispatch.lean ====
section
/-!
DEFINITION. The dispatch of a step to its meaning: one arm for each constructor of Instr.
-/

namespace Sys2Proof.Machine

/-- The meaning of every step of the part. -/
def exec (i : Instr) (s : State) : Host.Outcome State Fault Refusal :=
  match i with
  | .bundleIssue p => Sys2Proof.Machine.execBundleIssue p s
  | .compactGroup2Issue p => Sys2Proof.Machine.execCompactGroup2Issue p s
  | .resultLanding n => Sys2Proof.Machine.execResultLanding n s
  | .slot2Perform n => Sys2Proof.Machine.execSlot2Perform n s
  | .tbpwrTransitionStart p b => Sys2Proof.Machine.execTbpwrTransitionStart p b s
  | .tbpwrTransitionEnd p b => Sys2Proof.Machine.execTbpwrTransitionEnd p b s
  | .callEntryStart n => Sys2Proof.Machine.execCallEntryStart n s
  | .aclrEntryExecute n => Sys2Proof.Machine.execAclrEntryExecute n s
  | .acdrnRowWrite n => Sys2Proof.Machine.execAcdrnRowWrite n s
  | .acdrnTagSet n => Sys2Proof.Machine.execAcdrnTagSet n s
  | .microWaitExpiry n => Sys2Proof.Machine.execMicroWaitExpiry n s
  | .microSyncResume n => Sys2Proof.Machine.execMicroSyncResume n s
  | .accumulatorRowLanding n => Sys2Proof.Machine.execAccumulatorRowLanding n s
  | .weightBankLoadDone n => Sys2Proof.Machine.execWeightBankLoadDone n s
  | .mcallCompletion n => Sys2Proof.Machine.execMcallCompletion n s
  | .commandStart p c => Sys2Proof.Machine.execCommandStart p c s
  | .commandCompletion p c => Sys2Proof.Machine.execCommandCompletion p c s
  | .farAccessArrival p c => Sys2Proof.Machine.execFarAccessArrival p c s
  | .postedWriteDrain cl => Sys2Proof.Machine.execPostedWriteDrain cl s
  | .multicastRowLanding p c => Sys2Proof.Machine.execMulticastRowLanding p c s
  | .tableLoadLanding n => Sys2Proof.Machine.execTableLoadLanding n s
  | .collectiveContributionLanding p c => Sys2Proof.Machine.execCollectiveContributionLanding p c s
  | .checkpointComplete k => Sys2Proof.Machine.execCheckpointComplete k s
  | .barrierRelease p => Sys2Proof.Machine.execBarrierRelease p s
  | .trapTake p => Sys2Proof.Machine.execTrapTake p s
  | .lockstepCoreStop n => Sys2Proof.Machine.execLockstepCoreStop n s
  | .corectlResume n => Sys2Proof.Machine.execCorectlResume n s
  | .corectlHenter n v => Sys2Proof.Machine.execCorectlHenter n v s
  | .coreResume n => Sys2Proof.Machine.execCoreResume n s
  | .preemption k => Sys2Proof.Machine.execPreemption k s
  | .kernelResume k => Sys2Proof.Machine.execKernelResume k s
  | .priorityAging k => Sys2Proof.Machine.execPriorityAging k s
  | .budgetPeriodStart k => Sys2Proof.Machine.execBudgetPeriodStart k s
  | .qnotifyWrite q w => Sys2Proof.Machine.execQnotifyWrite q w s
  | .ctxenSet k => Sys2Proof.Machine.execCtxenSet k s
  | .ctxenClear k => Sys2Proof.Machine.execCtxenClear k s
  | .contextDeactivate k => Sys2Proof.Machine.execContextDeactivate k s
  | .ctxstWrite v => Sys2Proof.Machine.execCtxstWrite v s
  | .ctxseedWrite k v => Sys2Proof.Machine.execCtxseedWrite k v s
  | .dispatchBegin q => Sys2Proof.Machine.execDispatchBegin q s
  | .kernelStart k => Sys2Proof.Machine.execKernelStart k s
  | .kernelEnd k => Sys2Proof.Machine.execKernelEnd k s
  | .tlbinvWrite v => Sys2Proof.Machine.execTlbinvWrite v s
  | .tlbInvalidationDone => Sys2Proof.Machine.execTlbInvalidationDone s
  | .pageWalk p c => Sys2Proof.Machine.execPageWalk p c s
  | .correctedError die cls => Sys2Proof.Machine.execCorrectedError die cls s
  | .scrubRow n bg => Sys2Proof.Machine.execScrubRow n bg s
  | .uncorrectableError die cls k a => Sys2Proof.Machine.execUncorrectableError die cls k a s
  | .unownedError die cls w a => Sys2Proof.Machine.execUnownedError die cls w a s
  | .clusterClearDone cl => Sys2Proof.Machine.execClusterClearDone cl s
  | .uestatWrite die v => Sys2Proof.Machine.execUestatWrite die v s
  | .ckstWrite k v => Sys2Proof.Machine.execCkstWrite k v s
  | .retireCore cl pos => Sys2Proof.Machine.execRetireCore cl pos s
  | .retireRow n b row => Sys2Proof.Machine.execRetireRow n b row s
  | .retireCluster cl => Sys2Proof.Machine.execRetireCluster cl s
  | .repairComplete => Sys2Proof.Machine.execRepairComplete s
  | .frameReceive f => Sys2Proof.Machine.execFrameReceive f s
  | .frameAckReceive fl seq refused => Sys2Proof.Machine.execFrameAckReceive fl seq refused s
  | .frameResend fl => Sys2Proof.Machine.execFrameResend fl s
  | .pcfgWrite who port v => Sys2Proof.Machine.execPcfgWrite who port v s
  | .portRetrain port => Sys2Proof.Machine.execPortRetrain port s
  | .ridarFlitFailure => Sys2Proof.Machine.execRidarFlitFailure s
  | .mgmtRequest port session wr pa v => Sys2Proof.Machine.execMgmtRequest port session wr pa v s
  | .msemAcquire who k lease => Sys2Proof.Machine.execMsemAcquire who k lease s
  | .msemRelease who k => Sys2Proof.Machine.execMsemRelease who k s
  | .leaseExpiry k => Sys2Proof.Machine.execLeaseExpiry k s
  | .mailboxWriteFlashBlock who blk => Sys2Proof.Machine.execMailboxWriteFlashBlock who blk s
  | .mailboxReadFlashBlock who blk => Sys2Proof.Machine.execMailboxReadFlashBlock who blk s
  | .mailboxReadMeasurement who idx => Sys2Proof.Machine.execMailboxReadMeasurement who idx s
  | .mailboxAdvanceCounter who => Sys2Proof.Machine.execMailboxAdvanceCounter who s
  | .powerOnBoot => Sys2Proof.Machine.execPowerOnBoot s
  | .getMeasurements port => Sys2Proof.Machine.execGetMeasurements port s
  | .deviceReset => Sys2Proof.Machine.execDeviceReset s
  | .thermalAlarmBegin => Sys2Proof.Machine.execThermalAlarmBegin s
  | .thermalAlarmEnd => Sys2Proof.Machine.execThermalAlarmEnd s
  | .supplyTrip => Sys2Proof.Machine.execSupplyTrip s
  | .governorClock => Sys2Proof.Machine.execGovernorClock s
  | .glimitWrite who cl v => Sys2Proof.Machine.execGlimitWrite who cl v s
  | .irouteWrite n v => Sys2Proof.Machine.execIrouteWrite n v s
  | .hartMemoryAccess h a => Sys2Proof.Machine.execHartMemoryAccess h a s
  | .hartRegisterAccessFault h pa => Sys2Proof.Machine.execHartRegisterAccessFault h pa s
  | .registerWrite who pa v => Sys2Proof.Machine.execRegisterWrite who pa v s
  | .pageWalkCompletion p c => Sys2Proof.Machine.execPageWalkCompletion p c s
  | .storageDmaAccess wr pa v => Sys2Proof.Machine.execStorageDmaAccess wr pa v s
  | .uUnop => Sys2Proof.Machine.execUUnop s
  | .uWld pa pb bk tr h => Sys2Proof.Machine.execUWld pa pb bk tr h s
  | .uWsw => Sys2Proof.Machine.execUWsw s
  | .uWz bk => Sys2Proof.Machine.execUWz bk s
  | .uStrm acc row cnt pa osel => Sys2Proof.Machine.execUStrm acc row cnt pa osel s
  | .uStrmz acc row cnt pa osel => Sys2Proof.Machine.execUStrmz acc row cnt pa osel s
  | .uAclr acc => Sys2Proof.Machine.execUAclr acc s
  | .uDrn acc row cnt pa => Sys2Proof.Machine.execUDrn acc row cnt pa s
  | .uAst acc row cnt pa => Sys2Proof.Machine.execUAst acc row cnt pa s
  | .uAaddm acc row cnt pa => Sys2Proof.Machine.execUAaddm acc row cnt pa s
  | .uAadd acc row cnt pb => Sys2Proof.Machine.execUAadd acc row cnt pb s
  | .uAdv pa imm => Sys2Proof.Machine.execUAdv pa imm s
  | .uAdvs pa imm => Sys2Proof.Machine.execUAdvs pa imm s
  | .uMovp pa pb => Sys2Proof.Machine.execUMovp pa pb s
  | .uIdxl pb => Sys2Proof.Machine.execUIdxl pb s
  | .uIdxa imm => Sys2Proof.Machine.execUIdxa imm s
  | .uMems imm => Sys2Proof.Machine.execUMems imm s
  | .uMema imm => Sys2Proof.Machine.execUMema imm s
  | .uLset lc imm => Sys2Proof.Machine.execULset lc imm s
  | .uLdec lc tgt => Sys2Proof.Machine.execULdec lc tgt s
  | .uJmp tgt => Sys2Proof.Machine.execUJmp tgt s
  | .uWait imm => Sys2Proof.Machine.execUWait imm s
  | .uSync => Sys2Proof.Machine.execUSync s
  | .uEnd => Sys2Proof.Machine.execUEnd s
  | .nop => Sys2Proof.Machine.execNop s
  | .add d a b k m => Sys2Proof.Machine.execAdd d a b k m s
  | .addQ d a b k m => Sys2Proof.Machine.execAddQ d a b k m s
  | .sub d a b k m => Sys2Proof.Machine.execSub d a b k m s
  | .subQ d a b k m => Sys2Proof.Machine.execSubQ d a b k m s
  | .and d a b k m => Sys2Proof.Machine.execAnd d a b k m s
  | .andQ d a b k m => Sys2Proof.Machine.execAndQ d a b k m s
  | .or d a b k m => Sys2Proof.Machine.execOr d a b k m s
  | .orQ d a b k m => Sys2Proof.Machine.execOrQ d a b k m s
  | .xor d a b k m => Sys2Proof.Machine.execXor d a b k m s
  | .xorQ d a b k m => Sys2Proof.Machine.execXorQ d a b k m s
  | .andn d a b k m => Sys2Proof.Machine.execAndn d a b k m s
  | .andnQ d a b k m => Sys2Proof.Machine.execAndnQ d a b k m s
  | .shl d a b k m => Sys2Proof.Machine.execShl d a b k m s
  | .shlQ d a b k m => Sys2Proof.Machine.execShlQ d a b k m s
  | .shr d a b k m => Sys2Proof.Machine.execShr d a b k m s
  | .shrQ d a b k m => Sys2Proof.Machine.execShrQ d a b k m s
  | .sra d a b k m => Sys2Proof.Machine.execSra d a b k m s
  | .sraQ d a b k m => Sys2Proof.Machine.execSraQ d a b k m s
  | .min d a b k m => Sys2Proof.Machine.execMin d a b k m s
  | .minQ d a b k m => Sys2Proof.Machine.execMinQ d a b k m s
  | .max d a b k m => Sys2Proof.Machine.execMax d a b k m s
  | .maxQ d a b k m => Sys2Proof.Machine.execMaxQ d a b k m s
  | .minu d a b k m => Sys2Proof.Machine.execMinu d a b k m s
  | .minuQ d a b k m => Sys2Proof.Machine.execMinuQ d a b k m s
  | .maxu d a b k m => Sys2Proof.Machine.execMaxu d a b k m s
  | .maxuQ d a b k m => Sys2Proof.Machine.execMaxuQ d a b k m s
  | .addss d a b k m => Sys2Proof.Machine.execAddss d a b k m s
  | .addssQ d a b k m => Sys2Proof.Machine.execAddssQ d a b k m s
  | .subss d a b k m => Sys2Proof.Machine.execSubss d a b k m s
  | .subssQ d a b k m => Sys2Proof.Machine.execSubssQ d a b k m s
  | .mov d a k => Sys2Proof.Machine.execMov d a k s
  | .movQ d a k => Sys2Proof.Machine.execMovQ d a k s
  | .addi d a k imm => Sys2Proof.Machine.execAddi d a k imm s
  | .addiQ d a k imm => Sys2Proof.Machine.execAddiQ d a k imm s
  | .lui d s2 imm => Sys2Proof.Machine.execLui d s2 imm s
  | .luiQ d s2 imm => Sys2Proof.Machine.execLuiQ d s2 imm s
  | .mul d a b k m => Sys2Proof.Machine.execMul d a b k m s
  | .mulQ d a b k m => Sys2Proof.Machine.execMulQ d a b k m s
  | .mulh d a b k m => Sys2Proof.Machine.execMulh d a b k m s
  | .mulhQ d a b k m => Sys2Proof.Machine.execMulhQ d a b k m s
  | .mulhu d a b k m => Sys2Proof.Machine.execMulhu d a b k m s
  | .mulhuQ d a b k m => Sys2Proof.Machine.execMulhuQ d a b k m s
  | .fadd d a b k m r => Sys2Proof.Machine.execFadd d a b k m r s
  | .faddQ d a b k m r => Sys2Proof.Machine.execFaddQ d a b k m r s
  | .fsub d a b k m r => Sys2Proof.Machine.execFsub d a b k m r s
  | .fsubQ d a b k m r => Sys2Proof.Machine.execFsubQ d a b k m r s
  | .fmul d a b k m r => Sys2Proof.Machine.execFmul d a b k m r s
  | .fmulQ d a b k m r => Sys2Proof.Machine.execFmulQ d a b k m r s
  | .fdiv d a b k m r => Sys2Proof.Machine.execFdiv d a b k m r s
  | .fdivQ d a b k m r => Sys2Proof.Machine.execFdivQ d a b k m r s
  | .fsqrt d a k r => Sys2Proof.Machine.execFsqrt d a k r s
  | .fsqrtQ d a k r => Sys2Proof.Machine.execFsqrtQ d a k r s
  | .fmin d a b k m => Sys2Proof.Machine.execFmin d a b k m s
  | .fminQ d a b k m => Sys2Proof.Machine.execFminQ d a b k m s
  | .fmax d a b k m => Sys2Proof.Machine.execFmax d a b k m s
  | .fmaxQ d a b k m => Sys2Proof.Machine.execFmaxQ d a b k m s
  | .fabs d a k => Sys2Proof.Machine.execFabs d a k s
  | .fabsQ d a k => Sys2Proof.Machine.execFabsQ d a k s
  | .fneg d a k => Sys2Proof.Machine.execFneg d a k s
  | .fnegQ d a k => Sys2Proof.Machine.execFnegQ d a k s
  | .feq d a b k m => Sys2Proof.Machine.execFeq d a b k m s
  | .feqQ d a b k m => Sys2Proof.Machine.execFeqQ d a b k m s
  | .flt d a b k m => Sys2Proof.Machine.execFlt d a b k m s
  | .fltQ d a b k m => Sys2Proof.Machine.execFltQ d a b k m s
  | .fle d a b k m => Sys2Proof.Machine.execFle d a b k m s
  | .fleQ d a b k m => Sys2Proof.Machine.execFleQ d a b k m s
  | .funord d a b k m => Sys2Proof.Machine.execFunord d a b k m s
  | .funordQ d a b k m => Sys2Proof.Machine.execFunordQ d a b k m s
  | .ceq d a b k m => Sys2Proof.Machine.execCeq d a b k m s
  | .ceqQ d a b k m => Sys2Proof.Machine.execCeqQ d a b k m s
  | .cne d a b k m => Sys2Proof.Machine.execCne d a b k m s
  | .cneQ d a b k m => Sys2Proof.Machine.execCneQ d a b k m s
  | .clt d a b k m => Sys2Proof.Machine.execClt d a b k m s
  | .cltQ d a b k m => Sys2Proof.Machine.execCltQ d a b k m s
  | .cle d a b k m => Sys2Proof.Machine.execCle d a b k m s
  | .cleQ d a b k m => Sys2Proof.Machine.execCleQ d a b k m s
  | .cltu d a b k m => Sys2Proof.Machine.execCltu d a b k m s
  | .cltuQ d a b k m => Sys2Proof.Machine.execCltuQ d a b k m s
  | .cleu d a b k m => Sys2Proof.Machine.execCleu d a b k m s
  | .cleuQ d a b k m => Sys2Proof.Machine.execCleuQ d a b k m s
  | .ceqi p a k imm => Sys2Proof.Machine.execCeqi p a k imm s
  | .ceqiQ p a k imm => Sys2Proof.Machine.execCeqiQ p a k imm s
  | .cnei p a k imm => Sys2Proof.Machine.execCnei p a k imm s
  | .cneiQ p a k imm => Sys2Proof.Machine.execCneiQ p a k imm s
  | .clti p a k imm => Sys2Proof.Machine.execClti p a k imm s
  | .cltiQ p a k imm => Sys2Proof.Machine.execCltiQ p a k imm s
  | .cltui p a k imm => Sys2Proof.Machine.execCltui p a k imm s
  | .cltuiQ p a k imm => Sys2Proof.Machine.execCltuiQ p a k imm s
  | .sel d a b k m p => Sys2Proof.Machine.execSel d a b k m p s
  | .selQ d a b k m p => Sys2Proof.Machine.execSelQ d a b k m p s
  | .clz d a k => Sys2Proof.Machine.execClz d a k s
  | .clzQ d a k => Sys2Proof.Machine.execClzQ d a k s
  | .ctz d a k => Sys2Proof.Machine.execCtz d a k s
  | .ctzQ d a k => Sys2Proof.Machine.execCtzQ d a k s
  | .popc d a k => Sys2Proof.Machine.execPopc d a k s
  | .popcQ d a k => Sys2Proof.Machine.execPopcQ d a k s
  | .shli d a n k h => Sys2Proof.Machine.execShli d a n k h s
  | .shliQ d a n k h => Sys2Proof.Machine.execShliQ d a n k h s
  | .shri d a n k h => Sys2Proof.Machine.execShri d a n k h s
  | .shriQ d a n k h => Sys2Proof.Machine.execShriQ d a n k h s
  | .srai d a n k h => Sys2Proof.Machine.execSrai d a n k h s
  | .sraiQ d a n k h => Sys2Proof.Machine.execSraiQ d a n k h s
  | .pand d a b => Sys2Proof.Machine.execPand d a b s
  | .pandQ d a b => Sys2Proof.Machine.execPandQ d a b s
  | .por d a b => Sys2Proof.Machine.execPor d a b s
  | .porQ d a b => Sys2Proof.Machine.execPorQ d a b s
  | .pxor d a b => Sys2Proof.Machine.execPxor d a b s
  | .pxorQ d a b => Sys2Proof.Machine.execPxorQ d a b s
  | .pandn d a b => Sys2Proof.Machine.execPandn d a b s
  | .pandnQ d a b => Sys2Proof.Machine.execPandnQ d a b s
  | .pnot d a => Sys2Proof.Machine.execPnot d a s
  | .pnotQ d a => Sys2Proof.Machine.execPnotQ d a s
  | .pset d => Sys2Proof.Machine.execPset d s
  | .psetQ d => Sys2Proof.Machine.execPsetQ d s
  | .pclr d => Sys2Proof.Machine.execPclr d s
  | .pclrQ d => Sys2Proof.Machine.execPclrQ d s
  | .cvtif d a k r => Sys2Proof.Machine.execCvtif d a k r s
  | .cvtifQ d a k r => Sys2Proof.Machine.execCvtifQ d a k r s
  | .cvtuf d a k r => Sys2Proof.Machine.execCvtuf d a k r s
  | .cvtufQ d a k r => Sys2Proof.Machine.execCvtufQ d a k r s
  | .cvtwf d a k r => Sys2Proof.Machine.execCvtwf d a k r s
  | .cvtwfQ d a k r => Sys2Proof.Machine.execCvtwfQ d a k r s
  | .cvtfi d a k r => Sys2Proof.Machine.execCvtfi d a k r s
  | .cvtfiQ d a k r => Sys2Proof.Machine.execCvtfiQ d a k r s
  | .cvtfu d a k r => Sys2Proof.Machine.execCvtfu d a k r s
  | .cvtfuQ d a k r => Sys2Proof.Machine.execCvtfuQ d a k r s
  | .cvtfw d a k r => Sys2Proof.Machine.execCvtfw d a k r s
  | .cvtfwQ d a k r => Sys2Proof.Machine.execCvtfwQ d a k r s
  | .cvtfwu d a k r => Sys2Proof.Machine.execCvtfwu d a k r s
  | .cvtfwuQ d a k r => Sys2Proof.Machine.execCvtfwuQ d a k r s
  | .addx d a b k m s2 => Sys2Proof.Machine.execAddx d a b k m s2 s
  | .addxQ d a b k m s2 => Sys2Proof.Machine.execAddxQ d a b k m s2 s
  | .subx d a b k m s2 => Sys2Proof.Machine.execSubx d a b k m s2 s
  | .subxQ d a b k m s2 => Sys2Proof.Machine.execSubxQ d a b k m s2 s
  | .brt p d => Sys2Proof.Machine.execBrt p d s
  | .brf p d => Sys2Proof.Machine.execBrf p d s
  | .jump d => Sys2Proof.Machine.execJump d s
  | .call d => Sys2Proof.Machine.execCall d s
  | .callt p d => Sys2Proof.Machine.execCallt p d s
  | .callf p d => Sys2Proof.Machine.execCallf p d s
  | .jr a k => Sys2Proof.Machine.execJr a k s
  | .jrl d a k => Sys2Proof.Machine.execJrl d a k s
  | .brsw d => Sys2Proof.Machine.execBrsw d s
  | .brswt p d => Sys2Proof.Machine.execBrswt p d s
  | .brswf p d => Sys2Proof.Machine.execBrswf p d s
  | .loop c d => Sys2Proof.Machine.execLoop c d s
  | .loopQ k q d => Sys2Proof.Machine.execLoopQ k q d s
  | .lpop => Sys2Proof.Machine.execLpop s
  | .lcnt d => Sys2Proof.Machine.execLcnt d s
  | .lclr => Sys2Proof.Machine.execLclr s
  | .pblk p t l => Sys2Proof.Machine.execPblk p t l s
  | .qcnt d a => Sys2Proof.Machine.execQcnt d a s
  | .qcntV d a => Sys2Proof.Machine.execQcntV d a s
  | .qcntVn d a => Sys2Proof.Machine.execQcntVn d a s
  | .qclr a => Sys2Proof.Machine.execQclr a s
  | .qclrV a => Sys2Proof.Machine.execQclrV a s
  | .qclrVn a => Sys2Proof.Machine.execQclrVn a s
  | .pfork m imm => Sys2Proof.Machine.execPfork m imm s
  | .pjoin s2 => Sys2Proof.Machine.execPjoin s2 s
  | .sempost s2 n => Sys2Proof.Machine.execSempost s2 n s
  | .semwait s2 n => Sys2Proof.Machine.execSemwait s2 n s
  | .barw c u => Sys2Proof.Machine.execBarw c u s
  | .rdcyc d => Sys2Proof.Machine.execRdcyc d s
  | .rdfrz d => Sys2Proof.Machine.execRdfrz d s
  | .rdid d => Sys2Proof.Machine.execRdid d s
  | .rdpix d => Sys2Proof.Machine.execRdpix d s
  | .crget d c => Sys2Proof.Machine.execCrget d c s
  | .crset a k c => Sys2Proof.Machine.execCrset a k c s
  | .ifence => Sys2Proof.Machine.execIfence s
  | .trap c => Sys2Proof.Machine.execTrap c s
  | .eret => Sys2Proof.Machine.execEret s
  | .halt => Sys2Proof.Machine.execHalt s
  | .vadd d a b k m t => Sys2Proof.Machine.execVadd d a b k m t s
  | .vsub d a b k m t => Sys2Proof.Machine.execVsub d a b k m t s
  | .vmul d a b k m t => Sys2Proof.Machine.execVmul d a b k m t s
  | .vmin d a b k m t => Sys2Proof.Machine.execVmin d a b k m t s
  | .vmax d a b k m t => Sys2Proof.Machine.execVmax d a b k m t s
  | .vadds d a b k m t => Sys2Proof.Machine.execVadds d a b k m t s
  | .vsubs d a b k m t => Sys2Proof.Machine.execVsubs d a b k m t s
  | .vmulhi d a b k m t => Sys2Proof.Machine.execVmulhi d a b k m t s
  | .vsplati d v z => Sys2Proof.Machine.execVsplati d v z s
  | .vaddi d a k v z => Sys2Proof.Machine.execVaddi d a k v z s
  | .vshli d a k v z => Sys2Proof.Machine.execVshli d a k v z s
  | .vsrai d a k v z => Sys2Proof.Machine.execVsrai d a k v z s
  | .vfadd d a b k m t => Sys2Proof.Machine.execVfadd d a b k m t s
  | .vfsub d a b k m t => Sys2Proof.Machine.execVfsub d a b k m t s
  | .vfmul d a b k m t => Sys2Proof.Machine.execVfmul d a b k m t s
  | .vfma d a b k m t => Sys2Proof.Machine.execVfma d a b k m t s
  | .vfmin d a b k m t => Sys2Proof.Machine.execVfmin d a b k m t s
  | .vfmax d a b k m t => Sys2Proof.Machine.execVfmax d a b k m t s
  | .vfabs d a k t => Sys2Proof.Machine.execVfabs d a k t s
  | .vfneg d a k t => Sys2Proof.Machine.execVfneg d a k t s
  | .vand d a b k m => Sys2Proof.Machine.execVand d a b k m s
  | .vor d a b k m => Sys2Proof.Machine.execVor d a b k m s
  | .vxor d a b k m => Sys2Proof.Machine.execVxor d a b k m s
  | .vandn d a b k m => Sys2Proof.Machine.execVandn d a b k m s
  | .vshl d a b k m z => Sys2Proof.Machine.execVshl d a b k m z s
  | .vshr d a b k m z => Sys2Proof.Machine.execVshr d a b k m z s
  | .vsra d a b k m z => Sys2Proof.Machine.execVsra d a b k m z s
  | .vnot d a k => Sys2Proof.Machine.execVnot d a k s
  | .vcmp d a b k m c t => Sys2Proof.Machine.execVcmp d a b k m c t s
  | .mand d a b => Sys2Proof.Machine.execMand d a b s
  | .mor d a b => Sys2Proof.Machine.execMor d a b s
  | .mxor d a b => Sys2Proof.Machine.execMxor d a b s
  | .mandn d a b => Sys2Proof.Machine.execMandn d a b s
  | .mnot d a => Sys2Proof.Machine.execMnot d a s
  | .mset d => Sys2Proof.Machine.execMset d s
  | .mclr d => Sys2Proof.Machine.execMclr d s
  | .mcnt d a => Sys2Proof.Machine.execMcnt d a s
  | .vperm d a b k m z => Sys2Proof.Machine.execVperm d a b k m z s
  | .vpermt d a b k m => Sys2Proof.Machine.execVpermt d a b k m s
  | .vred d a g k o t => Sys2Proof.Machine.execVred d a g k o t s
  | .vmaxe a k c t => Sys2Proof.Machine.execVmaxe a k c t s
  | .vcvt d a s2 k f => Sys2Proof.Machine.execVcvt d a s2 k f s
  | .vqnt d a k s2 f => Sys2Proof.Machine.execVqnt d a k s2 f s
  | .vcvtsr d a b k m s2 f => Sys2Proof.Machine.execVcvtsr d a b k m s2 f s
  | .vlmul d a b k m => Sys2Proof.Machine.execVlmul d a b k m s
  | .vldiv d a b k m => Sys2Proof.Machine.execVldiv d a b k m s
  | .vlsqrt d a k => Sys2Proof.Machine.execVlsqrt d a k s
  | .vlneg d a k => Sys2Proof.Machine.execVlneg d a k s
  | .vlabs d a k => Sys2Proof.Machine.execVlabs d a k s
  | .vladd d a b k m => Sys2Proof.Machine.execVladd d a b k m s
  | .vlsub d a b k m => Sys2Proof.Machine.execVlsub d a b k m s
  | .vcbx d a b k t => Sys2Proof.Machine.execVcbx d a b k t s
  | .vcbn d a b k t => Sys2Proof.Machine.execVcbn d a b k t s
  | .vrng d a k f => Sys2Proof.Machine.execVrng d a k f s
  | .vtwr d a b k m => Sys2Proof.Machine.execVtwr d a b k m s
  | .vtwrCvt d a b k m f => Sys2Proof.Machine.execVtwrCvt d a b k m f s
  | .vtrd d a b m => Sys2Proof.Machine.execVtrd d a b m s
  | .vtrdCvt d a b m f => Sys2Proof.Machine.execVtrdCvt d a b m f s
  | .vtcr d a b m z => Sys2Proof.Machine.execVtcr d a b m z s
  | .vtcrCvt d a b m f => Sys2Proof.Machine.execVtcrCvt d a b m f s
  | .vct8 d a b k f => Sys2Proof.Machine.execVct8 d a b k f s
  | .vacrd d a b m f => Sys2Proof.Machine.execVacrd d a b m f s
  | .vsplat d a k z => Sys2Proof.Machine.execVsplat d a k z s
  | .vext d a b k m z => Sys2Proof.Machine.execVext d a b k m z s
  | .vsel d a b k m j => Sys2Proof.Machine.execVsel d a b k m j s
  | .vmov d a k => Sys2Proof.Machine.execVmov d a k s
  | .lds x d m b imm z => Sys2Proof.Machine.execLds x d m b imm z s
  | .sts d m b k imm z => Sys2Proof.Machine.execSts d m b k imm z s
  | .ldv d m b imm => Sys2Proof.Machine.execLdv d m b imm s
  | .stv d m b k imm => Sys2Proof.Machine.execStv d m b k imm s
  | .ldt t m b imm r => Sys2Proof.Machine.execLdt t m b imm r s
  | .stt t m b imm r => Sys2Proof.Machine.execStt t m b imm r s
  | .natom q m b k imm z o => Sys2Proof.Machine.execNatom q m b k imm z o s
  | .ncas q m b imm => Sys2Proof.Machine.execNcas q m b imm s
  | .mcall p a b r => Sys2Proof.Machine.execMcall p a b r s
  | .mpset n a k => Sys2Proof.Machine.execMpset n a k s
  | .mpget d n => Sys2Proof.Machine.execMpget d n s
  | .mpadd n a k => Sys2Proof.Machine.execMpadd n a k s
  | .pcwset a k => Sys2Proof.Machine.execPcwset a k s
  | .pcwmem a k => Sys2Proof.Machine.execPcwmem a k s
  | .scld g a k => Sys2Proof.Machine.execScld g a k s
  | .scldi x v => Sys2Proof.Machine.execScldi x v s
  | .wswap => Sys2Proof.Machine.execWswap s
  | .aclr t => Sys2Proof.Machine.execAclr t s
  | .aclrAll => Sys2Proof.Machine.execAclrAll s
  | .acdrn p a b w q => Sys2Proof.Machine.execAcdrn p a b w q s
  | .gsset a k => Sys2Proof.Machine.execGsset a k s
  | .fld p a b f q => Sys2Proof.Machine.execFld p a b f q s
  | .fst p a b f q => Sys2Proof.Machine.execFst p a b f q s
  | .fatom p a b f q => Sys2Proof.Machine.execFatom p a b f q s
  | .copy p a b q => Sys2Proof.Machine.execCopy p a b q s
  | .gath p a b q => Sys2Proof.Machine.execGath p a b q s
  | .scat p a b q => Sys2Proof.Machine.execScat p a b q s
  | .mcst p a b q => Sys2Proof.Machine.execMcst p a b q s
  | .cgath p a b q => Sys2Proof.Machine.execCgath p a b q s
  | .twany a k => Sys2Proof.Machine.execTwany a k s
  | .twall a k => Sys2Proof.Machine.execTwall a k s
  | .tfind d a k => Sys2Proof.Machine.execTfind d a k s
  | .tclr a k => Sys2Proof.Machine.execTclr a k s
  | .drn p a b f => Sys2Proof.Machine.execDrn p a b f s
  | .txb p a b => Sys2Proof.Machine.execTxb p a b s
  | .txc p a b q => Sys2Proof.Machine.execTxc p a b q s
  | .txa p a b => Sys2Proof.Machine.execTxa p a b s
  | .spawn p a b q => Sys2Proof.Machine.execSpawn p a b q s
  | .take p a b q => Sys2Proof.Machine.execTake p a b q s
  | .join p a b q => Sys2Proof.Machine.execJoin p a b q s
  | .ckpt p a b => Sys2Proof.Machine.execCkpt p a b s
  | .cbld p a b q => Sys2Proof.Machine.execCbld p a b q s
  | .cwtld p a b q => Sys2Proof.Machine.execCwtld p a b q s
  | .mpsld p a b q => Sys2Proof.Machine.execMpsld p a b q s
  | .gtld p a b q => Sys2Proof.Machine.execGtld p a b q s
  | .latld p a b q => Sys2Proof.Machine.execLatld p a b q s
  | .ovld p a b q => Sys2Proof.Machine.execOvld p a b q s
  | .cbsel n => Sys2Proof.Machine.execCbsel n s

end Sys2Proof.Machine
end

