-- ==== Sys2Proof/Machine/Turn.lean ====
section
/-!
DEFINITION. One step of the agenda, and where a program's next bundle stands (R86, R62, R63; assumption logs 1 and 33).
-/

namespace Sys2Proof.Machine

/-- Does a step present a bundle or issue group, whose words then run? A group 2 needs its group 1 issued before (R75). -/
def presents (i : Instr) (s : State) : Bool :=
  match i with
  | .bundleIssue _ => true
  | .compactGroup2Issue p => (s.part p).group2.isSome
  | _ => false

/-- What a step does once its own meaning is done: a presentation runs the words it staged; any other step leaves no bundle
in progress. -/
noncomputable def afterTurn (run : Instr → State → Out) (issue : Bool) : Out → Out
  | .next u => if issue then issueSlots run u else .next { u with cur := Cursor.empty }
  | .fault f => .fault f
  | .refused q => .refused q

/-- One step of the agenda, run on the core it concerns. -/
noncomputable def runTurn (run : Instr → State → Out) (t : Turn) (s : State) : Out :=
  afterTurn run (presents t.op s) (run t.op { s with cur := { Cursor.empty with core := t.core } })

/-- The header of a bundle whose slot 3 may use every port that a header can give it (R68): VP 3 and SPX 3, with the
extension that TXB and TXA ask for (R259). -/
def slot3Header (w : Nat) : Nat :=
  let ext := if majOf 3 w = 0x39 ∧ Sys2Proof.fld w 5 3 ≠ 1 then Sys2Proof.fld w 20 6 else 0
  2 ^ 30 + ext * 2 ^ 24 + 3 * 2 ^ 6 + 3 * 2 ^ 4

/-- Does slot 3 of the plain form give a word all it needs (R69)? -/
def plainFits (w : Nat) : Bool :=
  let n := portsOf 3 w
  decide (n.1 ≤ 1) && decide (n.2 ≤ 1)

/-- The bundle whose one word is w, in the first slot class that decodes it (assumption log 6): the plain form, or the headed
form where the word needs more than that gives. -/
noncomputable def bundleOf (w : Nat) : Nat :=
  if decodes 0 w then w
  else if decodes 3 w then w * 2 ^ 96 + (if plainFits w then 0 else slot3Header w)
  else w * 2 ^ 64

/-- A bundle placed at the program counter of partition 0 of core 0, and its presentation listed as the next step. -/
noncomputable def placeBundle (b : Nat) (s : State) : State :=
  let x := s.part 0
  let t := s.updCore 0 fun c => { c with imem := c.imem.writeN (2 ^ 17 * b2n x.half + x.pc) 16 b }
  { t with agenda := [⟨0, .bundleIssue 0⟩] }

end Sys2Proof.Machine
end

