-- ==== Sys2Proof/Machine/Step.lean ====
section
/-!
DEFINITION. One step of the machine: the next step of the agenda runs, or, where none is left, the next phase of the clock
is listed (assumption log 1).
-/

namespace Sys2Proof.Machine

/-- One step. -/
noncomputable def step (s : State) : Host.Outcome State Fault Refusal :=
  match s.agenda with
  | [] => .next (nextPhase exec s)
  | t :: rest => runTurn exec t { s with agenda := rest }

/-- The state with the instruction of bits w placed where the next step presents it (assumption log 33). -/
noncomputable def State.withFetchWord (s : State) (nbits w : Nat) : State := placeBundle (bundleOf (w % 2 ^ nbits)) s

end Sys2Proof.Machine
end

