-- ==== Sys2Proof/Safety.lean ====
section
/-!
DEFINITION. What the claims call a safe state and a safe run.
-/

namespace Sys2Proof

open Sys2Proof.Machine

/-- No bundle is in progress: a bundle that waits or faults holds no state (R86, R156). -/
def Safety.idle (s : State) : Prop := s.cur = Cursor.empty

/-- A step answers a next state: the spec gives every step an effect, and none stops the machine. -/
def Safety.goesOn (s : State) : Prop := ∃ t, step s = .next t

/-- A run of n steps, each of which answers a next state, from one state to another. -/
def Safety.run : Nat → State → State → Prop
  | 0, s, t => s = t
  | n + 1, s, t => ∃ u, step s = .next u ∧ Safety.run n u t

/-- The memories of a core are in their canonical form. -/
def Safety.coreMemories (c : Core) : Prop := c.imem.wf ∧ c.slice.wf ∧ c.side.wf

/-- The memories of the image that a kernel holds are in their canonical form. -/
def Safety.imageMemories (k : Kernel) : Prop := ∀ g, k.image = some g → ∀ e ∈ g.cores, Safety.coreMemories e.2

/-- Every byte memory of the part is in its canonical form, those of the images of pre-empted kernels and of checkpoints among
them. -/
def Safety.memories (s : State) : Prop :=
  s.hbm.wf ∧ s.amvin.flash.wf ∧ s.amvin.mailbox.wf ∧ (∀ e ∈ s.peers, e.2.wf) ∧ (∀ e ∈ s.cores, Safety.coreMemories e.2) ∧
    (∀ k ∈ s.kernels, Safety.imageMemories k.2) ∧ ∀ c ∈ s.ctxs, ∀ k ∈ c.2.ck.kernels, Safety.imageMemories k.2

end Sys2Proof
end

