-- ==== Sys2Proof/Certificates/Slice0/Obligations.lean ====
section
/-!
DEFINITION. The statements of slice 0, and before them the words they are written in: what a queue source reads, what a
result in flight is, and the shapes that instructions of one form share.
-/

namespace Sys2Proof.Says

open Sys2Proof Sys2Proof.Machine

/-- The core clock on which the bundle in progress issues. -/
abbrev now (s : State) : Nat := (s.core s.cur.core).tick

/-- The partition of the bundle in progress. -/
abbrev me (s : State) : Part := s.part s.cur.gpi

/-- The core of the bundle in progress. -/
abbrev mine (s : State) : Core := s.core s.cur.core

/-- A result put in flight by the slot in progress, and nothing else changed: it lands lat clocks after issue with its
flags (R26, R118). -/
abbrev inFlight (s : State) (lat flags : Nat) (a : LandAct) : State :=
  { s with cur := { s.cur with out := s.cur.out ++ [⟨now s + lat, now s, s.cur.gpi, s.cur.slot, flags, a⟩] } }

/-- One more entry of the queue numbered k taken by the bundle, and nothing else changed (R30). -/
abbrev taken (s : State) (k : Nat) : State :=
  { s with cur := { s.cur with taken := Cells.put k (Cells.get 0 k s.cur.taken + 1) s.cur.taken } }

/-- A source that reads scalar queue q finds x, the oldest entry the bundle has not taken, and leaves t: the entry taken,
or not where the source peeks (R30). -/
def source (s : State) (q : Nat) (peek : Bool) (x : W64) (t : State) : Prop :=
  (Cells.get [] q (me s).sq)[Cells.get 0 q s.cur.taken]? = some x ∧ t = if peek then s else taken s q

/-- A source that reads vector queue v, which the bundle counts as queue 32 + v. -/
def vsource (s : State) (v : Nat) (peek : Bool) (x : V1024) (t : State) : Prop :=
  (Cells.get [] v (me s).vq)[Cells.get 0 (32 + v) s.cur.taken]? = some x ∧ t = if peek then s else taken s (32 + v)

/-- The slot in progress failed a check: its cause, VALUE and AUX are noted, and nothing else changed (R86). -/
abbrev marked (s : State) (cause value aux : Nat) : State :=
  { s with cur := { s.cur with marks := s.cur.marks ++ [⟨s.cur.slot, cause, value, aux⟩] } }

/-! ### Shapes of scalar instructions -/

/-- Two forms (slot 0, and slots 1 and 3) of d := f(a, b) with the flags of g, landing lat clocks on. -/
def flagged2 (i j : Nat → Nat → Nat → Bool → Bool → Instr) (lat : Nat) (f : W64 → W64 → W64) (g : W64 → W64 → Nat) : Prop :=
  ∀ c ∈ [i, j], ∀ s d a b k m x y u v, source s a k x u → source u b m y v →
    exec (c d a b k m) s = .next (inFlight v lat (g x y) (.spush d (f x y)))

/-- Two forms of d := f(a, b), which sets no flag. -/
def two (i j : Nat → Nat → Nat → Bool → Bool → Instr) (lat : Nat) (f : W64 → W64 → W64) : Prop :=
  flagged2 i j lat f fun _ _ => 0

/-- Two forms of d := v for a value v that stands in the relation r to a; no flag is set. -/
def one (i j : Nat → Nat → Bool → Instr) (lat : Nat) (r : W64 → W64 → Prop) : Prop :=
  ∀ c ∈ [i, j], ∀ s d a k x u, source s a k x u →
    ∃ v, r x v ∧ exec (c d a k) s = .next (inFlight u lat 0 (.spush d v))

/-- Two forms of pd := (a OP b), which sets no flag. -/
def compare (i j : Nat → Nat → Nat → Bool → Bool → Instr) (lat : Nat) (f : W64 → W64 → Bool) : Prop :=
  ∀ c ∈ [i, j], ∀ s p a b k m x y u v, source s a k x u → source u b m y v →
    exec (c p a b k m) s = .next (inFlight v lat 0 (.pred p (f x y)))

/-- Two forms of pd := f(pa, pb). -/
def logic (i j : Nat → Nat → Nat → Instr) (f : Bool → Bool → Bool) : Prop :=
  ∀ c ∈ [i, j], ∀ s d a b,
    exec (c d a b) s = .next (inFlight s 1 0 (.pred d (f ((me s).preds.getLsbD a) ((me s).preds.getLsbD b))))

/-- The immediate of an instruction as a number: 13 bits, or 19 with the extension of a headed slot (R119). -/
def immediate (s : State) (i : Nat) : Int :=
  if s.cur.mod.headed then sgn 19 (s.cur.mod.ext * 2 ^ 13 + i) else sgn 13 i

/-- Two forms of pd := (a OP sext(IMM)). -/
def compareI (i j : Nat → Nat → Bool → Nat → Instr) (f : W64 → W64 → Bool) : Prop :=
  ∀ c ∈ [i, j], ∀ s p a k n x u, source s a k x u →
    exec (c p a k n) s = .next (inFlight u 1 0 (.pred p (f x (BitVec.ofInt 64 (immediate s n)))))

/-- Clamping to the range of INT64. -/
def clamp64 (v : Int) : Int := max (-2 ^ 63) (min (2 ^ 63 - 1) v)

/-- SAT where a value lies outside the range of INT64, else no flag. -/
def sat64 (v : Int) : Nat := if -2 ^ 63 ≤ v ∧ v < 2 ^ 63 then 0 else fSAT

end Sys2Proof.Says

open Sys2Proof Sys2Proof.Machine Sys2Proof.Says

namespace Sys2Proof.Says

open Sys2Proof Sys2Proof.Machine

/-! ### Shapes of vector instructions -/

/-- The lane width of the slot in progress is one that R71 gives. -/
def wide (s : State) : Prop := s.cur.mod.width = 256 ∨ s.cur.mod.width = 512 ∨ s.cur.mod.width = 1024

/-- Is byte lane k enabled? A headed slot with ME = 1 takes bit k of the mask it names; every other slot enables all
lanes (R158). -/
def laneOn (s : State) (k : Nat) : Bool :=
  !(s.cur.mod.headed && bit s.cur.mod.ext 5) || (Cells.get 0 (fld s.cur.mod.ext 2 3) (me s).masks).getLsbD k

/-- Element i of b-bit elements is enabled: the lane that holds its bit 0 is (R158). -/
abbrev enabled (s : State) (b i : Nat) : Bool := laneOn s (b * i / 8)

/-- The entry z holds n elements of b bits from bit 0 upward: those that pass the test hold what f gives, the others and all
bits above are 0; fl is the OR of the flags of those that pass (R101, R111, R158). -/
def holds (pass : Nat → Bool) (b n : Nat) (f : Nat → Res) (z : V1024) (fl : Nat) : Prop :=
  (∀ i, i < n → elem b i z = if pass i then (f i).pat % 2 ^ b else 0) ∧ z.toNat < 2 ^ (b * n) ∧
    fl = ((List.range n).filter pass).foldl (fun a i => a ||| (f i).flags) 0

/-- An answer: an entry that holds, masked, n elements of b bits is put in flight to vector queue d. -/
def pushes (o : Machine.Out) (s v : State) (d lat b n : Nat) (f : Nat → Res) : Prop :=
  ∃ z fl, holds (enabled s b) b n f z fl ∧ o = .next (inFlight v lat fl (.vpush d z))

/-- The same with every element enabled: the form carries no mask. -/
def pushesAll (o : Machine.Out) (v : State) (d lat b n : Nat) (f : Nat → Res) : Prop :=
  ∃ z fl, holds (fun _ => true) b n f z fl ∧ o = .next (inFlight v lat fl (.vpush d z))

/-- d := f(a, b), element by element over all the elements of the lane width. -/
def vtwo (i : Nat → Nat → Nat → Bool → Bool → Instr) (lat b : Nat) (f : State → Nat → Nat → Res) : Prop :=
  ∀ s d a c k m x y u v, wide s → vsource s a k x u → vsource u c m y v →
    pushes (exec (i d a c k m) s) s v d lat b (s.cur.mod.width / b) fun j => f s (elem b j x) (elem b j y)

/-- d := f(a), element by element. -/
def vone (i : Nat → Nat → Bool → Instr) (lat b : Nat) (f : State → Nat → Res) : Prop :=
  ∀ s d a k x u, wide s → vsource s a k x u →
    pushes (exec (i d a k) s) s u d lat b (s.cur.mod.width / b) fun j => f s (elem b j x)

/-- The rounding mode of a vector operation: the template's where it replaces it, RTZ where a headed slot's extension names
it, else RNE (R159). -/
def vmode (s : State) : RMode :=
  match s.cur.mod.rm with
  | some m => m
  | none => if s.cur.mod.headed && s.cur.mod.ext % 4 == 1 then .rtz else .rne

/-- A result without flags. -/
abbrev plain (n : Nat) : Res := ⟨n, 0⟩

/-- The value of an element of the integer types 0 to 4 of R162 (INT8, UINT8, INT16, UINT16, INT32). -/
def value (t x : Nat) : Int := if t % 2 = 0 then sgn (vtBits t) x else x

/-- A value clamped to the stored range of an integer type, SAT where it was outside. -/
def clamped (t : Nat) (v : Int) : Res :=
  let lo : Int := if t % 2 = 0 then -2 ^ (vtBits t - 1) else 0
  let hi : Int := if t % 2 = 0 then 2 ^ (vtBits t - 1) - 1 else 2 ^ vtBits t - 1
  ⟨low (vtBits t) (max lo (min hi v)), if lo ≤ v ∧ v ≤ hi then 0 else fSAT⟩

/-- The immediate of a vector instruction: 9 bits, or 15 with the extension of a headed slot (R163). -/
def vimmediate (s : State) (v : Nat) : Int :=
  if s.cur.mod.headed then sgn 15 (s.cur.mod.ext * 2 ^ 9 + v) else sgn 9 v

end Sys2Proof.Says

/-! ### The scalar block -/

/-- R121, R124, R126, R133: sums, logic, shifts, extremes, products, address sums and SEL of two scalar sources. Each reads
both sources, puts the value the rule gives in flight and changes nothing else. -/
def Sys2Proof.Says.integerOperationsOfTwoSources : Prop :=
  two .add .addQ 1 (fun x y => BitVec.ofInt 64 (x.toInt + y.toInt)) ∧
  two .sub .subQ 1 (fun x y => BitVec.ofInt 64 (x.toInt - y.toInt)) ∧
  two .and .andQ 1 (fun x y => x &&& y) ∧
  two .or .orQ 1 (fun x y => x ||| y) ∧
  two .xor .xorQ 1 (fun x y => x ^^^ y) ∧
  two .andn .andnQ 1 (fun x y => x &&& ~~~y) ∧
  two .shl .shlQ 1 (fun x y => BitVec.ofNat 64 (x.toNat * 2 ^ (y.toNat % 64))) ∧
  two .shr .shrQ 1 (fun x y => BitVec.ofNat 64 (x.toNat / 2 ^ (y.toNat % 64))) ∧
  two .sra .sraQ 1 (fun x y => BitVec.ofInt 64 (x.toInt / 2 ^ (y.toNat % 64))) ∧
  two .min .minQ 1 (fun x y => BitVec.ofInt 64 (min x.toInt y.toInt)) ∧
  two .max .maxQ 1 (fun x y => BitVec.ofInt 64 (max x.toInt y.toInt)) ∧
  two .minu .minuQ 1 (fun x y => BitVec.ofNat 64 (min x.toNat y.toNat)) ∧
  two .maxu .maxuQ 1 (fun x y => BitVec.ofNat 64 (max x.toNat y.toNat)) ∧
  two .mul .mulQ 3 (fun x y => BitVec.ofInt 64 (x.toInt * y.toInt)) ∧
  two .mulh .mulhQ 3 (fun x y => BitVec.ofInt 64 (x.toInt * y.toInt / 2 ^ 64)) ∧
  two .mulhu .mulhuQ 3 (fun x y => BitVec.ofNat 64 (x.toNat * y.toNat / 2 ^ 64)) ∧
  (∀ n, two (fun d a b k m => .addx d a b k m n) (fun d a b k m => .addxQ d a b k m n) 1
    (fun x y => BitVec.ofNat 64 ((x.toNat + y.toNat * 2 ^ n) % 2 ^ 56))) ∧
  (∀ n, two (fun d a b k m => .subx d a b k m n) (fun d a b k m => .subxQ d a b k m n) 1
    (fun x y => BitVec.ofInt 64 ((x.toInt - y.toInt * 2 ^ n) % 2 ^ 56))) ∧
  (∀ c ∈ [Instr.sel, Instr.selQ], ∀ s d a b k m p x y u v, source s a k x u → source u b m y v →
    exec (c d a b k m p) s = .next (inFlight v 1 0 (.spush d (if (me s).preds.getLsbD p then x else y))))

/-- R121: the saturating sum and difference, SAT where they clamp. -/
def Sys2Proof.Says.saturatingSumAndDifference : Prop :=
  flagged2 .addss .addssQ 1 (fun x y => BitVec.ofInt 64 (clamp64 (x.toInt + y.toInt))) (fun x y => sat64 (x.toInt + y.toInt)) ∧
  flagged2 .subss .subssQ 1 (fun x y => BitVec.ofInt 64 (clamp64 (x.toInt - y.toInt))) (fun x y => sat64 (x.toInt - y.toInt))

/-- R121, R124, R126, R133: the scalar integer operations of two sources, those that wrap and those that saturate. -/
def Obligations.IntegerSumsLogicAndShifts : Prop := integerOperationsOfTwoSources ∧ saturatingSumAndDifference

/-- R121 to R123, R125: MOV, ADDI, LUI, the bit counts and the constant shifts. -/
def Obligations.IntegerOperationsOfOneSource : Prop :=
  one .mov .movQ 1 (fun x v => v = x) ∧
  (∀ c ∈ [Instr.addi, Instr.addiQ], ∀ s d a k n x u, source s a k x u →
    exec (c d a k n) s = .next (inFlight u 1 0 (.spush d (BitVec.ofInt 64 (x.toInt + immediate s n))))) ∧
  (∀ c ∈ [Instr.lui, Instr.luiQ], ∀ s d n i,
    exec (c d n i) s = .next (inFlight s 1 0 (.spush d (BitVec.ofInt 64 (immediate s i * 2 ^ n))))) ∧
  one .clz .clzQ 1 (fun x v => v.toNat ≤ 64 ∧ (∀ i, 64 - v.toNat ≤ i → x.getLsbD i = false) ∧
    (v.toNat < 64 → x.getLsbD (63 - v.toNat) = true)) ∧
  one .ctz .ctzQ 1 (fun x v => v.toNat ≤ 64 ∧ (∀ i, i < v.toNat → x.getLsbD i = false) ∧
    (v.toNat < 64 → x.getLsbD v.toNat = true)) ∧
  one .popc .popcQ 1 (fun x v => v.toNat = ((List.range 64).filter x.getLsbD).length) ∧
  (∀ n h, one (fun d a k => .shli d a n k h) (fun d a k => .shliQ d a n k h) 1
    (fun x v => v = BitVec.ofNat 64 (x.toNat * 2 ^ (n + if h then 32 else 0)))) ∧
  (∀ n h, one (fun d a k => .shri d a n k h) (fun d a k => .shriQ d a n k h) 1
    (fun x v => v = BitVec.ofNat 64 (x.toNat / 2 ^ (n + if h then 32 else 0)))) ∧
  (∀ n h, one (fun d a k => .srai d a n k h) (fun d a k => .sraiQ d a n k h) 1
    (fun x v => v = BitVec.ofInt 64 (x.toInt / 2 ^ (n + if h then 32 else 0))))

/-- R129, R131: integer compares to a predicate, and compares with an immediate. -/
def Sys2Proof.Says.integerComparesToPredicates : Prop :=
  compare .ceq .ceqQ 1 (fun x y => decide (x.toNat = y.toNat)) ∧
  compare .cne .cneQ 1 (fun x y => decide (x.toNat ≠ y.toNat)) ∧
  compare .clt .cltQ 1 (fun x y => decide (x.toInt < y.toInt)) ∧
  compare .cle .cleQ 1 (fun x y => decide (x.toInt ≤ y.toInt)) ∧
  compare .cltu .cltuQ 1 (fun x y => decide (x.toNat < y.toNat)) ∧
  compare .cleu .cleuQ 1 (fun x y => decide (x.toNat ≤ y.toNat)) ∧
  compareI .ceqi .ceqiQ (fun x y => decide (x.toNat = y.toNat)) ∧
  compareI .cnei .cneiQ (fun x y => decide (x.toNat ≠ y.toNat)) ∧
  compareI .clti .cltiQ (fun x y => decide (x.toInt < y.toInt)) ∧
  compareI .cltui .cltuiQ (fun x y => decide (x.toNat < y.toNat))

/-- R132: predicate logic reads its predicates at issue and lands its result one clock on. -/
def Sys2Proof.Says.predicateLogic : Prop :=
  logic .pand .pandQ (fun a b => a && b) ∧
  logic .por .porQ (fun a b => a || b) ∧
  logic .pxor .pxorQ (fun a b => Bool.xor a b) ∧
  logic .pandn .pandnQ (fun a b => a && !b) ∧
  (∀ c ∈ [Instr.pnot, Instr.pnotQ], ∀ s d a,
    exec (c d a) s = .next (inFlight s 1 0 (.pred d (!(me s).preds.getLsbD a)))) ∧
  (∀ c ∈ [Instr.pset, Instr.psetQ], ∀ s d, exec (c d) s = .next (inFlight s 1 0 (.pred d true))) ∧
  (∀ c ∈ [Instr.pclr, Instr.pclrQ], ∀ s d, exec (c d) s = .next (inFlight s 1 0 (.pred d false)))

/-- R129, R131, R132: predicates from integer compares and from predicate logic. -/
def Obligations.PredicatesFromIntegersAndPredicates : Prop := integerComparesToPredicates ∧ predicateLogic

/-- The rounding mode of a scalar operation: the template's where it replaces it, else RTZ or RNE by its bit (R127). -/
def Sys2Proof.Says.mode (s : State) (r : Bool) : RMode :=
  match s.cur.mod.rm with
  | some m => m
  | none => if r then .rtz else .rne

/-- Two forms of a binary32 operation of two sources, rounded once (R127). -/
def Sys2Proof.Says.float (i j : Nat → Nat → Nat → Bool → Bool → Bool → Instr) (f : RMode → Machine.Num → Machine.Num → Machine.Num × Nat) : Prop :=
  ∀ c ∈ [i, j], ∀ s d a b k m r x y u v, source s a k x u → source u b m y v →
    let z := finish (.flt fmtBinary32) (mode s r) 0 false
      (f (mode s r) (readFlt fmtBinary32 (x.toNat % 2 ^ 32)) (readFlt fmtBinary32 (y.toNat % 2 ^ 32)))
    exec (c d a b k m r) s = .next (inFlight v 4 z.flags (.spush d (BitVec.ofNat 64 z.pat)))

/-- Two forms of a conversion between an integer format and binary32 (R128). -/
def Sys2Proof.Says.converts (i j : Nat → Nat → Bool → Bool → Instr) (src dst : Fmt) (f : Nat → W64) : Prop :=
  ∀ c ∈ [i, j], ∀ s d a k r x u, source s a k x u →
    let z := convertPat src dst (mode s r) 0 true x.toNat
    exec (c d a k r) s = .next (inFlight u 4 z.flags (.spush d (f z.pat)))

/-- R127, R128: scalar binary32 arithmetic and conversions. FABS and FNEG change only the sign of a number, and a NaN gives
the canonical NaN; FMIN and FMAX set no flag. -/
def Sys2Proof.Says.scalarFloatOperations : Prop :=
  float .fadd .faddQ (fun md x y => sumNums md [x, y]) ∧
  float .fsub .fsubQ (fun md x y => sumNums md [x, negNum y]) ∧
  float .fmul .fmulQ (fun _ x y => mulNum x y) ∧
  float .fdiv .fdivQ (fun _ x y => divNum x y) ∧
  (∀ c ∈ [Instr.fsqrt, Instr.fsqrtQ], ∀ s d a k r x u, source s a k x u →
    let z := sqrtRes (mode s r) (readFlt fmtBinary32 (x.toNat % 2 ^ 32))
    exec (c d a k r) s = .next (inFlight u 4 z.flags (.spush d (BitVec.ofNat 64 z.pat)))) ∧
  two .fmin .fminQ 4 (fun x y => BitVec.ofNat 64 (fltExtreme fmtBinary32 true (x.toNat % 2 ^ 32) (y.toNat % 2 ^ 32))) ∧
  two .fmax .fmaxQ 4 (fun x y => BitVec.ofNat 64 (fltExtreme fmtBinary32 false (x.toNat % 2 ^ 32) (y.toNat % 2 ^ 32))) ∧
  one .fabs .fabsQ 4 (fun x v =>
    v = if (readFlt fmtBinary32 (x.toNat % 2 ^ 32)).isNan then 0x7FC00000#64 else BitVec.ofNat 64 (x.toNat % 2 ^ 31)) ∧
  one .fneg .fnegQ 4 (fun x v =>
    v = if (readFlt fmtBinary32 (x.toNat % 2 ^ 32)).isNan then 0x7FC00000#64
      else BitVec.ofNat 64 (x.toNat % 2 ^ 31 + if x.getLsbD 31 then 0 else 2 ^ 31)) ∧
  converts .cvtif .cvtifQ fmtInt64 (.flt fmtBinary32) (BitVec.ofNat 64) ∧
  converts .cvtuf .cvtufQ fmtUint64 (.flt fmtBinary32) (BitVec.ofNat 64) ∧
  converts .cvtwf .cvtwfQ fmtInt32 (.flt fmtBinary32) (BitVec.ofNat 64) ∧
  converts .cvtfi .cvtfiQ (.flt fmtBinary32) fmtInt64 (BitVec.ofNat 64) ∧
  converts .cvtfu .cvtfuQ (.flt fmtBinary32) fmtUint64 (BitVec.ofNat 64) ∧
  converts .cvtfw .cvtfwQ (.flt fmtBinary32) fmtInt32 (fun p => BitVec.ofInt 64 (sgn 32 p)) ∧
  converts .cvtfwu .cvtfwuQ (.flt fmtBinary32) fmtUint32 (BitVec.ofNat 64)

/-- A pattern of binary32 is a NaN: every exponent bit is 1 and the mantissa is not 0 (R91). -/
def Sys2Proof.Says.nan32 (x : W64) : Prop := x.toNat / 2 ^ 23 % 2 ^ 8 = 255 ∧ x.toNat % 2 ^ 23 ≠ 0

/-- R127, R130: binary32 compares to a predicate set no flag; FUN is the test for a NaN operand, and the other three are
false where either operand is a NaN and compare values, with -0 equal to +0. -/
def Obligations.FloatComparesToPredicates : Prop :=
  compare .feq .feqQ 4 (fun x y => eqNum (readFlt fmtBinary32 (x.toNat % 2 ^ 32)) (readFlt fmtBinary32 (y.toNat % 2 ^ 32))) ∧
  compare .flt .fltQ 4 (fun x y => ltNum false (readFlt fmtBinary32 (x.toNat % 2 ^ 32)) (readFlt fmtBinary32 (y.toNat % 2 ^ 32))) ∧
  compare .fle .fleQ 4 (fun x y =>
    ltNum false (readFlt fmtBinary32 (x.toNat % 2 ^ 32)) (readFlt fmtBinary32 (y.toNat % 2 ^ 32)) ||
      eqNum (readFlt fmtBinary32 (x.toNat % 2 ^ 32)) (readFlt fmtBinary32 (y.toNat % 2 ^ 32))) ∧
  (∀ c ∈ [Instr.funord, Instr.funordQ], ∀ s p a b k m x y u v, source s a k x u → source u b m y v →
    ∃ t, (t = true ↔ nan32 x ∨ nan32 y) ∧ exec (c p a b k m) s = .next (inFlight v 4 0 (.pred p t))) ∧
  (∀ c ∈ [Instr.feq, Instr.feqQ, Instr.flt, Instr.fltQ, Instr.fle, Instr.fleQ], ∀ s p a b k m x y u v,
    source s a k x u → source u b m y v → nan32 x ∨ nan32 y →
    exec (c p a b k m) s = .next (inFlight v 4 0 (.pred p false)))

/-- R127, R110, R111: a NaN operand of scalar binary32 arithmetic gives the canonical NaN and no flag. -/
def Sys2Proof.Says.scalarNanOperandsGiveTheNan : Prop :=
  ∀ c ∈ [Instr.fadd, Instr.faddQ, Instr.fsub, Instr.fsubQ, Instr.fmul, Instr.fmulQ, Instr.fdiv, Instr.fdivQ],
    ∀ s d a b k m r x y u v, source s a k x u → source u b m y v → nan32 x ∨ nan32 y →
      exec (c d a b k m r) s = .next (inFlight v 4 0 (.spush d 0x7FC00000#64))

/-- R127, R128: scalar binary32 arithmetic and conversions, and what NaN operands give. -/
def Obligations.ScalarFloatArithmetic : Prop := scalarFloatOperations ∧ scalarNanOperandsGiveTheNan

/-! ### The vector block -/

/-- R162: integer vector arithmetic. The result of an element is taken modulo 2^b; VADDS and VSUBS clamp it with SAT, and
VMULHI gives the high half of the exact product. -/
def Obligations.VectorIntegerArithmetic : Prop :=
  ∀ t, t ≤ 4 →
    vtwo (fun d a c k m => .vadd d a c k m t) 2 (vtBits t) (fun _ x y => plain (low (vtBits t) (value t x + value t y))) ∧
    vtwo (fun d a c k m => .vsub d a c k m t) 2 (vtBits t) (fun _ x y => plain (low (vtBits t) (value t x - value t y))) ∧
    vtwo (fun d a c k m => .vmul d a c k m t) 3 (vtBits t) (fun _ x y => plain (low (vtBits t) (value t x * value t y))) ∧
    vtwo (fun d a c k m => .vmin d a c k m t) 2 (vtBits t) (fun _ x y => plain (if value t x ≤ value t y then x else y)) ∧
    vtwo (fun d a c k m => .vmax d a c k m t) 2 (vtBits t) (fun _ x y => plain (if value t x ≤ value t y then y else x)) ∧
    vtwo (fun d a c k m => .vadds d a c k m t) 2 (vtBits t) (fun _ x y => clamped t (value t x + value t y)) ∧
    vtwo (fun d a c k m => .vsubs d a c k m t) 2 (vtBits t) (fun _ x y => clamped t (value t x - value t y)) ∧
    vtwo (fun d a c k m => .vmulhi d a c k m t) 3 (vtBits t)
      (fun _ x y => plain (low (vtBits t) (value t x * value t y / 2 ^ vtBits t)))

/-- R163, R164: vector logic by byte lane, shifts by the element count modulo the element size, and the immediate forms,
which carry no mask. -/
def Obligations.VectorLogicShiftsAndImmediates : Prop :=
  vtwo .vand 2 8 (fun _ x y => plain (x &&& y)) ∧
  vtwo .vor 2 8 (fun _ x y => plain (x ||| y)) ∧
  vtwo .vxor 2 8 (fun _ x y => plain (x ^^^ y)) ∧
  vtwo .vandn 2 8 (fun _ x y => plain (x &&& (255 - y))) ∧
  vone .vnot 2 8 (fun _ x => plain (255 - x)) ∧
  (∀ z, z ≤ 3 →
    vtwo (fun d a c k m => .vshl d a c k m z) 2 (8 * 2 ^ z) (fun _ x y => plain (x * 2 ^ (y % (8 * 2 ^ z)))) ∧
    vtwo (fun d a c k m => .vshr d a c k m z) 2 (8 * 2 ^ z) (fun _ x y => plain (x / 2 ^ (y % (8 * 2 ^ z)))) ∧
    vtwo (fun d a c k m => .vsra d a c k m z) 2 (8 * 2 ^ z)
      (fun _ x y => plain (low (8 * 2 ^ z) (sgn (8 * 2 ^ z) x / 2 ^ (y % (8 * 2 ^ z))))) ∧
    (∀ s d v, wide s → pushesAll (exec (.vsplati d v z) s) s d 2 (8 * 2 ^ z) (s.cur.mod.width / (8 * 2 ^ z))
      fun _ => plain (low (8 * 2 ^ z) (vimmediate s v))) ∧
    ∀ s d a k v x u, wide s → vsource s a k x u →
      pushesAll (exec (.vaddi d a k v z) s) u d 2 (8 * 2 ^ z) (s.cur.mod.width / (8 * 2 ^ z))
        (fun j => plain (low (8 * 2 ^ z) (elem (8 * 2 ^ z) j x + vimmediate s v))) ∧
      pushesAll (exec (.vshli d a k v z) s) u d 2 (8 * 2 ^ z) (s.cur.mod.width / (8 * 2 ^ z))
        (fun j => plain (elem (8 * 2 ^ z) j x * 2 ^ (vimmediate s v % (8 * 2 ^ z)).toNat)) ∧
      pushesAll (exec (.vsrai d a k v z) s) u d 2 (8 * 2 ^ z) (s.cur.mod.width / (8 * 2 ^ z))
        (fun j => plain (low (8 * 2 ^ z) (sgn (8 * 2 ^ z) (elem (8 * 2 ^ z) j x) / 2 ^ (vimmediate s v % (8 * 2 ^ z)).toNat))))

/-- The format and element size of the floating-point vector types 0 to 2 (binary32, binary16, bfloat16) (R165). -/
def Sys2Proof.Says.vfloat (t : Nat) : Flt := if t = 0 then fmtBinary32 else if t = 1 then fmtBinary16 else fmtBF16

/-- R165: floating-point vector arithmetic, each element rounded once in the slot's mode; VFMA's addend is the oldest entry of
its destination queue, popped after the other two. -/
def Sys2Proof.Says.vectorFloatArithmetic : Prop :=
  ∀ t, t ≤ 2 →
    vtwo (fun d a c k m => .vfadd d a c k m t) 4 (if t = 0 then 32 else 16) (fun s x y =>
      finish (.flt (vfloat t)) (vmode s) 0 false (sumNums (vmode s) [readFlt (vfloat t) x, readFlt (vfloat t) y])) ∧
    vtwo (fun d a c k m => .vfsub d a c k m t) 4 (if t = 0 then 32 else 16) (fun s x y =>
      finish (.flt (vfloat t)) (vmode s) 0 false (sumNums (vmode s) [readFlt (vfloat t) x, negNum (readFlt (vfloat t) y)])) ∧
    vtwo (fun d a c k m => .vfmul d a c k m t) 4 (if t = 0 then 32 else 16) (fun s x y =>
      finish (.flt (vfloat t)) (vmode s) 0 false (mulNum (readFlt (vfloat t) x) (readFlt (vfloat t) y))) ∧
    (∀ s d a c k m x y z u v w, wide s → vsource s a k x u → vsource u c m y v → vsource v d false z w →
      pushes (exec (.vfma d a c k m t) s) s w d 4 (if t = 0 then 32 else 16) (s.cur.mod.width / if t = 0 then 32 else 16)
        fun j =>
          let p := fun (e : V1024) => readFlt (vfloat t) (elem (if t = 0 then 32 else 16) j e)
          finish (.flt (vfloat t)) (vmode s) 0 false (dotNums (vmode s) [(p x, p y)] [p z])) ∧
    vtwo (fun d a c k m => .vfmin d a c k m t) 4 (if t = 0 then 32 else 16) (fun _ x y => plain (fltExtreme (vfloat t) true x y)) ∧
    vtwo (fun d a c k m => .vfmax d a c k m t) 4 (if t = 0 then 32 else 16) (fun _ x y => plain (fltExtreme (vfloat t) false x y)) ∧
    vone (fun d a k => .vfabs d a k t) 4 (if t = 0 then 32 else 16) (fun _ x => plain (fltSetSign (vfloat t) false x)) ∧
    vone (fun d a k => .vfneg d a k t) 4 (if t = 0 then 32 else 16)
      (fun _ x => plain (fltSetSign (vfloat t) (!(readFlt (vfloat t) x).neg) x))

/-- R91, R110, R406: a sum with a NaN operand is the format's NaN without a flag, and a finite number plus its negation is a zero
without a flag, in every format and rounding mode of the vector unit. -/
def Sys2Proof.Says.vectorFloatSumsOfSpecialValues : Prop :=
  ∀ t, t ≤ 2 → ∀ md x y,
    ((readFlt (vfloat t) x).isNan = true ∨ (readFlt (vfloat t) y).isNan = true →
      finish (.flt (vfloat t)) md 0 false (sumNums md [readFlt (vfloat t) x, readFlt (vfloat t) y]) = plain (fltNan (vfloat t))) ∧
    ((readFlt (vfloat t) x).isNan = false → (readFlt (vfloat t) x).isInf = false →
      ((finish (.flt (vfloat t)) md 0 false (sumNums md [readFlt (vfloat t) x, negNum (readFlt (vfloat t) x)])).flags = 0 ∧
       (readFlt (vfloat t) (finish (.flt (vfloat t)) md 0 false
          (sumNums md [readFlt (vfloat t) x, negNum (readFlt (vfloat t) x)])).pat).isZero = true))

/-- R91, R110, R165, R406: the vector floating-point operations, and what their sums give of special values. -/
def Obligations.VectorFloatSums : Prop := vectorFloatArithmetic ∧ vectorFloatSumsOfSpecialValues

/-- The truth of a compare of R166 on two elements of type t: 0 to 4 the integer types, 5 to 7 the floating-point types. -/
def Sys2Proof.Says.truth (c t x y : Nat) : Bool :=
  if t ≤ 4 then
    if c = 0 then decide (value t x = value t y) else if c = 1 then decide (value t x ≠ value t y)
    else if c = 2 then decide (value t x < value t y) else decide (value t x ≤ value t y)
  else
    let p := readFlt (vfloat (t - 5)) x
    let q := readFlt (vfloat (t - 5)) y
    if c = 0 then eqNum p q else if c = 1 then !eqNum p q else if c = 2 then ltNum false p q
    else if c = 3 then ltNum false p q || eqNum p q else p.isNan || q.isNan

/-- Bits of the types of a compare. -/
def Sys2Proof.Says.compareBits (t : Nat) : Nat := if t ≤ 4 then vtBits t else if t = 5 then 32 else 16

/-- Mask logic of one kind: the masks as they stand at issue, the result two clocks on (R167). -/
def Sys2Proof.Says.maskLogic (i : Nat → Nat → Nat → Instr) (f : W128 → W128 → W128) : Prop :=
  ∀ s d a b, exec (i d a b) s =
    .next (inFlight s 2 0 (.mask d (f (Cells.get 0 a (me s).masks) (Cells.get 0 b (me s).masks))))

/-- R166, R167: VCMP gives every byte lane of an element the truth of its compare, and 0 to disabled elements and to lanes
at w/8 and above; mask logic; MCNT counts. -/
def Obligations.VectorComparesAndMasks : Prop :=
  (∀ s d a b k m c t x y u v, c ≤ 4 → t ≤ 7 → wide s → vsource s a k x u → vsource u b m y v →
    ∃ z : W128, (∀ i, z.getLsbD i = (decide (i < s.cur.mod.width / 8) &&
        (let j := 8 * i / compareBits t
         enabled s (compareBits t) j && truth c t (elem (compareBits t) j x) (elem (compareBits t) j y)))) ∧
      exec (.vcmp d a b k m c t) s = .next (inFlight v 2 0 (.mask d z))) ∧
  maskLogic .mand (fun a b => a &&& b) ∧
  maskLogic .mor (fun a b => a ||| b) ∧
  maskLogic .mxor (fun a b => a ^^^ b) ∧
  maskLogic .mandn (fun a b => a &&& ~~~b) ∧
  maskLogic (fun d a _ => .mnot d a) (fun a _ => ~~~a) ∧
  maskLogic (fun d _ _ => .mset d) (fun _ _ => BitVec.allOnes 128) ∧
  maskLogic (fun d _ _ => .mclr d) (fun _ _ => 0) ∧
  ∀ s d a, exec (.mcnt d a) s = .next (inFlight s 2 0 (.spush d
    (BitVec.ofNat 64 ((List.range 128).filter (Cells.get 0 a (me s).masks).getLsbD).length)))

/-- R168, R183: VPERM in both forms, VSPLAT, VEXT, VSEL and VMOV. -/
def Obligations.VectorPermutesAndMoves : Prop :=
  (∀ z, z ≤ 3 →
    (∀ s d a b k m x y u v, wide s → vsource s a k x u → vsource u b m y v →
      pushes (exec (.vperm d a b k m z) s) s v d 3 (8 * 2 ^ z) (s.cur.mod.width / (8 * 2 ^ z)) fun i =>
        let j := elem (8 * 2 ^ z) i y
        plain (if j < s.cur.mod.width / (8 * 2 ^ z) then elem (8 * 2 ^ z) j x else 0)) ∧
    (∀ s d a k x u, wide s → source s a k x u →
      pushes (exec (.vsplat d a k z) s) s u d 2 (8 * 2 ^ z) (s.cur.mod.width / (8 * 2 ^ z)) fun _ => plain x.toNat) ∧
    ∀ s d a b k m x y u v, wide s → vsource s a k x u → source u b m y v →
      exec (.vext d a b k m z) s = .next (inFlight v 2 0 (.spush d (BitVec.ofNat 64
        (elem (8 * 2 ^ z) (y.toNat % 128 % (s.cur.mod.width / (8 * 2 ^ z))) x))))) ∧
  (∀ s d a b k m x y u v, wide s → vsource s a k x u → vsource u b m y v →
    pushes (exec (.vpermt d a b k m) s) s v d 3 32 (s.cur.mod.width / 32) fun i =>
      let j := fld s.cur.mod.perm (6 * i) 6
      let n := s.cur.mod.width / 32
      plain (if j < n then elem 32 j x else if j < 2 * n then elem 32 (j - n) y else 0)) ∧
  (∀ s d a b k m j x y u v, wide s → vsource s a k x u → vsource u b m y v →
    pushesAll (exec (.vsel d a b k m j) s) v d 2 8 (s.cur.mod.width / 8) fun i =>
      plain (if (Cells.get 0 j (me s).masks).getLsbD i then elem 8 i x else elem 8 i y)) ∧
  vone .vmov 2 8 (fun _ x => plain x)

/-- The lane width of a staged vector slot (R71): the one that its width field names, else 1,024 bits, or 512 where another vector
slot of its bundle decodes too. -/
noncomputable def Sys2Proof.Says.laneWidth (s : State) (r : RawSlot) : Nat :=
  if r.wcode = 1 then 256 else if r.wcode = 2 then 512 else if r.wcode = 3 then 1024
  else if 1 < (s.cur.staged.filter fun x => x.instr.isSome && isVec x.slot x.word).length then 512 else 1024

/-- R169, R170: VRED reduces the enabled elements of each group of 2^g and packs the results, and a group larger than the width holds
marks its slot with the illegal-encoding cause; VMAXE puts the largest exponent of the enabled elements, joined with SLATCH where it
accumulates, in flight to SLATCH. -/
def Obligations.VectorReductionsAndScaleLatch : Prop :=
  (∀ s d a g k o t x u, o ≤ 2 → t ≤ 5 → wide s → vsource s a k x u →
    let n := if t < 3 then (if t = 0 then 32 else 16) else if t = 3 then 32 else if t = 4 then 16 else 8
    pushesAll (exec (.vred d a g k o t) s) u d 6 n (s.cur.mod.width / n / 2 ^ g) fun j =>
      reduceGroup (vmode s) o t
        ((((List.range (2 ^ g)).map fun i => j * 2 ^ g + i).filter (enabled s n)).map fun i => elem n i x)) ∧
  (∀ s r d a g k o t, r ∈ s.cur.staged → r.wcode < 4 → r.instr = some (.vred d a g k o t) →
    laneWidth s r < 2 ^ g * (if t < 3 then (if t = 0 then 32 else 16) else if t = 3 then 32 else if t = 4 then 16 else 8) →
    ∃ u, runStaged exec s = .next u ∧ (⟨r.slot, 0x02, 0, 0⟩ : Mark) ∈ u.cur.marks) ∧
  ∀ s a k c t x u, t ≤ 2 → wide s → vsource s a k x u →
    ∃ e : Nat, (∀ i, i < s.cur.mod.width / (if t = 0 then 32 else 16) → enabled s (if t = 0 then 32 else 16) i = true →
        expOf (readFlt (vfloat t) (elem (if t = 0 then 32 else 16) i x)) ≤ e) ∧ (c = true → (me s).slatch.toNat ≤ e) ∧
      (e = 0 ∨ (c = true ∧ e = (me s).slatch.toNat) ∨ ∃ i, i < s.cur.mod.width / (if t = 0 then 32 else 16) ∧
        enabled s (if t = 0 then 32 else 16) i = true ∧
        e = expOf (readFlt (vfloat t) (elem (if t = 0 then 32 else 16) i x))) ∧
      exec (.vmaxe a k c t) s = .next (inFlight u 3 0 (.creg 0x01 0xFF (BitVec.ofNat 64 e)))

/-- The destination format of a conversion: the template's where it replaces it (R77). -/
def Sys2Proof.Says.format (s : State) (f : Nat) : Nat :=
  match s.cur.mod.cf with
  | some g => g
  | none => f

/-- R171 to R173: conversions element by element: VCVT between formats, VQNT under the scale latch (of a source half as wide as the
destination, as many elements as the width holds: assumption log 37), and VCVTSR with the keyed stochastic rounding of R105.
The model's own choices in it: assumption logs 7, 8, 37. -/
def Obligations.VectorConversions : Prop :=
  (∀ s d a src k f x u, wide s → vsource s a k x u →
    let dst := format s f
    pushes (exec (.vcvt d a src k f) s) s u d 4 (fmtBits dst) (s.cur.mod.width / max (fmtBits src) (fmtBits dst)) fun i =>
      if src = dst then plain (elem (fmtBits src) i x)
      else convertPat (fmtOf src) (fmtOf dst) (vmode s) 0 (bit (me s).pcw.toNat 31) (elem (fmtBits src) i x)) ∧
  (∀ s d a k (h : Bool) f x u, wide s → vsource s a k x u →
    let b := if h then 16 else 32
    let dst := format s f
    pushes (exec (.vqnt d a k h f) s) s u d 4 (fmtBits dst) (s.cur.mod.width / max b (fmtBits dst)) fun i =>
      if (me s).slatch = 0xFF then nanCase (fmtOf dst)
      else convertNum (fmtOf dst) (vmode s) 0 (bit (me s).pcw.toNat 31)
        (scaleNum (topExp dst - ((me s).slatch.toNat - 127)) (readFlt (if h then fmtBF16 else fmtBinary32) (elem b i x)))) ∧
  ∀ s d a b k m t f x y u v, t ≤ 2 → wide s → vsource s a k x u → source u b m y v →
    let dst := format s f
    let n := if t = 0 then 32 else 16
    pushes (exec (.vcvtsr d a b k m t f) s) s v d 4 (fmtBits dst) (s.cur.mod.width / max n (fmtBits dst)) fun i =>
      convertNum (fmtOf dst) .sr
        (keyedMix (mine s).kseed.toNat (me s).gstrm.toNat 0xFFFF ((y.toNat + i) % 2 ^ 48))
        (bit (me s).pcw.toNat 31) (readFlt (vfloat t) (elem n i x))

/-- R174, R175: LNS16 arithmetic. A product or quotient adds or subtracts the logarithms and clamps; signs are exclusive or;
zeros and division by zero as the rule says; VLNEG and VLABS touch the sign alone; VLADD and VLSUB go through the core's
log-add table. -/
def Sys2Proof.Says.logarithmicArithmetic : Prop :=
  vtwo .vlmul 2 16 (fun _ x y =>
    let neg := bit x 15 != bit y 15
    if lnsZero x || lnsZero y then plain (lnsPat neg (-16384))
    else if 16383 < lnsL x + lnsL y then ⟨lnsPat neg 16383, fOF + fNX⟩
    else if lnsL x + lnsL y < -16383 then ⟨lnsPat neg (-16384), fUF + fNX⟩ else plain (lnsPat neg (lnsL x + lnsL y))) ∧
  vtwo .vldiv 2 16 (fun _ x y =>
    let neg := bit x 15 != bit y 15
    if lnsZero x && lnsZero y then ⟨0x4000, fIV⟩
    else if lnsZero y then ⟨lnsPat neg 16383, fDZ⟩
    else if lnsZero x then plain (lnsPat neg (-16384))
    else if 16383 < lnsL x - lnsL y then ⟨lnsPat neg 16383, fOF + fNX⟩
    else if lnsL x - lnsL y < -16383 then ⟨lnsPat neg (-16384), fUF + fNX⟩ else plain (lnsPat neg (lnsL x - lnsL y))) ∧
  vone .vlsqrt 2 16 (fun _ x =>
    if lnsZero x then plain x
    else if bit x 15 then ⟨0x4000, fIV⟩
    else ⟨lnsPat false (rneShift (lnsL x) 1), if lnsL x % 2 = 0 then 0 else fNX⟩) ∧
  vone .vlneg 2 16 (fun _ x => plain (if bit x 15 then x % 2 ^ 15 else x % 2 ^ 15 + 2 ^ 15)) ∧
  vone .vlabs 2 16 (fun _ x => plain (x % 2 ^ 15)) ∧
  vtwo .vladd 5 16 (fun s x y => lnsAdd (mine s).logAdd x y) ∧
  vtwo .vlsub 5 16 (fun s x y => lnsAdd (mine s).logAdd x (if bit y 15 then y % 2 ^ 15 else y % 2 ^ 15 + 2 ^ 15))

/-- R175: addition in the log domain is commutative in value for operands of unlike magnitude, a zero operand leaves the other
as it is, and a number plus its negation is the zero. -/
def Sys2Proof.Says.logarithmicSums : Prop :=
  ∀ T a b, a < 2 ^ 16 → b < 2 ^ 16 →
    (lnsL a ≠ lnsL b → lnsZero a = false → lnsZero b = false → lnsAdd T a b = lnsAdd T b a) ∧
    (lnsZero a = true → lnsZero b = false → lnsAdd T a b = plain b) ∧
    (lnsZero a = false → lnsZero b = true → lnsAdd T a b = plain a) ∧
    (lnsZero a = false → lnsL a = lnsL b → bit a 15 ≠ bit b 15 → lnsAdd T a b = plain 0x4000)

/-- R174, R175: the LNS16 operations, and what their sums give where the rules decide them.
The model's own choices in it: assumption log 7. -/
def Obligations.LogarithmicNumbers : Prop := logarithmicArithmetic ∧ logarithmicSums

/-- The bits of an index of CB4, CB6, CB8 and CB12 (R176). -/
def Sys2Proof.Says.indexBits (t : Nat) : Nat := if t = 0 then 4 else if t = 1 then 6 else if t = 2 then 8 else 12

/-- R176: VCBX expands indices through the bank's active half as it stands at issue: byte by byte, the enabled lanes hold the
entries packed in order and the others 0, when every index read is below the valid count. -/
def Sys2Proof.Says.codebookExpansion : Prop :=
  ∀ s d a bk k t x u, wide s → vsource s a k x u →
    let g := (mine s).cbcfgOf bk
    let e := cbElen g * etypeBits (cbEtype g)
    let n := min (s.cur.mod.width / e) (s.cur.mod.width / indexBits t)
    (∀ i, i < n → elem (indexBits t) i x < cbValid g) →
    ∃ v z : V1024, (∀ i, i < n → elem e i v =
        (mine s).cbEntry bk ((if cbWhole g || !cbAct g then 0 else 2048) + elem (indexBits t) i x) % 2 ^ e) ∧
      (∀ i, i < s.cur.mod.width / 8 → elem 8 i z = if laneOn s i then elem 8 i v else 0) ∧ z.toNat < 2 ^ s.cur.mod.width ∧
      exec (.vcbx d a bk k t) s = .next (inFlight u 2 0 (.vpush d z))

/-- R44, R325: an index that VCBX reads and that is not below the valid count marks the slot with the invalid-index cause, the
first such index and the bank. -/
def Sys2Proof.Says.codebookIndexOutOfRange : Prop :=
  ∀ s d a bk k t x u i, vsource s a k x u →
    let g := (mine s).cbcfgOf bk
    let e := cbElen g * etypeBits (cbEtype g)
    i < min (s.cur.mod.width / e) (s.cur.mod.width / indexBits t) →
    (∀ j, j < i → elem (indexBits t) j x < cbValid g) → cbValid g ≤ elem (indexBits t) i x →
    ∃ w, exec (.vcbx d a bk k t) s = .next w ∧
      w.cur.marks = s.cur.marks ++ [⟨s.cur.slot, 0x16, elem (indexBits t) i x % 4096 + 4096 * bk, 0⟩]

/-- R177, R178: VCBN searches the valid entries of the bank's active half for each enabled element, and VRNG draws each element
from the keyed generator, member 0xFFFF apart. -/
def Sys2Proof.Says.codebookSearchAndGenerator : Prop :=
  (∀ s d a bk k t x u, wide s → vsource s a k x u →
    let g := (mine s).cbcfgOf bk
    let b := etypeBits (cbEtype g)
    let num := fun i => searchNum (cbEtype g) ((mine s).cbEntry bk (cbEntryNo (cbWhole g) (cbAct g) i) % 2 ^ b)
    let cs := ((List.range (min (cbValid g) (2 ^ indexBits t))).map fun i => (i, num i)).filter fun c => !c.2.isNan
    0 < cbValid g →
    ∃ z fl, holds (enabled s b) (indexBits t) (s.cur.mod.width / max b (indexBits t)) (fun i =>
        let y := searchNum (cbEtype g) (elem b i x)
        match (if y.isNan then none else nearest y cs) with
        | none => ⟨0, fIV⟩
        | some j => plain j) z fl ∧
      exec (.vcbn d a bk k t) s = .next (inFlight u 4 fl (.vpush d z))) ∧
  ∀ s d a k f x u, f ≤ 2 → wide s → source s a k x u → x.toNat / 2 ^ 48 ≠ 0xFFFF →
    pushesAll (exec (.vrng d a k f) s) u d 4 (if f = 2 then 16 else 32) (s.cur.mod.width / if f = 2 then 16 else 32) fun i =>
      let w := keyedMix (mine s).kseed.toNat (me s).gstrm.toNat (x.toNat / 2 ^ 48) ((x.toNat + i) % 2 ^ 48)
      if f = 0 then plain w else if f = 1 then plain (uniBinary32 w) else gauss (mine s).gaussT w

/-- R44, R176 to R178, R325: codebook expansion, its index check, the codebook search and the keyed generator. -/
def Obligations.CodebooksAndGenerator : Prop := codebookExpansion ∧ codebookIndexOutOfRange ∧ codebookSearchAndGenerator

/-! ### Tiles, operators and the accumulator reads -/

/-- The bank of tile t of the partition of the bundle in progress is on, asked to be, and in no transition (R37). -/
def Sys2Proof.Says.awake (s : State) (t : Nat) : Prop :=
  let b := Cells.get TBank.idle (t / 4) (me s).banks
  b.req = .on ∧ b.left = 0 ∧ b.pending = false

/-- Row r of tile t of the partition of the bundle in progress, rows counted modulo 128 (R33). -/
def Sys2Proof.Says.row (s : State) (t r : Nat) : V1024 := Cells.get 0 (128 * t + r % 128) (me s).tiles

/-- The enabled bits of a row write: all bits of each enabled element of n elements of b bits, and no other bit (R179). -/
def Sys2Proof.Says.rowBits (s : State) (b n : Nat) (en : V1024) : Prop :=
  ∀ i, en.getLsbD i = (decide (i < b * n) && enabled s b (i / b))

/-- R179: the raw and converting tile-row reads and writes, and column gathers. A write lands two clocks on in the named row,
in the enabled bits alone; rows and columns are those the scalar source names. -/
def Obligations.TileReadsAndWrites : Prop :=
  (∀ s t a b k m x y u v, wide s → awake s t → vsource s a k x u → source u b m y v →
    ∃ en, rowBits s 8 (s.cur.mod.width / 8) en ∧
      exec (.vtwr t a b k m) s = .next (inFlight v 2 0 (.tileRow t (y.toNat % 128) en x))) ∧
  (∀ s t a b k m f x y u v, wide s → awake s t → vsource s a k x u → source u b m y v →
    let n := s.cur.mod.width / 32
    let w := fmtBits (format s f)
    ∃ en z fl, rowBits s w n en ∧ holds (enabled s w) w n (fun i =>
        convertPat (.flt fmtBinary32) (fmtOf (format s f)) (vmode s) 0 (bit (me s).pcw.toNat 31) (elem 32 i x)) z fl ∧
      exec (.vtwrCvt t a b k m f) s = .next (inFlight v 2 fl (.tileRow t (y.toNat % 128) en z))) ∧
  (∀ s d t b m y u, wide s → awake s t → source s b m y u →
    pushes (exec (.vtrd d t b m) s) s u d 2 8 (s.cur.mod.width / 8) fun i => plain (elem 8 i (row s t y.toNat))) ∧
  (∀ s d t b m f y u, wide s → awake s t → source s b m y u →
    pushes (exec (.vtrdCvt d t b m f) s) s u d 2 32 (s.cur.mod.width / 32) fun i =>
      convertPat (fmtOf f) (.flt fmtBinary32) .rne 0 false (elem (fmtBits f) i (row s t y.toNat))) ∧
  (∀ s d t b m z y u, z ≤ 3 → wide s → awake s t → source s b m y u →
    let n := 8 * 2 ^ z
    pushes (exec (.vtcr d t b m z) s) s u d 3 n (s.cur.mod.width / n) fun i =>
      plain (elem n (y.toNat % 256 % (1024 / n)) (row s t (y.toNat / 256 % 128 + i)))) ∧
  ∀ s d t b m f y u, wide s → awake s t → source s b m y u →
    pushes (exec (.vtcrCvt d t b m f) s) s u d 3 32 (s.cur.mod.width / 32) fun i =>
      convertPat (fmtOf f) (.flt fmtBinary32) .rne 0 false
        (elem (fmtBits f) (y.toNat % 256 % (1024 / fmtBits f)) (row s t (y.toNat / 256 % 128 + i)))

/-- R37, R179, R181, R234: a tile instruction, VCT8, LDT or STT whose bank is not awake marks its slot with the bank-asleep cause,
whatever its sources hold. -/
def Sys2Proof.Says.tileOfASleepingBank : Prop :=
  ∀ s t, ¬ awake s t →
    let asleep := fun (i : Instr) => ∃ w, exec i s = .next w ∧ (⟨s.cur.slot, 0x15, 0, 0⟩ : Mark) ∈ w.cur.marks
    ∀ a b d k m f z i r, asleep (.vtwr t a b k m) ∧ asleep (.vtwrCvt t a b k m f) ∧ asleep (.vtrd d t b m) ∧
      asleep (.vtrdCvt d t b m f) ∧ asleep (.vtcr d t b m z) ∧ asleep (.vtcrCvt d t b m f) ∧ asleep (.vct8 d a t k z) ∧
      asleep (.ldt t m b i r) ∧ asleep (.stt t m b i r)

/-- R181, R182: VCT8 contracts groups of eight nodes with an operator held in eight tile rows, each sum rounded once; VACRD
converts one row of an accumulator tile that no call in flight is still writing: none clears the tile at its completion, or names it
in its write mask and has a routine that can reach a word writing the row (assumption log 84). Of a row that one is still writing the
enabled elements and their flags are free, the disabled ones zero.
The model's own choices in it: assumption log 84. -/
def Obligations.OperatorContractionAndAccumulatorRead : Prop :=
  (∀ s d a t k blk x u, wide s → awake s t → vsource s a k x u →
    pushes (exec (.vct8 d a t k blk) s) s u d 6 32 (s.cur.mod.width / 32) fun j =>
      finish (.flt fmtBinary32) (vmode s) 0 false (dotNums (vmode s) ((List.range 8).map fun m =>
        (readFlt fmtBinary32 (elem 32 m (row s t (8 * blk + j % 8))), readFlt fmtBinary32 (elem 32 (8 * (j / 8) + m) x))) [])) ∧
  ∀ s d t b m f y u, wide s → source s b m y u →
    let w := fmtBits (format s f)
    let g := Cells.get ⟨false, 0⟩ t (mine s).accTag
    ((mine s).accBusy t (y.toNat % 32) = true → ∃ n z fl, (∀ i, i < s.cur.mod.width / w → enabled s w i = false → elem w i z = 0) ∧
      z.toNat < 2 ^ (w * (s.cur.mod.width / w)) ∧
      exec (.vacrd d t b m f) s = .next (inFlight { u with freeCtr := u.freeCtr + n } 4 fl (.vpush d z))) ∧
    ((mine s).accBusy t (y.toNat % 32) = false → pushes (exec (.vacrd d t b m f) s) s u d 4 w (s.cur.mod.width / w) fun i =>
      let c := (Cells.get (List.replicate 256 ⟨0, false⟩) (32 * t + y.toNat % 32) (mine s).acc).getD
        ((y.toNat / 256 % 256 + i) % 256) ⟨0, false⟩
      convertNum (fmtOf (format s f)) (vmode s) 0 (bit (me s).pcw.toNat 31)
        (if g.hold then scaleNum (g.ea - 64) (numOfInt false c.x 1) else .fin false 0 1))

/-! ### Slot-0 control -/

namespace Sys2Proof.Says

open Sys2Proof Sys2Proof.Machine

/-- A taken transfer of slot 0, and nothing else changed. -/
abbrev goes (s : State) (target : Nat) (other : Bool) : State :=
  { s with cur := { s.cur with next := some target, newHalf := other } }

/-- The partition of the bundle in progress replaced by f of it, and nothing else changed. -/
abbrev withMe (s : State) (f : Part → Part) : State := { s with parts := Cells.put s.cur.gpi (f (me s)) s.parts }

/-- The core of the bundle in progress replaced by f of it, and nothing else changed. -/
abbrev withMine (s : State) (f : Core → Core) : State := { s with cores := Cells.put s.cur.core (f (mine s)) s.cores }

/-- The target of a displacement: pc + 16 * DSP in bytes, modulo the half of 2^17 (R134). -/
def target (s : State) (d : Nat) : Nat := (((me s).pc + 16 * sgn 13 d : Int) % 2 ^ 17).toNat

/-- The offset after the bundle in progress (R22). -/
def after (s : State) : Nat := ((me s).pc + 16) % 2 ^ 17

/-- A call: its link in flight to s31 and its transfer taken (R135). -/
abbrev calls (s : State) (d : Nat) : State :=
  inFlight (goes s (target s d) false) 1 0 (.spush 31 (BitVec.ofNat 64 (after s)))

/-- Predicate k as the bundle in progress reads it. -/
abbrev reads (s : State) (k : Nat) : Bool := (me s).preds.getLsbD k

end Sys2Proof.Says

/-- R134 to R137: branches, jumps, calls and half switches outside a predicate block. A transfer that is not taken changes
nothing; a call that is not taken pushes nothing; a half switch asks for an empty loop stack. -/
def Obligations.TransfersOfControl : Prop :=
  ∀ s, s.cur.covered = false →
    (∀ p d, exec (.brt p d) s = .next (if reads s p then goes s (target s d) false else s)) ∧
    (∀ p d, exec (.brf p d) s = .next (if reads s p then s else goes s (target s d) false)) ∧
    (∀ d, exec (.jump d) s = .next (goes s (target s d) false)) ∧
    (∀ d, exec (.call d) s = .next (calls s d)) ∧
    (∀ p d, exec (.callt p d) s = .next (if reads s p then calls s d else s)) ∧
    (∀ p d, exec (.callf p d) s = .next (if reads s p then s else calls s d)) ∧
    (∀ a k x u, source s a k x u → exec (.jr a k) s = .next (goes u (x.toNat / 16 % 2 ^ 13 * 16) false)) ∧
    (∀ d a k x u, source s a k x u →
      exec (.jrl d a k) s =
        .next (inFlight (goes u (x.toNat / 16 % 2 ^ 13 * 16) false) 1 0 (.spush d (BitVec.ofNat 64 (after s))))) ∧
    ((me s).loops = [] →
      (∀ d, exec (.brsw d) s = .next (goes s (target s d) true)) ∧
      (∀ p d, exec (.brswt p d) s = .next (if reads s p then goes s (target s d) true else s)) ∧
      ∀ p d, exec (.brswf p d) s = .next (if reads s p then s else goes s (target s d) true))

/-- R85, R137: a transfer, a loop operation, PBLK or HALT in a bundle that a predicate block covers marks the illegal-sequence
cause, and so does a half switch, taken or not, while a loop level is held. -/
def Sys2Proof.Says.illegalSequences : Prop :=
  (∀ i s, (∃ p d, i = .brt p d ∨ i = .brf p d ∨ i = .callt p d ∨ i = .callf p d ∨ i = .brswt p d ∨ i = .brswf p d) ∨
      (∃ d, i = .jump d ∨ i = .call d ∨ i = .brsw d ∨ i = .lcnt d) ∨ (∃ a k, i = .jr a k) ∨ (∃ d a k, i = .jrl d a k) ∨
      (∃ c d, i = .loop c d) ∨ (∃ k q d, i = .loopQ k q d) ∨ (∃ p t l, i = .pblk p t l) ∨ i = .lpop ∨ i = .lclr ∨ i = .halt →
    s.cur.covered = true →
    ∃ t, exec i s = .next t ∧ (⟨s.cur.slot, 0x03, 0, 0⟩ : Mark) ∈ t.cur.marks) ∧
  ∀ s p d, (me s).loops ≠ [] → ∀ i ∈ [Instr.brsw d, .brswt p d, .brswf p d],
    ∃ t, exec i s = .next t ∧ (⟨s.cur.slot, 0x03, 0, 0⟩ : Mark) ∈ t.cur.marks

/-- The loop that a LOOP of n passes over DSP bundles opens: none where n is 0, and the body is skipped (R138). -/
def Sys2Proof.Says.opens (s u : State) (n d : Nat) : State :=
  let stop := ((me s).pc + 16 * d) % 2 ^ 17
  if n = 0 then goes u ((stop + 16) % 2 ^ 17) false
  else withMe u fun p => { p with loops := ⟨n, after s, stop⟩ :: p.loops }

/-- R138, R140, R141, R83, R155, R25: loops, the loop stack, predicate blocks and HALT outside a predicate block. A LOOP asks for a
free level and may not stand in the end bundle of the top level; HALT leaves its partition halted after its bundle. -/
def Obligations.LoopsAndPredicateBlocks : Prop :=
  ∀ s, s.cur.covered = false →
    ((∀ l r, (me s).loops = l :: r → l.stop ≠ (me s).pc) →
      (∀ c d, (c ≠ 0 → (me s).loops.length < 6) → exec (.loop c d) s = .next (opens s s c d)) ∧
      ∀ k q d x u, source s q k x u → (x.toNat % 2 ^ 32 ≠ 0 → (me s).loops.length < 6) →
        exec (.loopQ k q d) s = .next (opens s u (x.toNat % 2 ^ 32) d)) ∧
    (∀ l r, (me s).loops = l :: r →
      exec .lpop s = .next (withMe s fun p => { p with loops := r }) ∧
      ∀ d, exec (.lcnt d) s = .next (inFlight s 1 0 (.spush d (BitVec.ofNat 64 l.remaining)))) ∧
    ((me s).loops = [] → (∀ d, exec (.lcnt d) s = .next (inFlight s 1 0 (.spush d 0))) ∧
      exec .lpop s = .next (marked s 0x13 0 0)) ∧
    exec .lclr s = .next (withMe s fun p => { p with loops := [] }) ∧
    (∀ p t l, exec (.pblk p t l) s = .next (withMe s fun x => { x with pblk := ⟨l + 1, t, p⟩ })) ∧
    exec .halt s = .next { s with cur := { s.cur with ends := some .halted } }

/-- R138, R140: a LOOP, of an immediate count or of one that its source gives, with no free level marks the loop-stack overflow unless
its count is 0, and one in the end bundle of the top level marks the illegal sequence. -/
def Sys2Proof.Says.loopFaults : Prop :=
  ∀ s d, s.cur.covered = false →
    let faults := fun (n : Nat) (i : Instr) =>
      (n ≠ 0 → 6 ≤ (me s).loops.length → ∃ t, exec i s = .next t ∧ (⟨s.cur.slot, 0x12, 0, 0⟩ : Mark) ∈ t.cur.marks) ∧
      ∀ l r, (me s).loops = l :: r → l.stop = (me s).pc →
        ∃ t, exec i s = .next t ∧ (⟨s.cur.slot, 0x03, 0, 0⟩ : Mark) ∈ t.cur.marks
    (∀ c, faults c (.loop c d)) ∧ ∀ k q x u, source s q k x u → faults (x.toNat % 2 ^ 32) (.loopQ k q d)

/-- R64, R143, R144, R153: NOP changes nothing; QCNT pushes the landed count of its queue and QCLR lists its queue to be
cleared at the commit of the bundle; TRAP leaves its code for the boundary after the bundle; IFENCE discards what was read
ahead and holds the partition (R152). -/
def Sys2Proof.Says.queueCountsAndFences : Prop :=
  ∀ s,
    exec .nop s = .next s ∧
    (∀ d a, exec (.qcnt d a) s = .next (inFlight s 1 0 (.spush d (BitVec.ofNat 64 (Cells.get [] a (me s).sq).length)))) ∧
    (∀ d a, exec (.qcntV d a) s = .next (inFlight s 1 0 (.spush d (BitVec.ofNat 64 (Cells.get [] a (me s).vq).length)))) ∧
    (∀ d a, exec (.qcntVn d a) s =
      .next (inFlight s 1 0 (.spush d (BitVec.ofNat 64 (Cells.get [] (32 + a) (me s).vq).length)))) ∧
    (∀ a, exec (.qclr a) s = .next { s with cur := { s.cur with clears := s.cur.clears ++ [a] } }) ∧
    (∀ a, exec (.qclrV a) s = .next { s with cur := { s.cur with clears := s.cur.clears ++ [32 + a] } }) ∧
    (∀ a, exec (.qclrVn a) s = .next { s with cur := { s.cur with clears := s.cur.clears ++ [32 + (32 + a)] } }) ∧
    (∀ c, exec (.trap c) s = .next { s with cur := { s.cur with trap := some c } }) ∧
    exec .ifence s = .next { withMe s (fun p => { p with stale := [] }) with cur := { s.cur with hold := 4 } }

/-! ### Partitions, semaphores, barriers, cycle reads and control registers -/

/-- R145: PFORK from partition 0 starts each idle partition its mask names, at the target in the issuing half, with an empty
loop stack and no predicate block, every other item kept; every other partition and every other part of the state is
unchanged. -/
def Sys2Proof.Says.forkStartsTheNamedPartitions : Prop :=
  ∀ s m i, s.cur.gpi = 4 * s.cur.core → (∀ q, q < 4 → bit (2 * m) q = true → (s.part (4 * s.cur.core + q)).run = .idle) →
    ∃ t, exec (.pfork m i) s = .next t ∧ { t with parts := s.parts } = s ∧
      ∀ p, t.part p = if p / 4 = s.cur.core ∧ bit (2 * m) (p % 4) = true then
        { s.part p with run := .running, half := (me s).half, pc := target s i, loops := [], pblk := ⟨0, 0, 0⟩,
                        group2 := none, hold := 0, stale := [] } else s.part p

/-- What SEMAk would hold with every addition under way and without the subtractions of this clock (R146). -/
abbrev Sys2Proof.Says.posted (s : State) (k : Nat) : Nat :=
  Cells.get 0 k (mine s).sema + Cells.get 0 k (mine s).semaNow + semaPending s k

/-- R145 to R147: SEMPOST and PJOIN put an addition in flight when it fits with those under way, subtractions of the same clock left
out of the check; PJOIN leaves its partition idle after its bundle; SEMWAIT subtracts at once where the semaphore holds enough, and
otherwise the bundle waits. -/
def Sys2Proof.Says.semaphores : Prop :=
  ∀ s k,
    (∀ n, posted s k + n ≤ 65535 →
      exec (.sempost k n) s = .next (inFlight s 1 0 (.sema k n))) ∧
    (s.cur.gpi % 4 ≠ 0 → posted s k + 1 ≤ 65535 →
      exec (.pjoin k) s =
        .next (let t := inFlight s 1 0 (.sema k 1); { t with cur := { t.cur with ends := some .idle } })) ∧
    ∀ n, exec (.semwait k n) s =
      .next (if n ≤ Cells.get 0 k (mine s).sema
        then withMine s fun c => { c with sema := Cells.put k (Cells.get 0 k c.sema - n) c.sema,
                                          semaNow := Cells.put k (Cells.get 0 k c.semaNow + n) c.semaNow }
        else { s with cur := { s.cur with wait := true } })

/-- R64, R143 to R147, R152, R153: forks, joins and semaphores; queue counts and clears, NOP, TRAP and IFENCE.
The model's own choices in it: assumption log 110. -/
def Obligations.ForksSemaphoresAndFences : Prop := queueCountsAndFences ∧ forkStartsTheNamedPartitions ∧ semaphores

/-- R145, R146, R148: a post or join that would carry a semaphore above 65535, a fork not from partition 0 or of a partition that
is not idle, and an arrival at a unit that does not name the partition mark their causes. -/
def Sys2Proof.Says.systemFaultsAtIssue : Prop :=
  ∀ s,
    (∀ k n, 65535 < posted s k + n →
      ∃ t, exec (.sempost k n) s = .next t ∧ t.cur.marks = s.cur.marks ++ [⟨s.cur.slot, 0x14, 0, 0⟩]) ∧
    (∀ k, s.cur.gpi % 4 ≠ 0 → 65535 < posted s k + 1 →
      ∃ t, exec (.pjoin k) s = .next t ∧ t.cur.marks = s.cur.marks ++ [⟨s.cur.slot, 0x14, 0, 0⟩]) ∧
    (∀ m i, s.cur.gpi % 4 ≠ 0 ∨ (∃ q, q < 4 ∧ bit (2 * m) q = true ∧ (s.part (4 * s.cur.core + q)).run ≠ .idle) →
      ∃ t, exec (.pfork m i) s = .next t ∧ t.cur.marks = s.cur.marks ++ [⟨s.cur.slot, 0x03, 0, 0⟩]) ∧
    (∀ k, s.cur.gpi % 4 = 0 → ∃ t, exec (.pjoin k) s = .next t ∧ (⟨s.cur.slot, 0x03, 0, 0⟩ : Mark) ∈ t.cur.marks) ∧
    ∀ c u, s.cur.gpi ∉ (s.barUnit s.cur.core c u).parts →
      ∃ t, exec (.barw c u) s = .next t ∧ t.cur.marks = s.cur.marks ++ [⟨s.cur.slot, 0x1F, 0, 0⟩]

/-- R85, R137, R138, R140, R145, R146, R148: the illegal sequences, and the faults of loops, forks, joins, semaphores and
barriers. -/
def Obligations.SequenceAndSystemFaults : Prop := illegalSequences ∧ loopFaults ∧ systemFaultsAtIssue

/-- R148, R315: an arrival that is not the last of its phase is counted and its partition waits; the last one empties the
count, begins the next phase, and at cluster scope every participant that waits at the unit is released 8 clocks on. -/
def Sys2Proof.Says.barrierArrivals : Prop :=
  ∀ s c u, let b := s.barUnit s.cur.core c u
    s.cur.gpi ∈ b.parts →
    ((∃ p ∈ b.parts, p ≠ s.cur.gpi ∧ p ∉ b.arrived) →
      ∃ t, exec (.barw c u) s = .next t ∧ t.cur = s.cur ∧ (t.part s.cur.gpi).barw = some ⟨c, u, 0, none⟩ ∧
        t.barUnit s.cur.core c u = ⟨b.parts, s.cur.gpi :: b.arrived, b.phase⟩) ∧
    ((∀ p ∈ b.parts, p ≠ s.cur.gpi → p ∈ b.arrived) →
      ∃ t, exec (.barw c u) s = .next t ∧ t.cur = s.cur ∧ t.barUnit s.cur.core c u = ⟨b.parts, [], !b.phase⟩ ∧
        (c = 0 → (t.part s.cur.gpi).barw = some ⟨0, u, 0, some 8⟩ ∧
          ∀ p ∈ b.parts, p ≠ s.cur.gpi → ∀ w, (s.part p).barw = some w → w.scope = 0 → w.unit = u →
            (t.part p).barw = some { w with left := some 8 }))

/-- The bundle's context keeps no record and replays none. -/
def Sys2Proof.Says.unrecorded (s : State) : Prop :=
  ∀ k, s.ctxOf s.cur.core = some k → (s.ctx k).recording = false ∧ (s.ctx k).replaying = false

/-- COREID: the logical index, the cluster, the die and the position in the cluster (R60). -/
def Sys2Proof.Says.coreId (n : Nat) : Nat := n + 2 ^ 9 * (n / 16) + 2 ^ 14 * (n / 160) + 2 ^ 15 * (n % 16)

/-- The control register numbered n of the bundle in progress, as it stands (R58). -/
def Sys2Proof.Says.register (s : State) (n : Nat) : Nat :=
  if n = 0x00 then (me s).flags.toNat else if n = 0x01 then (me s).slatch.toNat else if n = 0x02 then (me s).pcw.toNat
  else if n = 0x03 then (me s).gstrm.toNat else if n = 0x04 then tbpwrOf (me s) else if n = 0x05 then pstatOf s.cur.gpi (me s)
  else if n = 0x06 then (me s).tags.toNat else if n = 0x10 then (mine s).cycle else if n = 0x11 then coreId s.cur.core
  else if n = 0x12 then (mine s).kseed.toNat else if n ≤ 0x16 then Cells.get 0 (n - 0x13) (mine s).sema
  else if n = 0x17 then (mine s).frz else if n ≤ 0x1F then (Cells.get 0 (n - 0x18) (mine s).cbcfg).toNat
  else if n ≤ 0x23 then sctabOf (mine s) (n - 0x20) else if n ≤ 0x25 then accstOf (mine s) (n - 0x24)
  else if (mine s).lock then 1 else 0

/-- R149, R150: outside recording and replay the cycle and identity reads and CRGET put the true value in flight, one clock on;
CRSET puts its write in flight when no call in flight has captured the codebook it names (R47). -/
def Sys2Proof.Says.cycleIdentityAndControlRegisters : Prop :=
  ∀ s,
    (unrecorded s →
      (∀ d, exec (.rdcyc d) s = .next (inFlight s 1 0 (.spush d (BitVec.ofNat 64 (mine s).cycle)))) ∧
      (∀ d, exec (.rdfrz d) s = .next (inFlight s 1 0 (.spush d (BitVec.ofNat 64 (mine s).frz)))) ∧
      (∀ d, exec (.rdid d) s = .next (inFlight s 1 0 (.spush d (BitVec.ofNat 64 (coreId s.cur.core))))) ∧
      (∀ d, exec (.rdpix d) s = .next (inFlight s 1 0 (.spush d (BitVec.ofNat 64 s.cur.gpi)))) ∧
      ∀ d n, crListed n = true → exec (.crget d n) s = .next (inFlight s 1 0 (.spush d (BitVec.ofNat 64 (register s n))))) ∧
    ∀ a k n x u, source s a k x u → (0x18 ≤ n → ∀ c ∈ (mine s).calls, ∀ b ∈ c.cbs, b.k ≠ n - 0x18) →
      exec (.crset a k n) s = .next (inFlight u 1 0 (.creg n 0xFF x))

/-- The reads that R308 lists for a slot, with the kind of their entry and their true value. -/
noncomputable def Sys2Proof.Says.recordedReads (s : State) (d : Nat) : List (Instr × Nat × Nat) :=
  [(.rdcyc d, 0, (mine s).cycle), (.rdfrz d, 1, (mine s).frz), (.rdid d, 2, coreId s.cur.core), (.rdpix d, 3, s.cur.gpi),
   (.crget d 0x10, 4, (mine s).cycle), (.crget d 0x11, 5, coreId s.cur.core), (.crget d 0x17, 6, (mine s).frz)]

/-- The next number of the stream of the bundle's partition in context k (R308). -/
def Sys2Proof.Says.number (s : State) (k : Nat) : Nat := Cells.get 0 s.cur.gpi (s.ctx k).seqs

/-- That number taken. -/
abbrev Sys2Proof.Says.numbered (s : State) (k : Nat) : State :=
  s.updCtx k fun c => { c with seqs := Cells.put s.cur.gpi (number s k + 1) c.seqs }

/-- The next place of context k's record ring taken (R308). -/
abbrev Sys2Proof.Says.placed (s : State) (k : Nat) : State := s.updCtx k fun c => { c with recNext := c.recNext + 1 }

/-- The place of entry i of the ring of context k: after its first 64 bytes, entries of 64 bytes (R308). -/
def Sys2Proof.Says.entryAt (s : State) (k i : Nat) : Nat :=
  fld ((s.ctx k).word 6) 12 44 * 4096 + 64 + 64 * (i % 2 ^ fld ((s.ctx k).word 7) 0 5)

/-- R308: an entry written leaves its words, little-endian, at its place, and the write index at the ring's first word on the first
place that is not written. A place that does not translate is not free (assumption log 98). -/
def Sys2Proof.Says.entered (s : State) (k i : Nat) (ws : List Nat) (w : State) : Prop :=
  ∃ t, s.virtWrite k (entryAt s k i) (ws.flatMap fun w => splitBytes w 8) = some t ∧
    let u := t.updCtx k fun c => { c with recDone := i :: c.recDone }
    let base := fld ((s.ctx k).word 6) 12 44 * 4096
    ∃ n, s.virtNat k base 8 ≤ n ∧ n ∉ (u.ctx k).recDone ∧ (∀ j, s.virtNat k base 8 ≤ j → j < n → j ∈ (u.ctx k).recDone) ∧
      w = (u.virtWrite k base (splitBytes n 8)).getD u

/-- R308, R309: with a free place in the ring a recorded read appends its entry (its kind, stream and number, and its value) and returns
the true value; with none its bundle waits. In a replay run it returns the value that the entry of its stream and number holds, when its
kind is the read's, and with no such entry, or one of another kind, its slot is marked with the replay cause. -/
def Sys2Proof.Says.recordedAndReplayedReads : Prop :=
  ∀ s k, s.ctxOf s.cur.core = some k →
    ((s.ctx k).recording = true → (s.ctx k).replaying = false → ∀ d, ∀ r ∈ recordedReads s d,
      (s.ringFull k = false → ∃ w, entered (placed (numbered s k) k) k (s.ctx k).recNext
          [r.2.1 + 16 * s.cur.gpi + 2 ^ 16 * (number s k % 2 ^ 48), 0, r.2.2, 0, 0, 0, 0, 0] w ∧
        exec r.1 s = .next (inFlight w 1 0 (.spush d (BitVec.ofNat 64 r.2.2)))) ∧
      (s.ringFull k = true → ∃ t, exec r.1 s = .next t ∧ t.cur.wait = true)) ∧
    ((s.ctx k).replaying = true →
      (∀ e, s.findEntry k s.cur.gpi (number s k) = some e → ∀ d, ∀ r ∈ recordedReads s d,
        (e.getD 0 0 % 16 = r.2.1 →
          exec r.1 s = .next (inFlight (numbered s k) 1 0 (.spush d (BitVec.ofNat 64 (e.getD 2 0))))) ∧
        (e.getD 0 0 % 16 ≠ r.2.1 →
          ∃ t, exec r.1 s = .next t ∧ t.cur.marks = s.cur.marks ++ [⟨s.cur.slot, 0x26, 0, 0⟩])) ∧
      (s.findEntry k s.cur.gpi (number s k) = none → ∀ d, ∀ r ∈ recordedReads s d,
        ∃ t, exec r.1 s = .next t ∧ t.cur.marks = s.cur.marks ++ [⟨s.cur.slot, 0x26, 0, 0⟩]))

/-- R149, R150, R308, R309: the cycle and identity reads, CRGET and CRSET, and these reads where they are recorded and in a
replay run.
The model's own choices in it: assumption logs 11, 97. -/
def Obligations.CycleReadsAndControlRegisters : Prop := cycleIdentityAndControlRegisters ∧ recordedAndReplayedReads

/-- R154, R329: ERET outside handler state marks the illegal sequence; in it, alone in its bundle, it resumes the program at its
commit, and waits while the handler's results, commands or calls are under way. -/
def Sys2Proof.Says.returnFromTheHandler : Prop :=
  ∀ s,
    ((∀ h, (mine s).stop = some h → h.handler ≠ some (s.cur.gpi % 4)) → exec .eret s = .next (marked s 0x03 0 0)) ∧
    ∀ h, (mine s).stop = some h → h.handler = some (s.cur.gpi % 4) →
      (s.cur.others ≠ 0 → exec .eret s = .next (marked s 0x03 0 0)) ∧
      (s.cur.others = 0 → exec .eret s = .next { s with cur := { s.cur with
        wait := s.cur.wait || !((mine s).pend.isEmpty && (mine s).near.isEmpty &&
          (me s).cmds.all (fun c => decide (c.id < h.from_)) && (mine s).calls.all fun c => decide (c.id < h.from_)),
        resume := true } })

/-! ### Slot-2 accesses -/

namespace Sys2Proof.Says

open Sys2Proof Sys2Proof.Machine

/-- The offset of a slot-2 access: the base and the index, which a header widens upward, times the unit, modulo 2^23, with the
bits below the access size cleared (R230). -/
def offset (s : State) (base : W64) (i nf unit : Nat) : Nat :=
  (base.toNat % 2 ^ 23 + (if s.cur.mod.headed then s.cur.mod.ext * 2 ^ nf + i else i) * unit) % 2 ^ 23 / unit * unit

/-- No matrix call issued on an earlier clock reserves the bank group of an offset: it is neither the group of the mp0 nor that of
the mp1 which the call captured at its issue (R209). -/
def free (s : State) (a : Nat) : Prop :=
  ∀ c ∈ (mine s).calls, ∀ r, c.kind = .mcall r → 1 ≤ c.age → c.agrp ≠ a / 2 ^ 21 ∧ c.bgrp ≠ a / 2 ^ 21

/-- A slot-2 access listed to perform on the next clock (R231), and nothing else changed. -/
abbrev listed (u : State) (a : Near) : State :=
  withMine u fun c => { c with near := c.near ++ [⟨u.cur.gpi, u.cur.slot, c.tick, a⟩] }

end Sys2Proof.Says

/-- R230, R231, R233, R234: a slot-2 access forms its offset and is listed to perform on the next clock; a load's result is in
flight for 6 clocks and an atomic's for 8; a store takes its data at issue. -/
def Obligations.SlotTwoIssue : Prop :=
  (∀ s sx d m b i z x u, source s b m x u → free s (offset s x i 11 (2 ^ z)) →
    exec (.lds sx d m b i z) s =
      .next (inFlight (listed u (.load d (2 ^ z) sx (offset s x i 11 (2 ^ z)))) 6 0 (.spush d 0))) ∧
  (∀ s d m b k i z v x t u, source s d k v t → source t b m x u → free s (offset s x i 11 (2 ^ z)) →
    exec (.sts d m b k i z) s = .next (listed u (.store (offset s x i 11 (2 ^ z)) (2 ^ z) v.toNat))) ∧
  (∀ s d m b i x u, source s b m x u → free s (offset s x i 13 128) →
    exec (.ldv d m b i) s = .next (inFlight (listed u (.loadV d (offset s x i 13 128))) 6 0 (.vpush d 0))) ∧
  (∀ s d m b k i v x t u, vsource s d k v t → source t b m x u → free s (offset s x i 13 128) →
    exec (.stv d m b k i) s = .next (listed u (.store (offset s x i 13 128) 128 v.toNat))) ∧
  (∀ s t m b i r x u, source s b m x u → free s (offset s x i 6 128) → awake s t →
    exec (.ldt t m b i r) s =
      .next (inFlight (listed u (.loadT t r (offset s x i 6 128))) 6 0 (.tileRow t r (BitVec.allOnes 1024) 0))) ∧
  (∀ s t m b i r x u, source s b m x u → free s (offset s x i 6 128) → awake s t →
    exec (.stt t m b i r) s = .next (listed u (.store (offset s x i 6 128) 128 (row s t r).toNat))) ∧
  (∀ s q m b k i (z : Bool) o v x t u, source s q k v t → source t b m x u →
    free s (offset s x i 8 (if z then 8 else 4)) →
    exec (.natom q m b k i z o) s =
      .next (inFlight (listed u (.atomic q (if z then 8 else 4) o (offset s x i 8 (if z then 8 else 4)) v.toNat)) 8 0
        (.spush q 0))) ∧
  ∀ s q m b i v x t u, source s q false v t → source t b m x u → free s (offset s x i 8 4) →
    exec (.ncas q m b i) s = .next (inFlight (listed u (.cas q (offset s x i 8 4) v.toNat)) 8 0 (.spush q 0))

/-- R209: a slot-2 access of any form to a bank group that a call reserves marks the bank-conflict cause. -/
def Sys2Proof.Says.slotTwoBankConflict : Prop :=
  ∀ s m b x i, let conflicts := fun (i : Instr) =>
      ∃ t, exec i s = .next t ∧ t.cur.marks = s.cur.marks ++ [⟨s.cur.slot, 0x18, 0, 0⟩]
    (∀ u, source s b m x u →
      (∀ sx d z, ¬ free s (offset s x i 11 (2 ^ z)) → conflicts (.lds sx d m b i z)) ∧
      (∀ d, ¬ free s (offset s x i 13 128) → conflicts (.ldv d m b i)) ∧
      ∀ t r, awake s t → ¬ free s (offset s x i 6 128) → conflicts (.ldt t m b i r) ∧ conflicts (.stt t m b i r)) ∧
    (∀ d k v t u, source s d k v t → source t b m x u →
      (∀ z, ¬ free s (offset s x i 11 (2 ^ z)) → conflicts (.sts d m b k i z)) ∧
      (∀ (z : Bool) o, ¬ free s (offset s x i 8 (if z then 8 else 4)) → conflicts (.natom d m b k i z o)) ∧
      (k = false → ¬ free s (offset s x i 8 4) → conflicts (.ncas d m b i))) ∧
    ∀ d k v t u, vsource s d k v t → source t b m x u → ¬ free s (offset s x i 13 128) → conflicts (.stv d m b k i)

/-- The new value of an atomic of R234 on old value y and operand x, bits wide. -/
def Sys2Proof.Says.atomic (o bits y x : Nat) : Nat :=
  let a := x % 2 ^ bits
  (if o = 0 then y + a else if o = 1 then y &&& a else if o = 2 then y ||| a else if o = 3 then y ^^^ a
   else if o = 4 then (if sgn bits y ≤ sgn bits a then y else a) else if o = 5 then (if sgn bits y ≤ sgn bits a then a else y)
   else if o = 6 then min y a else if o = 7 then max y a else a) % 2 ^ bits

/-- The partition has no active transaction (R259). -/
def Sys2Proof.Says.outsideTransaction (p : Part) : Prop := ∀ x, p.tx = some x → x.gone = true

/-- The byte at address b of an owner as a transaction reads it: through its write buffer (R260). -/
def Sys2Proof.Says.throughBuffer (y : Tx) (o : Owner) (m : Mem) (b : Nat) : W8 :=
  match y.buf.find? fun t => t.owner == o && t.addr == b with
  | some t => t.val
  | none => m.read b

/-- R231, R234, R260: SLOT2_PERFORM of a partition whose transaction is active takes the oldest listed access of its core. It reads
through the transaction's buffer; what it writes goes into the buffer, and no byte of the slice changes. While the transaction is not
doomed the tile it touches is marked, as written where the access writes; a doomed one marks nothing. -/
def Sys2Proof.Says.bufferedAccess (s : State) (n : Nat) (x : NearAccess) (r : List NearAccess) (y : Tx) : Prop :=
  ∃ t z, exec (.slot2Perform n) s = .next t ∧ (t.core n).near = r ∧ (t.core n).slice = (s.core n).slice ∧ t.hbm = s.hbm ∧
    (∀ m, m ≠ n → t.core m = s.core m) ∧ (t.part x.gpi).tx = some z ∧ z.no = y.no ∧ z.gone = false ∧
    (y.code ≠ 0 → z.code = y.code ∧ z.marks = y.marks) ∧
    let old := throughBuffer y (.slice n) (s.core n).slice
    let num := fun (a k : Nat) => joinBytes ((List.range k).map fun i => old (a + i))
    let fills := fun (a : LandAct) => (t.core n).pend = (s.core n).pend.map fun l =>
      if l.gpi = x.gpi ∧ l.slot = x.slot ∧ l.issued = x.issued then { l with act := a } else l
    let now := throughBuffer z (.slice n) (s.core n).slice
    let marked := fun (a k : Nat) (wr : Bool) => a % 256 + k ≤ 256 → y.applying = false → z.code = 0 →
      ∃ m ∈ z.marks, m.owner = .slice n ∧ m.tile = a / 256 ∧ (wr = true → m.wr = true)
    let wrote := fun (a k v : Nat) =>
      (∀ b, now b = if a ≤ b ∧ b < a + k then BitVec.ofNat 8 (v / 2 ^ (8 * (b - a))) else old b) ∧ (0 < k → marked a k true)
    (∀ q k sx a, x.acc = .load q k sx a → 0 < k → (∀ b, now b = old b) ∧ marked a k false ∧
      fills (.spush q (if sx then BitVec.ofInt 64 (sgn (8 * k) (num a k)) else BitVec.ofNat 64 (num a k)))) ∧
    (∀ q a, x.acc = .loadV q a → (∀ b, now b = old b) ∧ marked a 128 false ∧ fills (.vpush q (BitVec.ofNat 1024 (num a 128)))) ∧
    (∀ i j a, x.acc = .loadT i j a → (∀ b, now b = old b) ∧ marked a 128 false ∧
      fills (.tileRow i j (BitVec.allOnes 1024) (BitVec.ofNat 1024 (num a 128)))) ∧
    (∀ a k v, x.acc = .store a k v → wrote a k v ∧ (t.core n).pend = (s.core n).pend) ∧
    (∀ q k o a v, x.acc = .atomic q k o a v →
      wrote a k (atomic o (8 * k) (num a k) v) ∧ fills (.spush q (BitVec.ofNat 64 (num a k)))) ∧
    ∀ q a v, x.acc = .cas q a v →
      (num a 4 = v % 2 ^ 32 → wrote a 4 (v / 2 ^ 32)) ∧ (num a 4 ≠ v % 2 ^ 32 → (∀ b, now b = old b) ∧ marked a 4 false) ∧
      fills (.spush q (BitVec.ofNat 64 (num a 4)))

/-- R231, R232, R234, R260: SLOT2_PERFORM takes the oldest listed access of its core. Outside a transaction a load places the
little-endian bytes it finds in the landing that its issue put in flight and changes no byte; a store, an atomic and a compare-and-swap
change exactly the bytes they address; no other core changes. Inside one the access reads and writes through the transaction's
buffer. -/
def Obligations.SlotTwoAccessPerforms : Prop :=
  (∀ s n x r y, (s.core n).near = x :: r → (s.part x.gpi).tx = some y → y.gone = false → bufferedAccess s n x r y) ∧
  ∀ s n x r, (s.core n).near = x :: r → outsideTransaction (s.part x.gpi) → (s.core n).slice.wf →
    ∃ t, exec (.slot2Perform n) s = .next t ∧ (t.core n).near = r ∧ (∀ m, m ≠ n → t.core m = s.core m) ∧
      let m := (s.core n).slice
      let fills := fun (a : LandAct) => (t.core n).pend = (s.core n).pend.map fun l =>
        if l.gpi = x.gpi ∧ l.slot = x.slot ∧ l.issued = x.issued then { l with act := a } else l
      let wrote := fun (a k v : Nat) => ∀ b, (t.core n).slice.read b =
        if a ≤ b ∧ b < a + k then BitVec.ofNat 8 (v / 2 ^ (8 * (b - a))) else m.read b
      (∀ q k sx a, x.acc = .load q k sx a → (t.core n).slice = m ∧
        fills (.spush q (if sx then BitVec.ofInt 64 (sgn (8 * k) (m.readN a k)) else BitVec.ofNat 64 (m.readN a k)))) ∧
      (∀ q a, x.acc = .loadV q a → (t.core n).slice = m ∧ fills (.vpush q (BitVec.ofNat 1024 (m.readN a 128)))) ∧
      (∀ i j a, x.acc = .loadT i j a → (t.core n).slice = m ∧
        fills (.tileRow i j (BitVec.allOnes 1024) (BitVec.ofNat 1024 (m.readN a 128)))) ∧
      (∀ a k v, x.acc = .store a k v → wrote a k v ∧ (t.core n).pend = (s.core n).pend) ∧
      (∀ q k o a v, x.acc = .atomic q k o a v →
        wrote a k (atomic o (8 * k) (m.readN a k) v) ∧ fills (.spush q (BitVec.ofNat 64 (m.readN a k)))) ∧
      ∀ q a v, x.acc = .cas q a v →
        (m.readN a 4 = v % 2 ^ 32 → wrote a 4 (v / 2 ^ 32)) ∧ (m.readN a 4 ≠ v % 2 ^ 32 → (t.core n).slice = m) ∧
        fills (.spush q (BitVec.ofNat 64 (m.readN a 4)))

/-! ### Matrix-unit instructions of slot 3 -/

namespace Sys2Proof.Says

open Sys2Proof Sys2Proof.Machine

/-- An answer: a call-queue entry of a kind, new and queued, with what it captures of its partition and core at issue, the bank
groups of mp0 and mp1 among it (R209), stands at the end of the core's queue under the next number; nothing else changed (R204,
R206). -/
def queues (o : Machine.Out) (s u : State) (kind : CallKind) (f : Call → Prop) : Prop :=
  ∃ k : Call, k.id = s.nextId ∧ k.kind = kind ∧ k.stage = .queued ∧ k.gpi = s.cur.gpi ∧ k.pc = (me s).pc ∧ k.pcw = (me s).pcw ∧
    k.gstrm = (me s).gstrm ∧ k.mps = (me s).mps ∧ k.agrp = fld (Cells.get 0 0 (me s).mps).toNat 21 2 ∧
    k.bgrp = fld (Cells.get 0 1 (me s).mps).toNat 21 2 ∧ k.sctab = (mine s).sctab ∧ k.fault = none ∧ f k ∧
    o = .next { withMine u (fun c => { c with calls := c.calls ++ [k] }) with nextId := s.nextId + 1 }

/-- The call queue of the core has a free place: fewer than eight entries have not ended (R206). -/
def roomy (s : State) : Prop := ((mine s).calls.filter fun k => k.stage != .ended).length < 8

/-- Tag p taken by the command or call that takes the next number: it reads 0 until that one completes (R239). -/
abbrev claims (s : State) (p : Nat) : State :=
  withMe s fun x => { x with tags := x.tags &&& ~~~(BitVec.ofNat 64 (2 ^ p)), owners := Cells.put p s.nextId x.owners }

/-- The tags an instruction consumes: its two and the header's third, those equal to the one it produces left out (R72,
R239). -/
def needs (s : State) (p a b : Nat) : List Nat :=
  ([a, b] ++ if s.cur.mod.headed then [s.cur.mod.ext] else []).filter fun g => g != p

/-- The argument words popped from one queue, oldest first (R238). -/
def pops (s : State) (q : Nat) : List Nat → State → Prop
  | [], u => u = s
  | w :: ws, u => ∃ x t, source s q false x t ∧ w = x.toNat ∧ pops t q ws u

/-- The views of a list of tiles set to one value. -/
def views (v : Cells AccTag) (g : AccTag) (m : Nat) : Cells AccTag :=
  ((List.range 8).filter fun t => bit m t).foldl (fun v t => Cells.put t g v) v

end Sys2Proof.Says

/-- R212 to R214, R218, R267: the parameter, precision-word, scale-table, stream and codebook-select writes read their source
and put their write in flight; MPGET pushes the parameter as it stands. -/
def Sys2Proof.Says.matrixParameterWrites : Prop :=
  (∀ s a k x u, source s a k x u →
    (∀ n, exec (.mpset n a k) s = .next (inFlight u 1 0 (.mparam n x))) ∧
    (∀ n, exec (.mpadd n a k) s = .next (inFlight u 1 0 (.mparam n (Cells.get 0 n (me s).mps + x)))) ∧
    exec (.pcwset a k) s = .next (inFlight u 1 0 (.creg 0x02 0xFF x)) ∧
    exec (.pcwmem a k) s = .next (inFlight u 1 0 (.creg 0x02 0xC0 (x <<< 48))) ∧
    (∀ g, exec (.scld g a k) s = .next (inFlight u 4 0 (.creg (0x20 + g) 0xFF x))) ∧
    exec (.gsset a k) s = .next (inFlight u 1 0 (.creg 0x03 0xFF (BitVec.ofNat 64 (x.toNat % 2 ^ 32))))) ∧
  (∀ s d n, exec (.mpget d n) s = .next (inFlight s 1 0 (.spush d (Cells.get 0 n (me s).mps)))) ∧
  (∀ s x v, exec (.scldi x v) s = .next (inFlight s 4 0 (.creg (0x20 + x / 4) (3 * 2 ^ (2 * (x % 4)))
    (BitVec.ofNat 64 ((if s.cur.mod.headed then s.cur.mod.ext * 2 ^ 13 + v else v) % 2 ^ 16 * 2 ^ (16 * (x % 4))))))) ∧
  ∀ s n, exec (.cbsel n) s = .next (inFlight s 1 0 (.cbsel n))

/-- R203 to R206, R215 to R217: with a free place in the queue, WSWAP, ACLR, ACDRN and an MCALL that passes its checks join it;
ACLR and MCALL set the issue view of their tiles at once, and ACDRN and MCALL take their tag. -/
def Sys2Proof.Says.matrixCallsJoinTheQueue : Prop :=
  ∀ s, roomy s →
    queues (exec .wswap s) s s .wswap (fun k => k.tag = none ∧ k.needs = []) ∧
    (∀ t, queues (exec (.aclr t) s) s (withMine s fun c => { c with accView := views c.accView ⟨false, 0⟩ (2 ^ t) })
      (.aclr (2 ^ t)) fun k => k.tag = none ∧ k.needs = []) ∧
    queues (exec .aclrAll s) s (withMine s fun c => { c with accView := views c.accView ⟨false, 0⟩ 255 })
      (.aclr 255) (fun k => k.tag = none ∧ k.needs = []) ∧
    (drainBad (me s).pcw = false →
      (∀ p a b q w u, pops s q [w] u →
        queues (exec (.acdrn p a b false q) s) s (claims u p) (.acdrn w 0) fun k =>
          k.tag = some p ∧ k.needs = needs s p a b ∧ k.xb = 0) ∧
      ∀ p a b q w x u, pops s q [w, x] u →
        queues (exec (.acdrn p a b true q) s) s (claims u p) (.acdrn w (x % 2 ^ 48)) fun k =>
          k.tag = some p ∧ k.needs = needs s p a b ∧ k.xb = x % 2 ^ 48) ∧
    ∀ p a b r, let e := (mine s).routine r
      mcallFault s false e = none → tableInFlight s s.cur.core (fun t => t == 2) = false →
      queues (exec (.mcall p a b r) s) s
        (withMine (claims s p) fun c => { c with
          accView := views (views c.accView ⟨true, fld (me s).pcw.toNat 14 8⟩ (fld e 10 8)) ⟨false, 0⟩ (fld e 18 8) })
        (.mcall r) fun k => k.tag = some p ∧ k.needs = needs s p a b ∧ k.awm = fld e 10 8 ∧ k.acm = fld e 18 8 ∧
          k.word = fld e 0 10

/-- R203 to R206, R212 to R218, R267: the matrix-unit instructions of slot 3. -/
def Obligations.MatrixParametersAndCalls : Prop := matrixParameterWrites ∧ matrixCallsJoinTheQueue

/-- R203, R206, R319: an MCALL that fails a check marks its slot with one of the causes of R203 and joins no queue; with the queue
full the bundle of an entry of any kind waits, and an MCALL's does while an MPSLD of its core has not landed. -/
def Sys2Proof.Says.matrixCallsRefusedOrWaiting : Prop :=
  (∀ s p a b r c, mcallFault s (tableInFlight s s.cur.core fun t => t == 2) ((mine s).routine r) = some c →
    c ∈ [0x1A, 0x1B, 0x1C, 0x18, 0x19] ∧ exec (.mcall p a b r) s = .next (marked s c 0 0)) ∧
  (∀ s, ¬ roomy s → ∀ i, i = .wswap ∨ i = .aclrAll ∨ (∃ t, i = .aclr t) ∨ (∃ p a b w q, i = .acdrn p a b w q) →
    ∃ t, exec i s = .next t ∧ t.cur.wait = true) ∧
  ∀ s p a b r, ¬ roomy s ∨ tableInFlight s s.cur.core (fun t => t == 2) = true →
    mcallFault s (tableInFlight s s.cur.core fun t => t == 2) ((mine s).routine r) = none →
    ∃ t, exec (.mcall p a b r) s = .next t ∧ t.cur.wait = true

/-! ### Engine commands and tags -/

namespace Sys2Proof.Says

open Sys2Proof Sys2Proof.Machine

/-- An answer: a command of a kind, new and not started, stands last among its partition's commands under the next number, with
its argument words, its tags, its FN field, the transaction active at its issue, and its place in the record ring; its produced tag is
taken; nothing else changed (R238, R239, R262, R308). -/
def commandsAt (o : Machine.Out) (s u : State) (kind : EngKind) (fn p a b : Nat) (ws : List Nat) (place : Nat) : Prop :=
  ∃ c : Cmd, c.id = s.nextId ∧ c.kind = kind ∧ c.fn = fn ∧ c.tag = p ∧ c.needs = needs s p a b ∧ c.words = ws ∧
    c.gpi = s.cur.gpi ∧ c.pc = (me s).pc ∧ c.fault = none ∧ c.started = false ∧ c.place = place ∧
    c.intx = ((me s).tx.filter fun x => !x.gone).map Tx.no ∧
    o = .next { withMe (claims u p) (fun x => { x with cmds := x.cmds ++ [c] }) with nextId := s.nextId + 1 }

/-- The same of a command with no place in the record ring. -/
abbrev commands (o : Machine.Out) (s u : State) (kind : EngKind) (fn p a b : Nat) (ws : List Nat) : Prop :=
  commandsAt o s u kind fn p a b ws 0

/-- The partition of the bundle is below both limits of R240: fewer than 32 commands, and fewer than 512 rows asked for and not moved,
which are those of the commands that count their time (assumption log 15). -/
def spacious (s : State) : Prop :=
  (me s).cmds.length < 32 ∧ (((me s).cmds.filter fun c => c.counting).map Cmd.rowsOwed).sum < 512

/-- The partition of the bundle has no active transaction (R259). -/
def outsideTx (s : State) : Prop := ∀ x, (me s).tx = some x → x.gone = true

/-- A global address that does not lead into a slice window the context may not use (R236). -/
def reachable (s : State) (va : Nat) : Prop := ∀ x, s.windowVa (s.ctxOf s.cur.core) va = some x → ∃ o pa b, x = .page o pa b true

end Sys2Proof.Says

/-- R238, R242: FLD, FST and FATOM with argument words whose reserved bits are 0 join their partition's commands. -/
def Sys2Proof.Says.farAccessesIssue : Prop :=
  ∀ s p a b f q u, spacious s →
    (∀ v w, pops s q [v, w] u → w < 2 ^ 45 → bit w 23 = false → fld w 37 8 = 0 → reachable s (v % 2 ^ 56 / 8 * 8) →
      commands (exec (.fld p a b f q) s) s u .fld f p a b [v, w] ∧
      commands (exec (.fst p a b f q) s) s u .fst f p a b [v, w]) ∧
    ∀ v w x, pops s q [v, w, x] u → w < 2 ^ 50 → bit w 23 = false → fld w 24 13 = 0 → fld w 37 8 = 0 → fld w 46 4 ≤ 9 →
      reachable s (v % 2 ^ 56 / (if bit w 45 then 8 else 4) * if bit w 45 then 8 else 4) →
      commands (exec (.fatom p a b f q) s) s u .fatom f p a b [v, w, x]

/-- R243, R253 to R255, R258, R263, R264, R266: the other transfer, task, drain, checkpoint and overlay commands, outside a
transaction and with words in order, join their partition's commands; bits [63:56] of OVLD's first word are ignored (assumption log
61). CKPT stops its partition's issue. -/
def Sys2Proof.Says.engineCommandsIssue : Prop :=
  ∀ s p a b, spacious s →
    (∀ f, commands (exec (.drn p a b f) s) s s .drn f p a b []) ∧
    (outsideTx s → ∀ q u,
      (∀ w, pops s q [w] u →
        (w < 2 ^ 23 → commands (exec (.copy p a b q) s) s u .copy 0 p a b [w]) ∧
        (w < 2 ^ 23 → w % 32 = 0 → commands (exec (.spawn p a b q) s) s u .spawn 0 p a b [w]) ∧
        (w < 2 ^ 23 → unrecorded s → commands (exec (.take p a b q) s) s u .take 0 p a b [w]) ∧
        (w < 2 ^ 56 → w % 64 = 0 → commands (exec (.join p a b q) s) s u .join 0 p a b [w]) ∧
        (let e := Cells.get 0 (fld w 23 4) (s.cluster (s.cur.core / 16)).mcwin
         w < 2 ^ 44 → mcMask e ≠ 0 → 16 * fld w 27 12 + 128 * (fld w 39 5 + 1) ≤ mcSize e →
         commands (exec (.mcst p a b q) s) s u .mcst 0 p a b [w])) ∧
      (∀ v w, pops s q [v, w] u →
        (v < 2 ^ 52 → 16 ≤ w → w ≤ 2 ^ 24 → w % 16 = 0 → commands (exec (.cgath p a b q) s) s u .cgath 0 p a b [v, w]) ∧
        (w < 2 ^ 56 → commands (exec (.ovld p a b q) s) s u .ovld 0 p a b [v, w])) ∧
      ∀ v w x, pops s q [v, w, x] u → v < 2 ^ 56 → w < 2 ^ 46 → x < 2 ^ 56 →
        commands (exec (.gath p a b q) s) s u .gath 0 p a b [v, w, x] ∧
        commands (exec (.scat p a b q) s) s u .scat 0 p a b [v, w, x]) ∧
    (outsideTx s → ∃ t, exec (.ckpt p a b) s = .next t ∧ (t.part s.cur.gpi).ckpt = true ∧
      ∃ c, (t.part s.cur.gpi).cmds = (me s).cmds ++ [c] ∧ c.kind = .ckpt ∧ c.tag = p ∧ c.id = s.nextId)

/-- R263, R308, R309: a TAKE that is recorded takes its number and its place in the ring at its issue; in a replay run it carries the
entry of its stream and number with it, and with none, or one of another kind, its slot is marked with the replay cause. -/
def Sys2Proof.Says.recordedTakesIssue : Prop :=
  ∀ s p a b q w u k, spacious s → outsideTx s → pops s q [w] u → w < 2 ^ 23 → s.ctxOf s.cur.core = some k →
    ((s.ctx k).recording = true → (s.ctx k).replaying = false →
      (s.ringFull k = false → commandsAt (exec (.take p a b q) s) s (placed (numbered u k) k) .take 0 p a b [w, number s k]
        (s.ctx k).recNext) ∧
      (s.ringFull k = true → ∃ t, exec (.take p a b q) s = .next t ∧ t.cur.wait = true)) ∧
    ((s.ctx k).replaying = true →
      (∀ e, s.findEntry k s.cur.gpi (number s k) = some e →
        (e.getD 0 0 % 16 = 7 →
          commands (exec (.take p a b q) s) s (numbered u k) .take 0 p a b (w :: number s k :: e)) ∧
        (e.getD 0 0 % 16 ≠ 7 →
          ∃ t, exec (.take p a b q) s = .next t ∧ t.cur.marks = s.cur.marks ++ [⟨s.cur.slot, 0x26, 0, 0⟩])) ∧
      (s.findEntry k s.cur.gpi (number s k) = none →
        ∃ t, exec (.take p a b q) s = .next t ∧ t.cur.marks = s.cur.marks ++ [⟨s.cur.slot, 0x26, 0, 0⟩]))

/-- R238, R242, R243, R253 to R255, R258, R263, R264, R266, R308, R309: the far accesses and engine commands of slot 3 at
their issue.
The model's own choices in it: assumption logs 15, 61. -/
def Obligations.FarAccessesAndEngineCommands : Prop := farAccessesIssue ∧ engineCommandsIssue ∧ recordedTakesIssue

/-- The commands of majors 0x33 to 0x36 and 0x3A to 0x3C, with their argument words in queue q (R238). -/
noncomputable def Sys2Proof.Says.nonTransactional (p a b q : Nat) : List Instr :=
  [.copy p a b q, .gath p a b q, .scat p a b q, .mcst p a b q, .cgath p a b q, .spawn p a b q, .take p a b q, .join p a b q,
   .ckpt p a b, .cbld p a b q, .cwtld p a b q, .mpsld p a b q, .gtld p a b q, .latld p a b q, .ovld p a b q]

/-- The other engine commands: the far accesses, DRN and the transaction commands. -/
noncomputable def Sys2Proof.Says.transactional (p a b f q : Nat) : List Instr :=
  [.fld p a b f q, .fst p a b f q, .fatom p a b f q, .drn p a b f, .txb p a b, .txc p a b q, .txa p a b]

/-- R238, R240 to R243, R253 to R255, R259, R261, R263, R265, R266, R319: with 32 commands, or 512 rows asked for and not moved, the
bundle of every engine command waits (of a TAKE in a replay run, where it finds its entry). An argument word out of order marks the
engine-argument cause, for every command. A command of majors 0x33 to 0x36 and 0x3A to 0x3C and a TXB inside a transaction, and a TXC
and a TXA outside one, mark the illegal sequence. -/
def Sys2Proof.Says.engineCommandsRefusedOrWaiting : Prop :=
  ∀ s p a b,
    let marks := fun (c : Nat) (i : Instr) => ∃ t, exec i s = .next t ∧ (⟨s.cur.slot, c, 0, 0⟩ : Mark) ∈ t.cur.marks
    (¬ spacious s → ∀ f q, ∀ i ∈ transactional p a b f q ++ nonTransactional p a b q,
      (i = .take p a b q → ∀ k, s.ctxOf s.cur.core = some k → (s.ctx k).replaying = true →
        ∃ e, s.findEntry k s.cur.gpi (number s k) = some e ∧ e.getD 0 0 % 16 = 7) →
      ∃ t, exec i s = .next t ∧ t.cur.wait = true) ∧
    (∀ q v u, pops s q [v] u →
      let e := Cells.get 0 (fld v 23 4) (s.cluster (s.cur.core / 16)).mcwin
      (2 ^ 23 ≤ v → marks 0x1E (.copy p a b q) ∧ marks 0x1E (.take p a b q)) ∧
      (2 ^ 23 ≤ v ∨ v % 32 ≠ 0 → marks 0x1E (.spawn p a b q)) ∧ (2 ^ 23 ≤ v ∨ v % 8 ≠ 0 → marks 0x1E (.txc p a b q)) ∧
      (2 ^ 56 ≤ v ∨ v % 64 ≠ 0 → marks 0x1E (.join p a b q)) ∧
      (2 ^ 44 ≤ v ∨ mcMask e = 0 ∨ mcSize e < 16 * fld v 27 12 + 128 * (fld v 39 5 + 1) → marks 0x1E (.mcst p a b q)) ∧
      let n := fld v 23 13
      (2 ^ 39 ≤ v ∨ n % 16 ≠ 0 ∨ 4080 < n → marks 0x1E (.cbld p a b q)) ∧
      (2 ^ 36 ≤ v ∨ n % 4 ≠ 0 ∨ 508 < n → marks 0x1E (.cwtld p a b q)) ∧
      (2 ^ 36 ≤ v ∨ n % 8 ≠ 0 ∨ 1016 < n → marks 0x1E (.mpsld p a b q)) ∧
      (2 ^ 36 ≤ v ∨ n % 32 ≠ 0 ∨ 768 ≤ n → marks 0x1E (.gtld p a b q)) ∧
      (2 ^ 36 ≤ v ∨ (n ≠ 0 ∧ n ≠ 32) → marks 0x1E (.latld p a b q))) ∧
    (∀ f q v w u, pops s q [v, w] u →
      (bit w 23 = true ∨ fld w 37 8 ≠ 0 ∨ 2 ^ 45 ≤ w → marks 0x1E (.fld p a b f q) ∧ marks 0x1E (.fst p a b f q)) ∧
      (2 ^ 52 ≤ v ∨ w < 16 ∨ 2 ^ 24 < w ∨ w % 16 ≠ 0 → marks 0x1E (.cgath p a b q)) ∧ (2 ^ 56 ≤ w → marks 0x1E (.ovld p a b q))) ∧
    (∀ f q v w x u, pops s q [v, w, x] u →
      (bit w 23 = true ∨ fld w 24 13 ≠ 0 ∨ fld w 37 8 ≠ 0 ∨ 9 < fld w 46 4 ∨ 2 ^ 50 ≤ w → marks 0x1E (.fatom p a b f q)) ∧
      (2 ^ 56 ≤ v ∨ 2 ^ 46 ≤ w ∨ 2 ^ 56 ≤ x → marks 0x1E (.gath p a b q) ∧ marks 0x1E (.scat p a b q))) ∧
    (¬ outsideTx s → ∀ q, ∀ i ∈ .txb p a b :: nonTransactional p a b q, marks 0x03 i) ∧
    (outsideTx s → ∀ q, marks 0x03 (.txc p a b q) ∧ marks 0x03 (.txa p a b))

/-- R37, R179, R203, R206, R209, R238, R240, R242, R243, R259, R319: what a sleeping bank, a reserved bank group, a full call
queue and an engine command that cannot issue answer.
The model's own choices in it: assumption logs 111, 15. -/
def Obligations.BanksCallsAndCommandsRefused : Prop := tileOfASleepingBank ∧ slotTwoBankConflict ∧ matrixCallsRefusedOrWaiting ∧ engineCommandsRefusedOrWaiting

/-- R256: TWANY and TWALL hold their bundle while none, or not all, of the masked tags are set; TFIND pushes the number of the
lowest set tag of the mask, 64 where there is none; TCLR's clearing lands one clock on. -/
def Sys2Proof.Says.tagInstructions : Prop :=
  ∀ s a k x u, source s a k x u →
    exec (.twany a k) s = .next (if x ≠ 0 ∧ (me s).tags &&& x = 0
      then { u with cur := { u.cur with wait := true } } else u) ∧
    exec (.twall a k) s = .next (if (me s).tags &&& x = x then u else { u with cur := { u.cur with wait := true } }) ∧
    (∀ d, ∃ v : W64, exec (.tfind d a k) s = .next (inFlight u 1 0 (.spush d v)) ∧ v.toNat ≤ 64 ∧
      (∀ i, i < v.toNat → ((me s).tags &&& x).getLsbD i = false) ∧
      (v.toNat < 64 → ((me s).tags &&& x).getLsbD v.toNat = true)) ∧
    exec (.tclr a k) s = .next (inFlight u 1 0 (.tagClear x))

/-- R259, R260: TXB opens a transaction with an empty buffer on its issue clock; TXC commits through a command; TXA abandons the
transaction, empties its buffer and dooms it with code 4 unless it is doomed or being applied. -/
def Sys2Proof.Says.transactionInstructions : Prop :=
  ∀ s p a b, spacious s →
    (outsideTx s → ∃ t, exec (.txb p a b) s = .next t ∧ t.cur = s.cur ∧
      (t.part s.cur.gpi).tx = some ⟨s.nextId, 0, 0, [], [], 24, false, false⟩ ∧
      ∃ c, (t.part s.cur.gpi).cmds = (me s).cmds ++ [c] ∧ c.kind = .txb ∧ c.tag = p ∧ c.started = true ∧ c.left = 1) ∧
    ∀ x, (me s).tx = some x → x.gone = false →
      (∀ q w u, pops s q [w] u → w < 2 ^ 23 → w % 8 = 0 → commands (exec (.txc p a b q) s) s u .txc 0 p a b [w]) ∧
      ∃ t, exec (.txa p a b) s = .next t ∧ t.cur = s.cur ∧
        (t.part s.cur.gpi).tx = some { x with buf := [], gone := true, code := (if x.code = 0 ∧ x.applying = false then 4 else x.code),
                                                              va := (if x.code = 0 ∧ x.applying = false then 0 else x.va) } ∧
        ∃ c, (t.part s.cur.gpi).cmds = (me s).cmds ++ [c] ∧ c.kind = .txa ∧ c.tag = p ∧ c.started = true ∧ c.left = 1

/-- R265: the five table loads, outside a transaction, with an aligned first index, their tags set and no acquire of an earlier
bundle incomplete, start at once; their entries are in flight for 6 clocks. -/
def Obligations.TableLoadsIssue : Prop :=
  ∀ s p a b q w u, spacious s → outsideTx s → pops s q [w] u → w < 2 ^ 39 →
    (∀ g ∈ needs s p a b, (me s).tags.getLsbD g = true) → (me s).acquiring (me s).bno = false →
    let bank := fld w 36 3
    let first := fld w 23 13
    let loads := fun (i : Instr) (tbl : Nat) => ∃ t, exec i s = .next t ∧
      (∃ c, (t.part s.cur.gpi).cmds = (me s).cmds ++ [c] ∧ c.kind = .table ∧ c.fn = tbl ∧ c.tag = p ∧ c.words = [w] ∧
        c.id = s.nextId ∧ c.started = true ∧ c.left = 6) ∧
      t.cur = (inFlight u 6 0 (.table tbl bank first [] p s.nextId)).cur
    (first % 16 = 0 → first ≤ 4080 → cbldBusy s w = false → loads (.cbld p a b q) 0) ∧
    (bank = 0 →
      (first % 4 = 0 → first ≤ 508 → loads (.cwtld p a b q) 1) ∧
      (first % 8 = 0 → first ≤ 1016 → (∀ c ∈ (mine s).calls, ∀ r, c.kind ≠ .mcall r) → loads (.mpsld p a b q) 2) ∧
      (first % 32 = 0 → first ≤ 736 → (∀ c ∈ (mine s).calls, ∀ r, c.kind = .mcall r → bit c.pcw.toNat 30 = false) →
        loads (.gtld p a b q) 3) ∧
      (first % 32 = 0 → first ≤ 32 → loads (.latld p a b q) 4))

/-! ### Landings, bank power and barrier releases -/

namespace Sys2Proof.Says

open Sys2Proof Sys2Proof.Machine

/-- Partition p replaced by f of it, and nothing else changed. -/
abbrev withPart (s : State) (p : Nat) (f : Part → Part) : State := { s with parts := Cells.put p (f (s.part p)) s.parts }

/-- Core n replaced by f of it, and nothing else changed. -/
abbrev withCore (s : State) (n : Nat) (f : Core → Core) : State := { s with cores := Cells.put n (f (s.core n)) s.cores }

/-- Result x comes before result y: issued on an earlier clock, or on the same clock by a lower partition, or by the same
partition in a lower slot (R28). -/
def earlier (x y : Landing) : Prop :=
  x.issued < y.issued ∨ (x.issued = y.issued ∧ (x.gpi < y.gpi ∨ (x.gpi = y.gpi ∧ x.slot < y.slot)))

/-- A result is a table load's. -/
def ofTable (a : LandAct) : Prop := ∃ t k f r g c, a = .table t k f r g c

/-- Result l of core n is the next to land among the due results that are, or are not, table loads: it stands between a and b in
the core's list, and no such result precedes it in the order of R28. -/
def nextLanding (s : State) (n : Nat) (table : Bool) (a : List Landing) (l : Landing) (b : List Landing) : Prop :=
  (s.core n).pend = a ++ l :: b ∧ l.due ≤ (s.core n).tick ∧ (ofTable l.act ↔ table = true) ∧
    (∀ m ∈ a, m.due ≤ (s.core n).tick → (ofTable m.act ↔ table = true) → earlier l m) ∧
    ∀ m ∈ b, m.due ≤ (s.core n).tick → (ofTable m.act ↔ table = true) → ¬ earlier m l

/-- The state after a landing: the result no longer in flight, g done to its partition and h to its core, and its flags ORed
in (R26, R52). -/
abbrev landed (s : State) (n : Nat) (rest : List Landing) (l : Landing) (g : Part → Part) (h : Core → Core) : State :=
  withPart (withCore s n fun c => h { c with pend := rest }) l.gpi fun x =>
    let y := g x
    { y with flags := y.flags ||| BitVec.ofNat 6 l.flags, orNow := y.orNow ||| BitVec.ofNat 6 l.flags }

/-- A tile-power bank after a write of its request field: 11 leaves the request; a bank in no transition begins to wait for the
start of one where its request now differs from its state (R34, R36). -/
def requested (b : TBank) (f : Nat) : TBank :=
  let q := if f = 0 then BankState.off else if f = 1 then .retention else if f = 2 then .on else b.req
  if b.state = b.target then { b with req := q, pending := decide (q ≠ b.state) } else { b with req := q }

/-- The clocks of a transition between two different states (R36). -/
def moves : BankState → BankState → Nat
  | .on, _ => 4
  | .retention, .on => 16
  | .retention, _ => 4
  | .off, _ => 64

end Sys2Proof.Says

/-- R26, R28, R52, R61: the results due on a core land one by one in the order of R28, each in its destination and with its
flags: a push, a predicate, a mask, a tile row, a control register of each kind, a parameter, a semaphore, a codebook
flip, a tag clear. -/
def Sys2Proof.Says.resultLandings : Prop :=
  ∀ s n a l b, nextLanding s n false a l b →
    let lands := fun g h => exec (.resultLanding n) s = .next (landed s n (a ++ b) l g h)
    (∀ q v, l.act = .spush q v → lands (fun x => { x with sq := Cells.put q (Cells.get [] q x.sq ++ [v]) x.sq }) id) ∧
    (∀ q v, l.act = .vpush q v → lands (fun x => { x with vq := Cells.put q (Cells.get [] q x.vq ++ [v]) x.vq }) id) ∧
    (∀ t r en v, l.act = .tileRow t r en v → lands (fun x => { x with
      tiles := Cells.put (128 * t + r % 128) ((Cells.get 0 (128 * t + r % 128) x.tiles &&& ~~~en) ||| (v &&& en)) x.tiles,
      banks := Cells.put (t / 4) { Cells.get TBank.idle (t / 4) x.banks with dirty := true } x.banks }) id) ∧
    (∀ k, l.act = .pred k true → lands (fun x => { x with preds := x.preds ||| BitVec.ofNat 8 (2 ^ k) }) id) ∧
    (∀ k, l.act = .pred k false → lands (fun x => { x with preds := x.preds &&& ~~~(BitVec.ofNat 8 (2 ^ k)) }) id) ∧
    (∀ k v, l.act = .mask k v → lands (fun x => { x with masks := Cells.put k v x.masks }) id) ∧
    (∀ k v, l.act = .mparam k v → lands (fun x => { x with mps := Cells.put k v x.mps }) id) ∧
    (∀ m, l.act = .tagClear m → lands (fun x => { x with tags := (x.tags &&& ~~~m) ||| x.setNow }) id) ∧
    (∀ k m, l.act = .sema k m → lands id fun c => { c with sema := Cells.put k (Cells.get 0 k c.sema + m) c.sema }) ∧
    (∀ k, l.act = .cbsel k → lands id fun c => { c with
      cbcfg := Cells.put k (BitVec.ofNat 64 (cbcfgFlip (Cells.get 0 k c.cbcfg).toNat)) c.cbcfg }) ∧
    (∀ en v, l.act = .creg 0x00 en v → lands (fun x => { x with flags := v.setWidth 6 ||| x.orNow }) id) ∧
    (∀ en v, l.act = .creg 0x01 en v → lands (fun x => { x with slatch := v.setWidth 8 }) id) ∧
    (∀ v, l.act = .creg 0x02 0xFF v → lands (fun x => { x with pcw := v }) id) ∧
    (∀ v, l.act = .creg 0x02 0xC0 v → lands (fun x => { x with
      pcw := x.pcw &&& 0x0000FFFFFFFFFFFF ||| v &&& 0xFFFF000000000000 }) id) ∧
    (∀ en v, l.act = .creg 0x03 en v → lands (fun x => { x with gstrm := v.setWidth 32 }) id) ∧
    (∀ en v, l.act = .creg 0x04 en v → lands (fun x => { x with
      banks := [0, 1, 2, 3].foldl (fun bs k =>
        Cells.put k (requested (Cells.get TBank.idle k bs) (fld v.toNat (2 * k) 2)) bs) x.banks }) id) ∧
    (∀ k en v, k < 8 → l.act = .creg (0x18 + k) en v → lands id fun c => { c with
      cbcfg := Cells.put k (BitVec.ofNat 64 (cbcfgWrite (Cells.get 0 k c.cbcfg).toNat v.toNat)) c.cbcfg }) ∧
    ∀ g en v, g < 4 → l.act = .creg (0x20 + g) en v → lands id fun c => { c with
      sctab := [0, 1, 2, 3].foldl (fun t j =>
        if bit en (2 * j) then Cells.put (4 * g + j) (BitVec.ofNat 16 (fld v.toNat (16 * j) 16)) t else t) c.sctab }

/-- The entries of a table written from entry first on, modulo its size. -/
def Sys2Proof.Says.filled {w : Nat} (base size first : Nat) (rows : List Nat) (t : Cells (BitVec w)) : Cells (BitVec w) :=
  rows.zipIdx.foldl (fun t r => Cells.put (base + (first + r.2) % size) (BitVec.ofNat w r.1) t) t

/-- R265, R239: a table load that lands writes its entries from the first index on into its codebook bank, control-word table,
microprogram store, Gaussian table or log-add table, and its command leaves, its tag set where it is that tag's latest producer. -/
def Sys2Proof.Says.tableLandings : Prop :=
  ∀ s n a l b t k f rows g id, nextLanding s n true a l b → l.act = .table t k f rows g id →
    let lands := fun h => exec (.tableLoadLanding n) s = .next (landed s n (a ++ b) l
      (fun x =>
        let m := if Cells.get 0 g x.owners = id then BitVec.ofNat 64 (2 ^ g) else 0
        { x with cmds := x.cmds.filter fun c => c.id != id, tags := x.tags ||| m, setNow := x.setNow ||| m }) h)
    (t = 0 → lands fun c => { c with
      cbook := filled (4096 * k) 4096 f rows c.cbook, cbDirty := c.cbDirty ||| BitVec.ofNat 8 (2 ^ k) }) ∧
    (t = 1 → lands fun c => { c with cwt := filled 0 512 f rows c.cwt }) ∧
    (t = 2 → lands fun c => { c with mpst := filled 0 1024 f rows c.mpst }) ∧
    (t = 3 → lands fun c => { c with gtab := filled 0 768 f rows c.gtab }) ∧
    (t = 4 → lands fun c => { c with latab := filled 0 64 f rows c.latab })

/-- R26, R28, R52, R61, R239, R265: what a result, and a table load, does when it lands. -/
def Obligations.LandingsOfResultsAndTables : Prop := resultLandings ∧ tableLandings

/-- R36: a bank whose transition is due to start begins it with the clocks of the table, unless its tile writes in flight or
captured forbid a lowering; and at the end of a transition the bank is in its target state, a bank that was or becomes off
holding no row. R315: a release that has reached a partition ends its wait. -/
def Sys2Proof.Says.bankPowerAndBarrierRelease : Prop :=
  (∀ s p b x, x = Cells.get TBank.idle b (s.part p).banks → x.pending = true → x.state = x.target → x.req ≠ x.state →
    (x.state = .on → (∀ l ∈ (s.core (p / 4)).pend, l.gpi = p → ∀ t r e v, l.act = .tileRow t r e v → t / 4 ≠ b) ∧
      ∀ e ∈ (s.part p).snap, ∀ t r en v, e.act = .tileRow t r en v → t / 4 ≠ b) →
    exec (.tbpwrTransitionStart p b) s = .next (withPart s p fun y => { y with
      banks := Cells.put b { x with target := x.req, pending := false, left := moves x.state x.req } y.banks })) ∧
  (∀ s p b x, x = Cells.get TBank.idle b (s.part p).banks → x.left = 0 → x.state ≠ x.target →
    exec (.tbpwrTransitionEnd p b) s = .next (withPart s p fun y => { y with
      banks := Cells.put b { x with state := x.target, pending := decide (x.req ≠ x.target) } y.banks,
      tiles := (if x.state = .off ∨ x.target = .off then y.tiles.filter fun r => r.1 / 512 != b else y.tiles) })) ∧
  ∀ s p w, (s.part p).barw = some w → (s.part p).held = none → w.left = some 0 →
    (w.scope = 0 ∨ (w.scope = 1 ∧ 96 ≤ w.own) ∨ (w.scope = 2 ∧ 224 ≤ w.own)) →
    exec (.barrierRelease p) s = .next (withPart s p fun y => { y with barw := none })

/-- R36, R148, R315: barrier arrivals and releases, and the ends of bank power transitions.
The model's own choices in it: assumption log 84. -/
def Obligations.BarriersAndBankPower : Prop := barrierArrivals ∧ bankPowerAndBarrierRelease

/-! ### Micro-operations and the call queue -/

namespace Sys2Proof.Says

open Sys2Proof Sys2Proof.Machine

/-- The running call of the core. -/
def runs (s : State) (k : Call) : Prop := (mine s).calls.find? (fun c => c.stage == .running) = some k

/-- A list of calls with the one of k's number replaced by k. -/
abbrev renewed (k : Call) (l : List Call) : List Call := l.map fun x => if x.id = k.id then k else x

/-- A call's new state, and nothing else changed. -/
abbrev withCall (s : State) (k : Call) : State := withMine s fun c => { c with calls := renewed k c.calls }

/-- The next micro-word, at its first row. -/
abbrev onward (k : Call) : Call := { k with word := k.word + 1, row := 0, primed := false }

/-- Micro-word w, at its first row. -/
abbrev goesTo (k : Call) (w : Nat) : Call := { k with word := w, row := 0, primed := false }

/-- One row of cnt + 1 completed: the next row, or the next micro-word. -/
def rowOn (k : Call) (cnt : Nat) : Call :=
  if k.row < cnt then { k with row := k.row + 1, rows := k.rows + 1 } else { onward k with rows := k.rows + 1 }

/-- The call lands something on clock x (R208). -/
abbrev lands (k : Call) (x : Nat) : Call := { k with land := max k.land (x + 1) }

/-- A fault of a clock comes before one of the call or command numbered id: a call's before a command's, and of either kind the one
issued first (R318). -/
def faultsFirst (s : State) (p id : Nat) (e : LateFault × Nat) : Bool :=
  let call := fun (i : Nat) => (s.core (p / 4)).calls.any fun k => k.id == i
  (call e.2 && !call id) || (call e.2 == call id && decide (e.2 < id))

/-- The faults pending at partition p once call or command id meets one: after those of earlier clocks, in its place among those of
this clock (R318). -/
def pending (s : State) (p id : Nat) (f : LateFault) (x : Part) : List (LateFault × Nat) :=
  let now := x.late.drop x.ripe
  x.late.take x.ripe ++ now.takeWhile (faultsFirst s p id) ++ [(f, id)] ++ now.dropWhile (faultsFirst s p id)

/-- The call stopped by a fault, which is pending at its partition's next boundary (R210). -/
abbrev stopped (s : State) (k : Call) (f : LateFault) : State :=
  withPart (withCall s { k with fault := some f }) k.gpi fun x => { x with late := pending s k.gpi k.id f x }

/-- Every earlier contribution to rows row to row + cnt of a tile has landed (R222). -/
def settled (s : State) (tile row cnt : Nat) : Prop :=
  ∀ i ≤ cnt, Cells.get 0 (32 * tile + (row + i) % 32) (mine s).accReady ≤ (mine s).lclk

/-- The clock noted on which row r of a tile lands. -/
abbrev noted (tile r x : Nat) (a : Cells Nat) : Cells Nat :=
  Cells.put (32 * tile + r % 32) (max (Cells.get 0 (32 * tile + r % 32) a) (x + 1)) a

/-- The descriptor in parameter register p of a call's copies. -/
abbrev param (k : Call) (p : Nat) : W64 := Cells.get 0 p k.mps

/-- A descriptor can be used on this clock: its reserved bits are 0, and a compressed one has had its 4 clocks (R188, R346). -/
def usable (k : Call) (d : W64) : Prop := d.toNat < 2 ^ 45 ∧ (bit d.toNat 39 = true → k.primed = true ∨ k.row ≠ 0)

/-- Addition into a cell, held within 80 bits (R199). -/
def satAdd (x t : Int) : Int := max (-2 ^ 79) (min (2 ^ 79 - 1) (x + t))

/-- Does some addition of a list into a cell leave 80 bits? -/
def spills (x : Int) : List Int → Bool
  | [] => false
  | t :: r => decide (x + t < -2 ^ 79 ∨ 2 ^ 79 - 1 < x + t) || spills (satAdd x t) r

end Sys2Proof.Says

/-- R221: the micro-operations that change only the call: UNOP, WSW, ADV, ADVS, MOVP, IDXL, IDXA, MEMS, MEMA, LSET, LDEC, JMP,
WAIT, SYNC and END. ADV and ADVS change the OFS field of a descriptor and no other bit of it. -/
def Obligations.MicroSequencing : Prop :=
  ∀ s k, runs s k →
    exec .uUnop s = .next (withCall s (onward k)) ∧
    exec .uWsw s = .next (withCall s (onward { k with btag := !k.btag })) ∧
    (∀ p n, ∃ d : W64, (∀ i, i < 7 ∨ 23 ≤ i → d.getLsbD i = (param k p).getLsbD i) ∧
      (fld d.toNat 7 16 : Int) = (fld (param k p).toNat 7 16 + sgn 16 n) % 2 ^ 16 ∧
      exec (.uAdv p n) s = .next (withCall s (onward { k with mps := Cells.put p d k.mps }))) ∧
    (∀ p n, ∃ d : W64, (∀ i, i < 7 ∨ 23 ≤ i → d.getLsbD i = (param k p).getLsbD i) ∧
      (fld d.toNat 7 16 : Int) = (fld (param k p).toNat 7 16 + sgn 16 n * fld (param k p).toNat 23 16) % 2 ^ 16 ∧
      exec (.uAdvs p n) s = .next (withCall s (onward { k with mps := Cells.put p d k.mps }))) ∧
    (∀ p q, exec (.uMovp p q) s = .next (withCall s (onward { k with mps := Cells.put p (param k q) k.mps }))) ∧
    (∀ q, exec (.uIdxl q) s = .next (withCall s (onward { k with xb := (param k q).toNat % 2 ^ 48 }))) ∧
    (∀ n, exec (.uIdxa n) s = .next (withCall s (onward { k with xb := ((k.xb + 256 * sgn 16 n : Int) % 2 ^ 48).toNat }))) ∧
    (∀ n, exec (.uMems n) s = .next (withCall s (onward { k with mem := n }))) ∧
    (∀ n, exec (.uMema n) s = .next (withCall s (onward { k with mem := ((k.mem + sgn 16 n : Int) % 2 ^ 16).toNat }))) ∧
    (∀ l n, exec (.uLset l n) s = .next (withCall s (onward { k with loops := Cells.put l n k.loops }))) ∧
    (∀ l w v, v = ((Cells.get 0 l k.loops - 1 : Int) % 2 ^ 16).toNat →
      exec (.uLdec l w) s = .next (withCall s
        (if v = 0 then onward { k with loops := Cells.put l v k.loops } else goesTo { k with loops := Cells.put l v k.loops } w))) ∧
    (∀ w, exec (.uJmp w) s = .next (withCall s (goesTo k w))) ∧
    (∀ n, exec (.uWait n) s = .next (withCall s { k with waiting := true, busy := n })) ∧
    exec .uSync s = .next (withCall s { k with syncing := true }) ∧
    exec .uEnd s = .next (withMine s fun c => { c with
      calls := renewed { k with stage := .ended, ended := c.lclk + 1 } c.calls, btag := k.btag, lastEnd := c.lclk + 1 })

/-- R221, R222, R224, R210: WLD and WZ of a bank that no row in the cells still uses put its new contents in the background for 16
and 4 clocks, the bank being the one the stream's tag names or the other; a load stops the call with the microroutine cause where a
descriptor has a reserved bit, with the generator-key cause where its member is the one reserved to rounding (R105, R229), and
with the fault that it meets at a block. -/
def Sys2Proof.Says.weightBankMicroOperations : Prop :=
  ∀ s k b bank, runs s k → bank = (if k.btag = b then 0 else 1) → Cells.get 0 bank (mine s).bankFree ≤ (mine s).lclk →
    let starts := fun (o : Machine.Out) (n : Nat) (w : WBank) (flags : Nat) => o = .next (withMine s fun c => { c with
      calls := renewed { onward (lands k (c.lclk + n - 1)) with flags := k.flags ||| flags } c.calls,
      loads := c.loads ++ [⟨c.lclk + n, k.id, bank, w⟩],
      bankDone := Cells.put bank (max (c.lclk + n) (Cells.get 0 bank c.bankDone)) c.bankDone })
    starts (exec (.uWz b) s) 4 ⟨0, [], [], [], 0⟩ 0 ∧
    ∀ p q t h, (bit (param k p).toNat 39 = true ∨ (bit k.pcw.toNat 30 = true ∧ bit (param k q).toNat 39 = true) →
        k.primed = true ∨ k.row ≠ 0) →
      let bad := 2 ^ 45 ≤ (param k p).toNat ∨ (bit k.pcw.toNat 30 = true ∧ 2 ^ 45 ≤ (param k q).toNat)
      (bad → exec (.uWld p q b t h) s = .next (stopped s k ⟨0x1B, 0, 0⟩)) ∧
      (¬ bad → bit k.pcw.toNat 30 = true → k.mem = 0xFFFF → exec (.uWld p q b t h) s = .next (stopped s k ⟨0x1C, 0, 0⟩)) ∧
      (∀ w f, loadBank (mine s) k (param k p) (param k q) t h = .ok (w, f) → starts (exec (.uWld p q b t h) s) 16 w f) ∧
      ∀ f, loadBank (mine s) k (param k p) (param k q) t h = .error f →
        exec (.uWld p q b t h) s = .next (stopped s k f)

/-- R193, R196, R198, R199, R210, R221, R222, R225: a row of STRM or STRMZ of a call that may write the tile, once the loads of
its bank and the AADDMs into its tile have completed: its contributions land 9 clocks after the last of its clocks, those of its
slowest band, or of one clock where none is enabled. A micro-word out of order (a tile that the call may not write, a descriptor's
reserved bits, a block of an enabled band beyond the window, an odd window of MX blocks) stops the call with the microroutine cause, a
weight whose scale cannot be used with the scale cause, and a row that meets a fault with that fault. -/
def Sys2Proof.Says.streamMicroOperations : Prop :=
  ∀ s k acc row cnt p o bank w, runs s k → bank = (if k.btag then 1 else 0) → w = Cells.get ⟨0, [], [], [], 0⟩ bank (mine s).wbanks →
    Cells.get 0 bank (mine s).bankDone ≤ (mine s).lclk → Cells.get 0 acc (mine s).addDone ≤ (mine s).lclk →
    let d := param k p
    let stops := fun (f : LateFault) => exec (.uStrm acc row cnt p o) s = .next (stopped s k f) ∧
      exec (.uStrmz acc row cnt p o) s = .next (stopped s k f)
    let formed := bit k.awm acc = true ∧ d.toNat < 2 ^ 45 ∧
      (∀ b < 8, bit o (4 * b + 2) = false → b + 8 * fld o (4 * b) 2 ≤ fld d.toNat 40 5) ∧
      (19 ≤ fld k.pcw.toNat 5 5 → fld d.toNat 40 5 % 2 = 1)
    (¬ formed → stops ⟨0x1B, 0, 0⟩) ∧ (formed → k.row = 0 → bankScalesOk k w = false → stops ⟨0x1D, 0, 0⟩) ∧
    (formed → usable k d → (k.row = 0 → bankScalesOk k w = true) →
      (∀ f, streamRow (mine s) k w d o k.row = .error f → stops f) ∧
      ∀ r clocks, streamRow (mine s) k w d o k.row = .ok r →
        clocks = (bandClocks (mine s).lock k w o).foldl max 1 →
        let due := (mine s).lclk + clocks + 9
        let done := fun (z : Bool) => withMine s fun c => { c with
          calls := renewed { rowOn (lands k due) cnt with
            busy := clocks - 1, bands := bandClocks c.lock k w o, flags := k.flags ||| r.2 } c.calls,
          accReady := noted acc (row + k.row) due c.accReady,
          matPend := c.matPend ++ [⟨due, k.id, .addRow acc (row + k.row) z (fld k.pcw.toNat 14 8) r.1⟩],
          bankFree := Cells.put bank (max (c.lclk + clocks) (Cells.get 0 bank c.bankFree)) c.bankFree }
        exec (.uStrmz acc row cnt p o) s = .next (done true) ∧
        ((∃ b < 8, bit o (4 * b + 2) = false) → exec (.uStrm acc row cnt p o) s = .next (done false)) ∧
        ((∀ b < 8, bit o (4 * b + 2) = true) → exec (.uStrm acc row cnt p o) s = .next (withMine s fun c => { c with
          calls := renewed { rowOn k cnt with busy := 0, bands := [], flags := k.flags ||| r.2 } c.calls,
          bankFree := Cells.put bank (max (c.lclk + 1) (Cells.get 0 bank c.bankFree)) c.bankFree })))

/-- R193, R196, R198, R199, R210, R221, R222, R224, R225: the weight-bank and stream micro-operations.
The model's own choices in it: assumption logs 52, 53, 55, 93, 112, 113, 114, 115. -/
def Obligations.WeightLoadsAndStreams : Prop := weightBankMicroOperations ∧ streamMicroOperations

/-- R200, R221, R222, R226: ACLR, AADD, AADDM, DRN and AST on one row, once the earlier contributions they read have landed: ACLR's
clear and the additions' rows are in flight; a drained or stored row is written at its descriptor's offset and row stride.
The model's own choices in it: assumption logs 13, 54, 116. -/
def Obligations.TileMicroOperations : Prop :=
  ∀ s k acc row cnt, runs s k →
    (bit k.awm acc = true → ∀ due, (mine s).lclk + 1 ≤ due → (∀ i < 32, Cells.get 0 (32 * acc + i) (mine s).accReady ≤ due) →
      (due = (mine s).lclk + 1 ∨ ∃ i < 32, Cells.get 0 (32 * acc + i) (mine s).accReady = due) →
      exec (.uAclr acc) s = .next (withMine s fun c => { c with
        calls := renewed (onward (lands k due)) c.calls,
        accReady := (List.range 32).foldl (fun a i => noted acc i due a) c.accReady,
        matPend := c.matPend ++ [⟨due, k.id, .clearTile acc⟩] })) ∧
    (∀ p d, d = param k p → bit k.awm acc = true → d.toNat < 2 ^ 45 → k.primed = true →
      ∀ bs xs, operandBytes (mine s) d (k.row * (fld d.toNat 23 16 * 128)) 4096 = .ok bs →
        xs = (List.range 256).map (fun j => joinBytes ((bs.drop (16 * j)).take 16)) →
        (∀ x ∈ xs, fld x 88 8 = fld k.pcw.toNat 14 8) →
        exec (.uAaddm acc row cnt p) s = .next (withMine s fun c => { c with
          calls := renewed { rowOn (lands k (c.lclk + 10)) cnt with primed := false } c.calls,
          accReady := noted acc (row + k.row) (c.lclk + 10) c.accReady,
          matPend := c.matPend ++ [⟨c.lclk + 10, k.id, .addRow acc (row + k.row) false (fld k.pcw.toNat 14 8)
            (xs.map fun x => ([sgn 80 x], bit x 80))⟩],
          addDone := Cells.put acc (max (c.lclk + 11) (Cells.get 0 acc c.addDone)) c.addDone })) ∧
    (∀ q g, bit k.awm acc = true → (k.row = 0 → settled s q row cnt) → g = Cells.get ⟨false, 0⟩ q (mine s).accTag →
      (g.hold = true → g.ea = fld k.pcw.toNat 14 8) →
      exec (.uAadd acc row cnt q) s = .next (withMine s fun c => { c with
        calls := renewed (rowOn (lands k (c.lclk + 10)) cnt) c.calls,
        accReady := noted acc (row + k.row) (c.lclk + 10) c.accReady,
        matPend := c.matPend ++ [⟨c.lclk + 10, k.id, .addRow acc (row + k.row) false (fld k.pcw.toNat 14 8)
          ((List.range 256).map fun j => ([(c.accCell q (row + k.row) j).x], (c.accCell q (row + k.row) j).s))⟩] })) ∧
    ∀ p d, d = param k p → settled s acc row cnt → usable k d →
      let writes := fun (o : Machine.Out) (bs : List W8) (busy flags : Nat) =>
        ∀ t, writeOperand s.cur.core d (k.row * (fld d.toNat 23 16 * 128)) bs s = .ok t →
          o = .next (withCore t s.cur.core fun c => { c with calls := renewed { rowOn (lands k (mine s).lclk) cnt with
            busy := busy, flags := k.flags ||| flags, moved := k.moved + bs.length } c.calls })
      (∀ rs, rs = (List.range 256).map (fun j => drainCell (mine s) k (Cells.get ⟨false, 0⟩ acc (mine s).accTag)
          ((mine s).accCell acc (row + k.row) j) k.row j) →
        writes (exec (.uDrn acc row cnt p) s)
          (splitBytes (packNat (fmtBits (fld k.pcw.toNat 22 4)) (rs.map Res.pat)) (32 * fmtBits (fld k.pcw.toNat 22 4)))
          0 (orFlags rs)) ∧
      ∀ g e, g = Cells.get ⟨false, 0⟩ acc (mine s).accTag → e = (if g.hold then g.ea else fld k.pcw.toNat 14 8) →
        writes (exec (.uAst acc row cnt p) s) ((List.range 256).flatMap fun j =>
          splitBytes (low 80 ((mine s).accCell acc (row + k.row) j).x + 2 ^ 80 * b2n ((mine s).accCell acc (row + k.row) j).s
            + 2 ^ 88 * e) 16) 1 0

/-- R207, R208, R215 to R217, R221, R222: the entry that starts next, by its kind, an ACLR to execute on the first clock after its start
and after every earlier landing in its tiles, an ACDRN to read from the first clock on which none is still to land in its tile; an ACLR
that executes; the end of a WAIT and of a
SYNC; a background load that completes; and the tags of an ACDRN and an MCALL, the latter clearing the tiles of its ACM. -/
def Sys2Proof.Says.callQueueEvents : Prop :=
  (∀ s n k, (s.core n).calls.find? (fun c => c.stage == .queued) = some k →
    (k.kind = .wswap → exec (.callEntryStart n) s = .next (withCore s n fun c => { c with
      calls := c.calls.filter fun x => x.id != k.id, btag := !c.btag, lastEnd := c.lclk + 1 })) ∧
    (∀ r, k.kind = .mcall r → exec (.callEntryStart n) s = .next (withCore s n fun c => { c with
      calls := renewed { k with stage := .running, btag := c.btag, waiting := false } c.calls, addDone := [], past := [] })) ∧
    (∀ m, k.kind = .aclr m → ∃ e, (s.core n).lclk + 1 ≤ e ∧
      (∀ t < 8, bit m t = true → ∀ i < 32, Cells.get 0 (32 * t + i) (s.core n).accReady ≤ e) ∧
      (e = (s.core n).lclk + 1 ∨ ∃ t < 8, bit m t = true ∧ ∃ i < 32, Cells.get 0 (32 * t + i) (s.core n).accReady = e) ∧
      exec (.callEntryStart n) s = .next (withCore s n fun c => { c with
        calls := renewed { k with stage := .running, ended := e, waiting := false } c.calls })) ∧
    ∀ w x, k.kind = .acdrn w x → ∃ e, (s.core n).lclk ≤ e ∧
      (∀ i < 32, Cells.get 0 (32 * fld w 23 3 + i) (s.core n).accReady ≤ e) ∧
      (e = (s.core n).lclk ∨ ∃ i < 32, Cells.get 0 (32 * fld w 23 3 + i) (s.core n).accReady = e) ∧
      exec (.callEntryStart n) s = .next (withCore s n fun c => { c with
        calls := renewed { k with stage := .running, ended := e, waiting := false } c.calls })) ∧
  (∀ s n k, (s.core n).calls.find? (fun c => c.stage == .running) = some k →
    exec (.microWaitExpiry n) s = .next (withCore s n fun c => { c with
      calls := renewed { onward k with waiting := false } c.calls }) ∧
    exec (.microSyncResume n) s = .next (withCore s n fun c => { c with
      calls := renewed { onward k with syncing := false } c.calls }) ∧
    (∀ m, k.kind = .aclr m → ∃ t, exec (.aclrEntryExecute n) s = .next t ∧
      (t.core n).calls = (s.core n).calls.filter (fun x => x.id != k.id) ∧ (t.core n).lastEnd = (s.core n).lclk + 1 ∧
      ∀ i < 8, bit m i = true → Cells.get ⟨true, 0⟩ i (t.core n).accTag = ⟨false, 0⟩ ∧
        ∀ r < 32, ∀ j, (t.core n).accCell i r j = ⟨0, false⟩) ∧
    ∀ w x, k.kind = .acdrn w x → ∃ rs b, rs = (List.range (fld w 44 8 + 1)).map (fun j =>
        drainCell (s.core n) k (Cells.get ⟨false, 0⟩ (fld w 23 3) (s.core n).accTag)
          ((s.core n).accCell (fld w 23 3) ((fld w 26 5 + k.row) % 32) ((fld w 36 8 + j) % 256)) k.row ((fld w 36 8 + j) % 256)) ∧
      b = fmtBits (fld k.pcw.toNat 22 4) / 8 ∧ ∀ t, t = writeSlice n (w % 2 ^ 23 / b * b + 16 * fld w 52 12 * k.row)
        (rs.flatMap fun r => splitBytes r.pat b) s →
      let k1 := { (lands k (s.core n).lclk) with row := k.row + 1, rows := k.rows + 1, flags := k.flags ||| orFlags rs,
                                                 moved := k.moved + b * (fld w 44 8 + 1) }
      exec (.acdrnRowWrite n) s = .next (if k.row < fld w 31 5 then withCore t n fun c => { c with calls := renewed k1 c.calls }
        else withCore t n fun c => { c with
          calls := renewed { k1 with stage := .ended, ended := (s.core n).lclk } c.calls, lastEnd := c.lclk + 1 })) ∧
  (∀ s n a l b, (s.core n).loads = a ++ l :: b → l.due ≤ (s.core n).lclk → (∀ x ∈ a, (s.core n).lclk < x.due) →
    exec (.weightBankLoadDone n) s = .next (withCore s n fun c => { c with
      loads := a ++ b, wbanks := Cells.put l.bank l.new c.wbanks })) ∧
  ∀ s n a k b g, (s.core n).calls = a ++ k :: b → k.stage = .ended → k.tag = some g → k.ended ≤ (s.core n).lclk →
    k.land + 1 ≤ (s.core n).lclk → (∀ x ∈ a, x.stage ≠ .ended ∧ x.id ≠ k.id) → (∀ x ∈ b, x.id ≠ k.id) →
    let tagged := fun (x : Part) =>
      let m := if Cells.get 0 g x.owners = k.id then BitVec.ofNat 64 (2 ^ g) else 0
      { x with tags := x.tags ||| m, setNow := x.setNow ||| m,
               flags := x.flags ||| BitVec.ofNat 6 k.flags, orNow := x.orNow ||| BitVec.ofNat 6 k.flags }
    (∀ w x, k.kind = .acdrn w x → exec (.acdrnTagSet n) s = .next
      (withPart (withCore s n fun c => { c with calls := a ++ b }) k.gpi tagged)) ∧
    ∀ r, k.kind = .mcall r → exec (.mcallCompletion n) s = .next
      (withPart (withCore s n fun c => ((List.range 8).filter fun t => bit k.acm t).foldl
        (fun c t => { c with acc := c.acc.filter (fun r => r.1 / 32 != t), accTag := Cells.put t ⟨false, 0⟩ c.accTag })
        { c with calls := a ++ b }) k.gpi tagged)

/-- R199, R205, R222: an accumulator landing that is due. A row's cells take their contributions in order, each sum held within 80
bits, OF gathered where one is, the sticky bits ORed in; the tile holds the call's format. A clear leaves its tile without one. -/
def Sys2Proof.Says.accumulatorLandings : Prop :=
  ∀ s n a l b, (s.core n).matPend = a ++ l :: b → l.due ≤ (s.core n).lclk → (∀ x ∈ a, (s.core n).lclk < x.due) →
    (∀ t, l.act = .clearTile t → ∃ u, exec (.accumulatorRowLanding n) s = .next u ∧ (u.core n).matPend = a ++ b ∧
      Cells.get ⟨true, 0⟩ t (u.core n).accTag = ⟨false, 0⟩ ∧ ∀ r < 32, ∀ j, (u.core n).accCell t r j = ⟨0, false⟩) ∧
    ∀ t r z e cols, l.act = .addRow t r z e cols → cols.length = 256 → ∃ u, exec (.accumulatorRowLanding n) s = .next u ∧
      (u.core n).matPend = a ++ b ∧ Cells.get ⟨false, 0⟩ t (u.core n).accTag = ⟨true, e⟩ ∧
      (∀ j v, cols[j]? = some v → ∀ old, old = (if z then ⟨0, false⟩ else (s.core n).accCell t r j) →
        (u.core n).accCell t r j = ⟨v.1.foldl satAdd old.x, old.s || v.2⟩) ∧
      (∀ t' r' j, ¬ (t' = t ∧ r' % 32 = r % 32) → (u.core n).accCell t' r' j = (s.core n).accCell t' r' j) ∧
      ∀ k ∈ (s.core n).calls, k.id = l.call → ∃ k' ∈ (u.core n).calls, k'.id = k.id ∧
        k'.flags = k.flags ||| (if cols.zipIdx.any (fun v =>
          spills (if z then 0 else ((s.core n).accCell t r v.2).x) v.1.1) then fOF else 0)

/-- R199, R205, R207, R208, R215, R216, R221, R222: the events of the call queue and the landings in the accumulators.
The model's own choices in it: assumption log 56. -/
def Obligations.CallQueueAndAccumulators : Prop := callQueueEvents ∧ accumulatorLandings

/-! ### Engine commands after their issue -/

namespace Sys2Proof.Says

open Sys2Proof Sys2Proof.Machine

/-- Command d stands among partition p's commands under its number. -/
def held (s : State) (p : Nat) (d : Cmd) : Prop := d.gpi = p ∧ s.cmd p d.id = some d

/-- The cluster of a command's core. -/
abbrev home (d : Cmd) : Nat := d.gpi / 4 / 16

/-- A command that counts its time, has still to move, owes no write beside its destination, and is held or stopped by nothing. -/
def moving (d : Cmd) : Prop := d.counting = true ∧ d.held = false ∧ d.fault = none ∧ d.aux = 0 ∧ d.owed = []

/-- The context of core n has no budget, and no request of a command that goes on is held there (R302, R303). -/
def unmetered (s : State) (n : Nat) : Prop :=
  (∀ k, s.ctxOf n = some k → ∀ cls, (s.ctx k).budget cls = 0) ∧
    ∀ h ∈ (s.core n).holds, ∀ c, s.cmd h.gpi h.id = some c → c.counts = false

/-- No rollback log is kept of what the context of core n writes, nor of device memory (R335). -/
def unlogged (s : State) (n : Nat) : Prop := (∀ k, s.ctxOf n = some k → (s.ctx k).ck.valid = false) ∧ ∀ a, s.loggers a = []

/-- Nothing holds command d from n bytes at address a of an owner: no transaction of another partition applies its writes there, and
no bank has two rows for other accesses of the clock (R261, R340). -/
abbrev unhindered (s : State) (d : Cmd) (o : Owner) (a n : Nat) : Prop := d.blocked o a n s = false

/-- No transaction of a partition other than p applies its writes (R261). -/
def settledFor (s : State) (p : Nat) : Prop := ∀ o a n, s.heldTile p o a n = false

/-- No bank has a row yet on this clock, and no expander or compressor a tile (R340, R345). -/
def freshClock (s : State) : Prop := ∀ n, (s.core n).rowsNow = [] ∧ (s.core n).tilesNow = []

/-- The memory of an owner as an access of command i of partition g finds it: in a slice with the writes of this clock that come
before the access or are its command's own, in ascending partition index and then in issue order, and with no multicast row
(R232, R270, R279). -/
def found (s : State) (g i : Nat) : Owner → Mem
  | .slice n => ((s.core n).farNow.filter fun w => !w.mc && (decide (w.gpi < g) || w.gpi == g && decide (w.id ≤ i))).foldl
      (fun m w => m.writeBytes w.addr w.data) (s.core n).slice
  | o => s.mem o

/-- A write takes its place among those of its clock at slice n: behind those of lower partitions and of its partition's earlier
commands (R232). -/
def enters (s t : State) (n : Nat) (w : FarWrite) : Prop :=
  (∃ l r, (s.core n).farNow = l ++ r ∧ (t.core n).farNow = l ++ w :: r ∧
    (∀ x ∈ l, x.gpi < w.gpi ∨ (x.gpi = w.gpi ∧ x.id ≤ w.id)) ∧
    ∀ x, r.head? = some x → w.gpi < x.gpi ∨ (w.gpi = x.gpi ∧ w.id < x.id)) ∧
  ∀ m, m ≠ n → (t.core m).farNow = (s.core m).farNow

/-- Bytes bs of command i of partition g perform at address a of an owner: in a slice among the writes of the clock, elsewhere at
once; no other byte changes. -/
def performs (s t : State) (g i : Nat) (o : Owner) (a : Nat) (bs : List W8) : Prop :=
  match o with
  | .slice n => enters s t n ⟨g, i, false, a, bs⟩ ∧ ∀ q, t.mem q = s.mem q
  | _ => t.mem o = (s.mem o).writeBytes a bs ∧ ∀ q, q ≠ o → t.mem q = s.mem q

/-- Bytes bs of command i of partition g stand among the writes of this clock at slice n, from offset a on and wrapping at its end. -/
def laid (t : State) (n g i : Nat) (mc : Bool) (a : Nat) (bs : List W8) : Prop :=
  ∀ j v, bs[j]? = some v → ∃ w ∈ (t.core n).farNow, w.gpi = g ∧ w.id = i ∧ w.mc = mc ∧
    w.addr ≤ (a + j) % 2 ^ 23 ∧ w.data[(a + j) % 2 ^ 23 - w.addr]? = some v

/-- A buffered write holds byte a of an owner (R271). -/
def inBuffer (x : Posted) (o : Owner) (a : Nat) : Prop := x.owner = o ∧ x.addr ≤ a ∧ a < x.addr + x.data.length

/-- The bytes that a read by command d outside a transaction finds from address a of an owner: each as the owner holds it, or, of an
owner outside the cluster and in a form that is forwarded, as the youngest buffered write of it has it (R271). -/
def readsAs (s : State) (d : Cmd) (o : Owner) (a : Nat) (bs : List W8) : Prop :=
  ∀ i < bs.length,
    (d.direct = true ∨ outside (home d) o = false ∨ (∀ x ∈ (s.cluster (home d)).posted, ¬ inBuffer x o (a + i)) →
      bs[i]? = some ((found s d.gpi d.id o).read (a + i))) ∧
    (d.direct = false → outside (home d) o = true → ∀ l x r, (s.cluster (home d)).posted = l ++ x :: r → inBuffer x o (a + i) →
      (∀ y ∈ r, ¬ inBuffer y o (a + i)) → bs[i]? = x.data[a + i - x.addr]?)

/-- A partition's flags and tag as a completion leaves them: its tag set where the command is that tag's latest producer, and its
flags ORed in (R239, R52). -/
abbrev completes (g id flags : Nat) (x : Part) : Part :=
  let m := if Cells.get 0 g x.owners = id then BitVec.ofNat 64 (2 ^ g) else 0
  { x with tags := x.tags ||| m, setNow := x.setNow ||| m,
           flags := x.flags ||| BitVec.ofNat 6 flags, orNow := x.orNow ||| BitVec.ofNat 6 flags }

/-- An invalidation of value v covers a held translation: its context is CTX, and ALL is set or its page holds VPN (R338). -/
def invalidated (v : Nat) (e : TlbEntry) : Prop :=
  e.ctx = fld v 56 4 ∧ (bit v 60 = true ∨ ∃ o pa bits w, e.x = .page o pa bits w ∧
    e.base / 2 ^ bits = fld v 12 44 * 4096 / 2 ^ bits)

/-- The bytes of a GATH's or SCAT's row, and the global address of byte k of its row j, whose index it read at its start (R253). -/
abbrev rowSize (d : Cmd) : Nat := 16 * (fld (d.word 2) 16 16 + 1)
abbrev rowPlace (d : Cmd) (j k : Nat) : Nat := (d.word 0 + 16 * fld (d.word 2) 32 24 * d.desc.getD j 0 + k) % 2 ^ 56

/-- Where byte i of what a command moves comes from, and the bytes from there to the end of its run (R242, R243, R253, R266). -/
def comesFrom (d : Cmd) (i : Nat) : Side × Nat :=
  match d.kind with
  | .fst => (.near ((fld (d.word 1) 0 23 / 8 * 8 + i) % 2 ^ 23), d.srcLen - i)
  | .copy => (.far ((d.desc.getD 0 0 + i) % 2 ^ 56), d.srcLen - i)
  | .gath => (.far (rowPlace d (i / rowSize d) (i % rowSize d)), rowSize d - i % rowSize d)
  | .scat => (.near ((fld (d.word 1) 0 23 + i) % 2 ^ 23), rowSize d - i % rowSize d)
  | .ovld => (.far ((d.word 0 + i) % 2 ^ 56), d.srcLen - i)
  | _ => (.far ((d.word 0 % 2 ^ 56 / 8 * 8 + i) % 2 ^ 56), d.srcLen - i)

/-- Where byte i of it goes, and the bytes from there to the end of its run. -/
def goesWhere (d : Cmd) (i : Nat) : Side × Nat :=
  match d.kind with
  | .fst => (.far ((d.word 0 % 2 ^ 56 / 8 * 8 + i) % 2 ^ 56), d.dstLen - i)
  | .copy => (.far ((d.desc.getD 1 0 + i) % 2 ^ 56), d.dstLen - i)
  | .gath => (.near ((fld (d.word 1) 0 23 + i) % 2 ^ 23), d.dstLen - i)
  | .scat => (.far (rowPlace d (i / rowSize d) (i % rowSize d)), rowSize d - i % rowSize d)
  | .ovld => (.code ((fld (d.word 1) 0 18 / 16 * 16 + i) % 2 ^ 18), d.dstLen - i)
  | _ => (.near ((fld (d.word 1) 0 23 / 8 * 8 + i) % 2 ^ 23), d.dstLen - i)

/-- The bytes of a run from an address on that lie in its 128-byte row. -/
abbrev inRow (a n : Nat) : Nat := min n (128 - a % 128)

/-- A command that moves a stream of bytes: FLD, FST, GATH, SCAT, OVLD, and COPY with one of the transforms xs (R242, R244, R253,
R266). -/
def streaming (d : Cmd) (xs : List Nat) : Prop :=
  d.kind = .fld ∨ d.kind = .fst ∨ d.kind = .gath ∨ d.kind = .scat ∨ d.kind = .ovld ∨ (d.kind = .copy ∧ d.xf ∈ xs)

/-- L is the latency class of an owner for a command (R237). -/
def ofClass (s : State) (d : Cmd) (o : Owner) (L : Nat) : Prop :=
  match o with
  | .slice m => L = if m / 16 = d.gpi / 64 then 24 else if m / 160 = d.gpi / 640 then 96 else 224
  | .hbm => L = 1024
  | .peer _ => ∃ k, s.ctxOf (d.gpi / 4) = some k ∧ L = (s.ctx k).peerlat ∧ 4096 ≤ L

/-- Every page of n bytes from a leads to an owner of class L. -/
def allOfClass (s : State) (d : Cmd) (L a n : Nat) : Prop :=
  ∀ g, a / 4096 ≤ g → g ≤ (a + (n - 1)) / 4096 → ∃ o b, d.whereIs s (g * 4096) false = .at o b ∧ ofClass s d o L

/-- The 128-byte rows that n bytes from a touch (R237). -/
def rowsTouched (a n : Nat) : Nat := if n = 0 then 0 else (a + n - 1) / 128 - a / 128 + 1

/-- The bytes of a COPY's source and of its destination, by its transform (R237, R244). -/
def copySides (d : Cmd) : Nat × Nat :=
  match d.xf with
  | 1 => (d.len, d.len / 16 * (2 * d.pw))
  | 2 => (d.len, d.len / (2 * d.pw) * 16)
  | 3 => (d.len, d.len / (if d.efmt = 0 then 128 else 64) * 16)
  | 6 => (0, d.len)
  | 7 => (d.len, ((d.src + d.len - 1) / 2 - d.src / 2 + 2) / 2)
  | _ => (d.len, d.len)

/-- T is the clocks that R237 gives a command from its start to its tag, all its far bytes lying at owners of one class on a side
(R367 for CGATH). -/
def clocks (s : State) (d : Cmd) (T : Nat) : Prop :=
  let a := d.word 0 % 2 ^ 56
  let local_ := fld (d.word 1) 0 23
  let n := (fld (d.word 1) 24 13 + 1) * 8
  let sum := fun (f : Nat → Nat) => ((List.range (fld (d.word 2) 0 16 + 1)).map f).sum
  match d.kind with
  | .fld | .fst => ∃ L, allOfClass s d L (a / 8 * 8) n ∧
      T = L + max (rowsTouched (a / 8 * 8) n) (rowsTouched (local_ / 8 * 8) n) - 1
  | .fatom => ∃ L b, b = (if bit (d.word 1) 45 then 8 else 4) ∧ allOfClass s d L (a / b * b) b ∧ T = L
  | .copy => ∃ x L M, x = copySides d ∧ 1 ≤ d.len ∧ d.xf < 8 ∧
      (d.xf = 6 ∧ L = 0 ∨ d.xf ≠ 6 ∧ allOfClass s d L d.src (if d.xf = 5 then 1 else d.len)) ∧
      allOfClass s d M d.dst (if d.xf = 4 then 1 else x.2) ∧
      T = L + M + max 1 (max (rowsTouched d.src x.1) (rowsTouched d.dst x.2)) - 1 + (if d.xf = 0 then 0 else 16)
  | .gath | .scat => ∃ L, (∀ j ≤ fld (d.word 2) 0 16, allOfClass s d L (rowPlace d j 0) (rowSize d)) ∧
      T = L + max (sum fun j => rowsTouched (rowPlace d j 0) (rowSize d))
        (sum fun j => rowsTouched (local_ + rowSize d * j) (rowSize d)) + 7
  | .ovld => ∃ L b, b = 16 * (fld (d.word 1) 18 14 + 1) ∧ allOfClass s d L a b ∧
      T = L + max (rowsTouched a b) (rowsTouched (fld (d.word 1) 0 18 / 16 * 16) b) - 1
  | .join => ∃ L, allOfClass s d L a 40 ∧ T = L + 128
  | .mcst => T = 24 + (fld (d.word 0) 39 5 + 1) + 1
  | .spawn => T = 128
  | .take => T = 256
  | .txc => ∃ x, (s.part d.gpi).tx = some x ∧ d.intx = some x.no ∧ T = 2 * x.far + 4
  | .cgath => ∃ L, d.members s ≠ [] ∧ L = (d.members s).foldl (fun L m => max L (s.latency (d.gpi / 4) (s.ctxOf (d.gpi / 4))
        (if m.1 = s.devid.toNat % 2 ^ 12 then .slice (m.2 / 4) else .peer m.1))) 24 ∧
      T = L + (d.members s).length * ((fld (d.word 1) 0 25 + 127) / 128) - 1
  | .drn | .ckpt | .txb | .txa | .table => False

/-- A transaction's mark of the tile of byte a of an owner, as written where wr says so (R260). -/
def tileMarked (z : Tx) (o : Owner) (a : Nat) (wr : Bool) : Prop := ∃ m ∈ z.marks, m.owner = o ∧ m.tile = a / 256 ∧ (wr = true → m.wr = true)

/-- What an access of k bytes at address a of an owner leaves of a transaction's marks and class: while it is not doomed the tile is
marked, and its largest class takes in the owner's (R237, R260, R262). -/
def touches (s : State) (c : Cmd) (y z : Tx) (o : Owner) (a k : Nat) (wr : Bool) : Prop :=
  z.no = y.no ∧ z.gone = y.gone ∧ z.applying = y.applying ∧ (y.code ≠ 0 → z.code = y.code ∧ z.marks = y.marks) ∧
    (0 < k → a % 256 + k ≤ 256 → y.applying = false → z.code = 0 → tileMarked z o a wr) ∧
    ∀ L, ofClass s c o L → z.far = max y.far L

/-- The scope of an ordered form (R269): of FLD, FST and FATOM the form's, DEV of JOIN (R263). -/
def scopeOf (d : Cmd) : Nat := if d.kind = .join then 4 else d.fn - 1

/-- The acquire forms and the release forms (R242, R263). -/
def isAcquire (d : Cmd) : Prop := d.kind = .join ∨ ((d.kind = .fld ∨ d.kind = .fatom) ∧ d.fn ≠ 0)
def isRelease (d : Cmd) : Prop := d.kind = .join ∨ ((d.kind = .fst ∨ d.kind = .fatom) ∧ d.fn ≠ 0)

/-- A command has performed its accesses at a scope: it has made all, and at DIE or wider none of its writes stands in its cluster's
buffer or awaits a peer's acknowledgement (R274). -/
def performed (s : State) (d : Cmd) (scope : Nat) : Prop :=
  d.aux = 1 ∧ d.owed = [] ∧ (3 ≤ scope → d.sent = 0 ∧ s.unanswered d.gpi d.id = false ∧ ∀ x ∈ (s.cluster (home d)).posted, x.cmd ≠ d.id)

/-- Condition (a) of R274: every engine command that the partition issued before d, DRN apart, has performed at the scope. -/
def earlierPerformed (s : State) (d : Cmd) : Prop :=
  ∀ y ∈ (s.part d.gpi).cmds, y.id < d.id → y.kind ≠ .drn → performed s y (scopeOf d)

/-- Command d may start on this clock: two clocks after its issue at the earliest, its consumed tags set before this clock (R239), no
acquire of an earlier bundle incomplete (R275); a release with both conditions of R274 met, (b) being noted as the writes that d waits
for; a TXC with every transactional access made (R261). -/
def startable (s : State) (d : Cmd) : Prop :=
  2 ≤ d.age ∧ (∀ g ∈ d.needs, (s.part d.gpi).tags.getLsbD g = true ∧ (s.part d.gpi).setNow.getLsbD g = false) ∧
    (∀ y ∈ (s.part d.gpi).cmds, isAcquire y → ¬ y.bno < d.bno) ∧
    (isRelease d → earlierPerformed s d ∧ (3 ≤ scopeOf d →
      ∃ ids, d.gate = some ids ∧ ∀ x ∈ (s.cluster (home d)).posted, x.id ∉ ids)) ∧
    (d.kind = .txc → ∀ y ∈ (s.part d.gpi).cmds, y.intx = d.intx → y.id < d.id →
      (y.kind = .fld → y.srcLen ≤ y.rd) ∧ (y.kind = .fst → y.dstLen ≤ y.wr) ∧ (y.kind = .fatom → y.aux = 1 ∨ y.out ≠ []))

end Sys2Proof.Says

/-- R237, R239: a command whose pages are known and whose accesses no buffered write and no committing transaction holds begins to count
its time: in lockstep mode the clocks of R237, in elastic mode at least one and at most those. One whose addresses all lie in the slice
window begins so on its start. R239: at its completion a command leaves, its tag set and its flags merged; with TXA's the marks of the
transaction that it abandoned go (R260). -/
def Sys2Proof.Says.commandStartAndCompletion : Prop :=
  (∀ s p d, held s p d → d.rows = 0 → d.rd = 0 → d.wr = 0 → d.waits = [] → d.counting = false → settledFor s p →
    (d.direct = false ∨ (s.cluster (home d)).posted = []) →
    (d.looked = true ∧ (d.desc ≠ [] ∨ (d.kind ≠ .copy ∧ d.kind ≠ .gath ∧ d.kind ≠ .scat))) ∨
      (d.looked = false ∧ d.kind ≠ .copy ∧ d.kind ≠ .cgath ∧ d.desc = [] ∧
        ∀ g ∈ ({ d with desc := d.fetch s } : Cmd).farPages, windowBase ≤ g * 4096) →
    ∃ t e, exec (.commandStart p d.id) s = .next t ∧ t.cmd p d.id = some e ∧ e.counting = true ∧ e.kind = d.kind ∧
      e.words = d.words ∧ 1 ≤ e.left ∧
      ∀ T, clocks s (if d.looked then d else { d with desc := d.fetch s }) T →
        e.left ≤ T ∧ ((s.core (p / 4)).lock = true → e.left = T)) ∧
  ∀ s p d, held s p d → (d.kind = .take → d.words.length ≠ 2) →
    exec (.commandCompletion p d.id) s = .next (withPart s p fun x =>
      completes d.tag d.id d.flags { x with
        cmds := x.cmds.filter fun y => y.id != d.id,
        tx := if d.kind = .txa then x.tx.filter fun y => !y.gone else x.tx })

/-- R237, R239, R258, R261, R274, R275, R277: the order of engine commands. On a clock a command starts exactly when it may, its core being
awake, or goes on with a start it has made; it completes exactly when its time has run out and all it moves has reached its owners. A
release at DIE or wider notes the writes that its cluster's buffer holds on the clock that first meets (a) of R274. A drain notes, once
no earlier command of its partition is left, the commands that own the writes its cluster's buffer holds then, at DIE or wider; two
clocks after the last of what it covers is gone, and it has started, its time has run out. A clock takes one from the time of a command
that counts. -/
def Sys2Proof.Says.commandOrder : Prop :=
  ∀ s, s.agenda = [] → s.partList.Nodup → ∃ t, step s = .next t ∧ ∀ p d, held s p d → (∀ y ∈ (s.part p).cmds, y.id = d.id → y = d) →
    let awake := (s.core (p / 4)).frozen = false ∧ (s.core (p / 4)).poised = false
    let here := (s.cluster (home d)).posted
    (s.phase = 14 → (⟨p / 4, .commandStart p d.id⟩ ∈ t.agenda ↔ awake ∧ d.counting = false ∧ d.fault = none ∧ d.held = false ∧
      d.waits = [] ∧ (d.started = true ∨ startable s d))) ∧
    (s.phase = 13 → d.kind ≠ .take → (⟨p / 4, .commandCompletion p d.id⟩ ∈ t.agenda ↔ awake ∧ d.counting = true ∧ d.held = false ∧
      d.fault = none ∧ d.left = 0 ∧ d.aux = 1 ∧ d.owed = [] ∧ d.sent = 0 ∧ (∀ x ∈ here, x.cmd ≠ d.id) ∧ d.kind ≠ .ckpt ∧
      d.kind ≠ .table ∧ (d.kind = .cgath → d.landed.length = (d.members s).length * ((fld (d.word 1) 0 25 + 127) / 128)))) ∧
    (s.phase = 10 → ∃ e, t.cmd p d.id = some e ∧
      (isRelease d → 3 ≤ scopeOf d → d.gate = none → d.started = false → earlierPerformed s d →
        e = { d with gate := some (here.map fun x => x.id) }) ∧
      (¬ (isRelease d ∧ 3 ≤ scopeOf d ∧ d.gate = none ∧ d.started = false ∧ earlierPerformed s d) → e = d)) ∧
    (s.phase = 16 → d.kind = .drn → awake → d.aux = 0 →
      let alone := ∀ y ∈ (s.part p).cmds, y.id < d.id → y.kind = .drn
      ∃ e, t.cmd p d.id = some e ∧
        (d.gate = none → ¬ alone → e = d) ∧
        (d.gate = none → alone → ∃ keys, (∀ k, k ∈ keys ↔ 3 ≤ d.fn ∧ ∃ x ∈ here, k = x.gpi + 2048 * x.cmd) ∧
          e = if d.counting && keys.isEmpty then { d with gate := some keys, left := 2, aux := 1 }
            else if d.counting then { d with gate := some keys, left := 2 } else { d with gate := some keys }) ∧
        ∀ keys, d.gate = some keys →
          (d.counting = true → (∀ k ∈ keys, s.cmd (k % 2048) (k / 2048) = none) → e = { d with left := 2, aux := 1 }) ∧
          (d.counting = false ∨ (∃ k ∈ keys, s.cmd (k % 2048) (k / 2048) ≠ none) → e = d)) ∧
    (s.phase = 35 → awake → d.held = false → ∃ e, t.cmd p d.id = some e ∧
      e = if d.counting && d.fault.isNone then { d with age := d.age + 1, ran := d.ran + 1, left := d.left - 1 }
        else { d with age := d.age + 1 })

/-- R232, R263, R265, R310, R311: one access of a command at its owner: SPAWN appends its descriptor at the tail of its cluster's task
queue, or faults where that is full or word 0 is zero; TAKE removes the oldest entry of the first queue of its rotation that holds one,
and then delivers it at its offset; and a table load reads its row for its landing, which a transaction that commits to the row holds
back with it (R261). -/
def Sys2Proof.Says.taskAndTableAccesses : Prop :=
  ∀ s p d n, held s p d → moving d → n = p / 4 →
    (d.kind = .spawn → unhindered s d (.slice n) (d.word 0) 32 → ∀ v, v = (found s p d.id (.slice n)).readN (d.word 0) 32 →
      (v % 2 ^ 64 ≠ 0 → (s.cluster (home d)).tq.length < 1024 →
        ∃ t e, exec (.farAccessArrival p d.id) s = .next t ∧ t.cmd p d.id = some e ∧ e.rows = 1 ∧ e.aux = 1 ∧
          (t.cluster (home d)).tq = (s.cluster (home d)).tq ++ [((s.cluster (home d)).tqTail, BitVec.ofNat 256 v)] ∧
          (t.cluster (home d)).tqTail = ((s.cluster (home d)).tqTail + 1) % 1024) ∧
      ((v % 2 ^ 64 = 0 ∨ 1024 ≤ (s.cluster (home d)).tq.length) →
        exec (.farAccessArrival p d.id) s = .next (withPart s p fun x => { x with
          cmds := x.cmds.map fun y => if y.id = d.id then { d with fault := some ⟨0x25, 0, 0⟩ } else y,
          late := pending s p d.id ⟨0x25, 0, 0⟩ x }))) ∧
    (d.kind = .take → d.words.length < 3 →
      (d.out = [] → unmetered s n → ∀ c e r, (d.rotation s)[d.rd]? = some c → (s.cluster c).tq = e :: r → (∀ x ∈ r, x.1 ≠ e.1) →
        ∃ t k, exec (.farAccessArrival p d.id) s = .next t ∧ t.cmd p d.id = some k ∧ k.out = splitBytes e.2.toNat 32 ∧
          (t.cluster c).tq = r) ∧
      (d.out.length = 32 → ((s.core n).lock = true → d.left = 0) → d.word 0 + 32 ≤ 2 ^ 23 →
        unhindered s d (.slice n) (d.word 0) 32 → unlogged s n →
        ∃ t k, exec (.farAccessArrival p d.id) s = .next t ∧ t.cmd p d.id = some k ∧ k.aux = 1 ∧
          performs s t p d.id (.slice n) (d.word 0) d.out)) ∧
    (d.kind = .table → ∀ a, a = d.word 0 % 2 ^ 23 / 128 * 128 →
      ∃ t k, exec (.farAccessArrival p d.id) s = .next t ∧ t.cmd p d.id = some k ∧
        ∀ l ∈ (s.core n).pend, ∀ tbl b f r g, l.act = .table tbl b f r g d.id →
          (s.heldTile p (.slice n) a 128 = false → k.aux = 1 ∧
            { l with act := .table tbl b f (tableRows d.fn ((found s p d.id (.slice n)).readN a 128)) g d.id } ∈ (t.core n).pend) ∧
          (s.heldTile p (.slice n) a 128 = true → k.aux = 0 ∧ k.left = d.left + 1 ∧ { l with due := l.due + 1 } ∈ (t.core n).pend))

/-- R232, R242, R270, R271: outside a transaction, budgets and logs apart, a read of m bytes at an owner that is no peer finds its
bytes, those of a buffered write where it is forwarded, and changes no memory; a write to an owner in the own cluster performs, and a
write to an owner outside the cluster is posted, behind the others. When the accesses of a clock are made, its writes enter the slices
in their order. -/
def Sys2Proof.Says.farReadsAndWrites : Prop :=
  (∀ s c va o a, c.intx = none → s.cmd c.gpi c.id = some c → (∀ d, o ≠ .peer d) → unmetered s (c.gpi / 4) →
    (∀ m n last, c.whereIs s va false = .at o a → unhindered s c o a m →
      ∃ bs t, farRead c va m n last s = .ok (some bs, t) ∧ bs.length = m ∧ readsAs s c o a bs ∧ ∀ q, t.mem q = s.mem q) ∧
    ∀ bs n side last, c.whereIs s va true = .at o a → bs ≠ [] → unlogged s (c.gpi / 4) →
      (outside (home c) o = false → unhindered s c o a bs.length →
        ∃ x t, farWrite c va bs n side last s = .ok (some x, t) ∧ performs s t c.gpi c.id o a bs) ∧
      (outside (home c) o = true → (s.cluster (home c)).posted.length < 256 →
        ∃ x t w, farWrite c va bs n side last s = .ok (some x, t) ∧ (∀ q, t.mem q = s.mem q) ∧
          (t.cluster (home c)).posted = (s.cluster (home c)).posted ++ [w] ∧
          w.owner = o ∧ w.addr = a ∧ w.data = bs ∧ w.gpi = c.gpi ∧ w.cmd = c.id)) ∧
  ∀ s n, s.agenda = [] → s.phase = 27 → ∃ t, step s = .next t ∧ (t.core n).farNow = [] ∧
    (t.core n).slice = (s.core n).farNow.foldl (fun m w => m.writeBytes w.addr w.data) (s.core n).slice

/-- R242, R263: the read-modify-write of FATOM and of JOIN at an owner that is no peer, outside a transaction: FATOM keeps the old value
for its delivery and writes what its operation leaves, a compare-and-swap that fails writing nothing; JOIN writes its counter less one,
with the continuation behind it appended to the cluster's task queue at zero, and faults where the counter is zero already. -/
def Sys2Proof.Says.farReadModifyWrites : Prop :=
  ∀ s p d o a, held s p d → moving d → d.intx = none → d.out = [] → (∀ x, o ≠ .peer x) → unmetered s (p / 4) → unlogged s (p / 4) →
    (∀ b op old v, d.kind = .fatom → b = (if bit (d.word 1) 45 then 8 else 4) → op = fld (d.word 1) 46 4 →
      d.whereIs s (d.word 0 % 2 ^ 56 / b * b) true = .at o a → unhindered s d o a b →
      old = (found s p d.id o).readN a b → v = d.desc.getD 0 0 →
      ∃ t e, exec (.farAccessArrival p d.id) s = .next t ∧ t.cmd p d.id = some e ∧ e.aux = 0 ∧ joinBytes e.out = old ∧ e.out.length = b ∧
        (op < 9 → performs s t p d.id o a (splitBytes (atomicNew op (8 * b) old (d.word 2)) b)) ∧
        (op = 9 → b = 4 → (old = d.word 2 % 2 ^ 32 → performs s t p d.id o a (splitBytes (d.word 2 / 2 ^ 32) 4)) ∧
          (old ≠ d.word 2 % 2 ^ 32 → ∀ q, t.mem q = s.mem q)) ∧
        (op = 9 → b = 8 → (old = v → performs s t p d.id o a (splitBytes (d.word 2) 8)) ∧ (old ≠ v → ∀ q, t.mem q = s.mem q))) ∧
    (d.kind = .join → d.whereIs s (d.word 0 % 2 ^ 56) true = .at o a → unhindered s d o a 40 →
      ∀ n v tq, n = (found s p d.id o).readN a 8 → v = (found s p d.id o).readN (a + 8) 32 → tq = (s.cluster (home d)).tq →
        (n = 0 → ∃ t e, exec (.farAccessArrival p d.id) s = .next t ∧ t.cmd p d.id = some e ∧ e.fault = some ⟨0x25, 0, 0⟩ ∧
          ∀ q, t.mem q = s.mem q) ∧
        (1 < n ∨ (n = 1 ∧ tq.length < 1024 ∧ v % 2 ^ 64 ≠ 0) →
          ∃ t e, exec (.farAccessArrival p d.id) s = .next t ∧ t.cmd p d.id = some e ∧ e.aux = 1 ∧
            performs s t p d.id o a (splitBytes (n - 1) 8) ∧
            (t.cluster (home d)).tq = tq ++ (if n = 1 then [((s.cluster (home d)).tqTail, BitVec.ofNat 256 v)] else [])))

/-- R242, R244, R246, R253, R266: the row moves of FLD, FST, GATH, SCAT, OVLD and COPY, outside a transaction, budgets and logs apart:
the next bytes of the source are read and enter the checksum, a row of the own slice whole, elsewhere a row or some bytes from its start
(COPY with XF 0 to 4); what is read goes on unchanged (XF 0, 4 and 5); once the source is read the next bytes of the destination perform
when they are due, are posted where their owner lies outside the cluster, or enter the scratchpad (XF 0 to 3, 5 and 7); and a command that
has moved everything writes its checksum where it is asked for. -/
def Sys2Proof.Says.rowMoves : Prop :=
  ∀ s p d n, held s p d → moving d → d.codec = [] → n = p / 4 → d.intx = none → unmetered s n → unlogged s n →
    let goes := fun (f : State → Cmd → Prop) => ∃ t e, exec (.farAccessArrival p d.id) s = .next t ∧ t.cmd p d.id = some e ∧ f t e
    (streaming d [0, 1, 2, 3, 4] → d.rd < d.srcLen → d.wr < d.dstLen → d.data = [] → d.out = [] →
      (∀ a run, comesFrom d d.rd = (.near a, run) → unhindered s d (.slice n) a (inRow a run) →
        goes fun t e => e.rd = d.rd + inRow a run ∧ e.data = (found s p d.id (.slice n)).bytes a (inRow a run) ∧
          e.crc = crcStep d.crc e.data ∧ ∀ q, t.mem q = s.mem q) ∧
      ∀ va run o a, comesFrom d d.rd = (.far va, run) → d.whereIs s va false = .at o a → (∀ x, o ≠ .peer x) →
        unhindered s d o a (inRow va run) →
        goes fun t e => e.rd = d.rd + e.data.length ∧ 0 < e.data.length ∧ e.data.length ≤ inRow va run ∧
          (o = .slice n → e.data.length = inRow va run) ∧ readsAs s d o a e.data ∧ e.crc = crcStep d.crc e.data ∧
          ∀ q, t.mem q = s.mem q) ∧
    (streaming d [0, 4, 5] → d.wr < d.dstLen → d.data ≠ [] → d.out = [] →
      goes fun t e => e = { d with out := d.data, data := [] } ∧ ∀ q, t.mem q = s.mem q) ∧
    (streaming d [0, 1, 2, 3, 5, 7] → d.srcLen ≤ d.rd → d.wr < d.dstLen → d.due s = true →
      inRow (goesWhere d d.wr).1.addr (goesWhere d d.wr).2 ≤ d.out.length →
      (∀ a run, goesWhere d d.wr = (.near a, run) → unhindered s d (.slice n) a (inRow a run) →
        goes fun t e => e.wr = d.wr + inRow a run ∧ e.out = d.out.drop (inRow a run) ∧
          performs s t p d.id (.slice n) a (d.out.take (inRow a run))) ∧
      (∀ va run o a, goesWhere d d.wr = (.far va, run) → d.whereIs s va true = .at o a →
        (outside (home d) o = false → unhindered s d o a (inRow va run) →
          goes fun t e => ∃ m, 0 < m ∧ m ≤ inRow va run ∧ (o = .slice n → m = inRow va run) ∧ e.wr = d.wr + m ∧
            e.out = d.out.drop m ∧ performs s t p d.id o a (d.out.take m)) ∧
        (outside (home d) o = true → (s.cluster (home d)).posted.length < 256 →
          goes fun t e => e.wr = d.wr + inRow va run ∧ e.out = d.out.drop (inRow va run) ∧ (∀ q, t.mem q = s.mem q) ∧
            ∃ w, (t.cluster (home d)).posted = (s.cluster (home d)).posted ++ [w] ∧ w.owner = o ∧ w.addr = a ∧
              w.data = d.out.take (inRow va run) ∧ w.gpi = p ∧ w.cmd = d.id)) ∧
      ∀ a run, goesWhere d d.wr = (.code a, run) →
        goes fun t e => e.wr = d.wr + inRow a run ∧ e.out = d.out.drop (inRow a run) ∧ (∀ q, t.mem q = s.mem q) ∧
          (t.core n).imem = (s.core n).imem.writeBytes a (d.out.take (inRow a run))) ∧
    (streaming d (List.range 8) → d.dstLen ≤ d.wr → d.srcLen ≤ d.rd →
      (d.wantCrc = false → goes fun t e => e = { d with aux := 1 } ∧ ∀ q, t.mem q = s.mem q) ∧
      (d.wantCrc = true → d.due s = true → d.cofs + 4 ≤ 2 ^ 23 → unhindered s d (.slice n) d.cofs 4 →
        goes fun t e => e.aux = 1 ∧ performs s t p d.id (.slice n) d.cofs (splitBytes (crcFinal d.crc) 4)))

/-- R244, R245, R248 to R250: the transforms of a COPY with XF 1 to 7, budgets and logs apart. Converting, the next 16 elements become a
block of planes, clamped, or the next block its elements, sign-extended; 32 elements become 16 bytes of indices of the nearest candidates
to their quotients by the block's scale, which is then owed at SCL and written there; two side-bank entries become one byte. XF 5 takes
up the next tile of its region, the tile leaves the expander 4 clocks later, and a decode error stops the command; XF 4 gives the next 256 bytes
to the compressor, and 4 clocks later stores the tile. XF 1 and XF 6 set side-bank entries to SIX; XF 7 reads them. -/
def Sys2Proof.Says.transforms : Prop :=
  (∀ s p d n, held s p d → moving d → n = p / 4 → d.kind = .copy → d.intx = none → unmetered s n → unlogged s n → settledFor s p →
    freshClock s → (∀ m, (s.core m).side.wf) → (s.cluster (home d)).posted = [] →
    let goes := fun (f : State → Cmd → Prop) => ∃ t e, exec (.farAccessArrival p d.id) s = .next t ∧ t.cmd p d.id = some e ∧ f t e
    let same := fun (t : State) => ∀ q, t.mem q = s.mem q
    let six := BitVec.ofNat 8 d.six
    (d.codec = [] → d.out = [] → d.wr < d.dstLen →
      (d.xf = 1 → 16 ≤ d.data.length →
        let m := fun (j : Nat) => max (-(2 ^ (d.pw - 1) : Int) + if d.a128 then 0 else 1) (min (2 ^ (d.pw - 1) - 1) (d.data.getD j 0).toInt)
        goes fun t e => same t ∧ e = { d with data := d.data.drop 16, out := e.out, flags := e.flags } ∧ e.out.length = 2 * d.pw ∧
          (∀ k < d.pw, ∀ j < 16, (e.out.getD (2 * k + j / 8) 0).getLsbD (j % 8) = (BitVec.ofInt 32 (m j)).getLsbD k) ∧
          e.flags = d.flags ||| if (List.range 16).all fun j => m j == (d.data.getD j 0).toInt then 0 else fSAT) ∧
      (d.xf = 2 → 2 * d.pw ≤ d.data.length →
        goes fun t e => same t ∧ e = { d with data := d.data.drop (2 * d.pw), out := e.out } ∧ e.out.length = 16 ∧
          ∀ j < 16, ∃ m : BitVec d.pw, (∀ k < d.pw, m.getLsbD k = (d.data.getD (2 * k + j / 8) 0).getLsbD (j % 8)) ∧
            e.out[j]? = some (BitVec.ofInt 8 m.toInt)) ∧
      (d.xf = 3 → 32 * d.es ≤ d.data.length → ∀ c g, c = s.core n → g = c.cbcfgOf d.cbk →
        let x := fun (i : Nat) => (readFmt (fmtOf d.efmt) (joinBytes ((d.data.drop (d.es * i)).take d.es))).1
        let cs := ((List.range 16).map fun i => (i, searchNum (cbEtype g)
          (c.cbEntry d.cbk (cbEntryNo (cbWhole g) (cbAct g) i) % 2 ^ etypeBits (cbEtype g)))).filter fun z => !z.2.isNan
        let gives := fun (ix : Nat → Nat) (sc fl : Nat) => goes fun t e => same t ∧ e.data = d.data.drop (32 * d.es) ∧
          e.out = splitBytes (packNat 4 ((List.range 32).map ix)) 16 ∧ e.flags = d.flags ||| fl ∧
          (e.owed.map fun r => r.2.length).sum = 2 ∧ ∀ i < 2, ∃ r ∈ e.owed, ∃ j < r.2.length,
            r.1 + j = (d.scl + 2 * (d.wr / 16) + i) % 2 ^ 56 ∧ r.2.getD j 0 = (splitBytes sc 2).getD i 0
        (cbValid g < 16 → goes fun t e => same t ∧ e.fault = some ⟨0x16, cbValid g % 4096 + 4096 * d.cbk, 0⟩) ∧
        (16 ≤ cbValid g → (∃ i < 32, (x i).isNan ∨ (x i).isInf) → gives (fun _ => 0) 0x7FC0 fIV) ∧
        (16 ≤ cbValid g → (∀ i < 32, (x i).isNan = false ∧ (x i).isInf = false) →
          ((∀ i < 32, (x i).isZero) → ∀ z, nearest (.fin false 0 1) cs = some z → gives (fun _ => z) 0 0) ∧
          ∀ k < 32, (∀ i < 32, ltNum false ((x k).withSign false) ((x i).withSign false) = false) →
            ∀ r, r = convertNum (.flt fmtBF16) .rne 0 false ((x k).withSign false) →
              (x k).isZero = false → (readFlt fmtBF16 r.pat).isZero = false →
              (∀ i < 32, (nearest (divNum (x i) (readFlt fmtBF16 r.pat)).1 cs).isSome) →
              gives (fun i => (nearest (divNum (x i) (readFlt fmtBF16 r.pat)).1 cs).getD 0) r.pat r.flags)) ∧
      (d.xf = 7 → 2 ≤ d.data.length ∨ (d.data ≠ [] ∧ d.rd = d.srcLen) →
        ∀ b, b = BitVec.ofNat 8 ((d.data.getD 0 0).toNat % 16 + 16 * ((d.data.getD 1 0).toNat % 16)) →
          goes fun t e => same t ∧ e = { d with data := d.data.drop 2, out := [b], crc := crcStep d.crc [b] }) ∧
      (d.xf = 7 → d.data = [] → d.rd < d.srcLen → ∀ m a, d.whereIs s (d.src / 2 * 2 + 2 * d.rd) false = .at (.slice m) a →
        ∀ k, k = min (d.srcLen - d.rd) (64 - a / 2 % 64) →
          goes fun t e => same t ∧ e.rd = d.rd + k ∧ e.data = (s.core m).side.bytes (a / 2) k) ∧
      (d.xf = 5 → d.data = [] → d.rd < d.srcLen → ∀ m b, d.whereIs s d.src false = .at (.slice m) b →
        (∀ bs, readTile (found s p d.id (.slice m)) b (d.tile0 + d.rd / 256) = .ok bs → goes fun t e => same t ∧
          e.rd = d.rd + (bs.take (min 256 (d.srcLen - d.rd))).length ∧ e.codec = [(d.ran + 4, bs.take (min 256 (d.srcLen - d.rd)))]) ∧
        ∀ f, readTile (found s p d.id (.slice m)) b (d.tile0 + d.rd / 256) = .error f → goes fun t e => same t ∧ e.fault = some f)) ∧
    (∀ c bs r, d.codec = (c, bs) :: r → c ≤ d.ran →
      (d.xf = 5 → goes fun t e => same t ∧ e = { d with codec := r, data := d.data ++ bs, crc := crcStep d.crc bs }) ∧
      (d.xf = 4 → ∀ m b, d.whereIs s d.dst true = .at (.slice m) b →
        (∀ ws, storeTile (found s p d.id (.slice m)) b (d.tile0 + d.wr / 256) d.kzs bs = .ok ws → goes fun t e => same t ∧
          e.wr = d.wr + 256 ∧ e.codec = r ∧ ∀ w ∈ ws, laid t m p d.id false w.1 w.2) ∧
        ∀ f, storeTile (found s p d.id (.slice m)) b (d.tile0 + d.wr / 256) d.kzs bs = .error f →
          goes fun t e => same t ∧ e.fault = some f)) ∧
    (d.codec = [] → d.srcLen ≤ d.rd → d.wr < d.dstLen → d.due s = true →
      (d.xf = 4 → 256 ≤ d.out.length → ∀ m b, d.whereIs s d.dst true = .at (.slice m) b →
        goes fun t e => same t ∧ e.out = d.out.drop 256 ∧ e.codec = [(d.ran + 4, d.out.take 256)]) ∧
      (d.xf = 1 → inRow ((d.dst + d.wr) % 2 ^ 56) (d.dstLen - d.wr) ≤ d.out.length → windowBase ≤ d.dst → d.dst + d.dstLen ≤ 2 ^ 56 →
        ∀ o a, d.whereIs s ((d.dst + d.wr) % 2 ^ 56) true = .at o a → outside (home d) o = false →
          goes fun t e => ∀ i, d.wr ≤ 2 * d.pw * i → 2 * d.pw * i < e.wr →
            let u := d.dst + 2 * d.pw * i - windowBase
            (t.core (u / 2 ^ 23)).side.read (u % 2 ^ 23 / 2) = six) ∧
      (d.xf = 6 → windowBase ≤ d.dst + d.wr → ∀ m a, d.whereIs s (d.dst + d.wr) true = .at (.slice m) a →
        ∀ k, k = inRow (d.dst + d.wr) (d.len - d.wr) →
          goes fun t e => same t ∧ e.wr = d.wr + k ∧ ∀ u, (t.core m).side.read u =
            if a / 2 ≤ u ∧ u ≤ (a + k - 1) / 2 then six else (s.core m).side.read u))) ∧
  ∀ s p d n, held s p d → n = p / 4 → d.kind = .copy → d.xf = 3 → d.counting = true →
    d.held = false → d.fault = none → d.intx = none → d.codec = [] → unmetered s n → unlogged s n → settledFor s p → freshClock s →
    (s.core n).lock = false →
    ∀ x r, d.owed = x :: r → r ≠ [] ∨ (d.rd = d.srcLen ∧ d.data = []) → x.2 ≠ [] → ∀ o a, d.whereIs s x.1 true = .at o a →
      let goes := fun (f : State → Cmd → Prop) =>
        ∃ t e, exec (.farAccessArrival p d.id) s = .next t ∧ t.cmd p d.id = some e ∧ e.owed = r ∧ f t e
      (outside (home d) o = false → goes fun t _ => performs s t p d.id o a x.2) ∧
      (outside (home d) o = true → (s.cluster (home d)).posted.length < 256 → goes fun t _ => (∀ q, t.mem q = s.mem q) ∧
        ∃ w, (t.cluster (home d)).posted = (s.cluster (home d)).posted ++ [w] ∧ w.owner = o ∧ w.addr = a ∧ w.data = x.2)

/-- R232, R242, R244 to R246, R248 to R250, R253, R263, R265, R266, R270, R271, R279, R310, R311: the accesses of commands at
their owners.
The model's own choices in it: assumption logs 5, 10, 19, 35, 61, 100, 119. -/
def Obligations.FarAccessesPerform : Prop := taskAndTableAccesses ∧ farReadsAndWrites ∧ farReadModifyWrites ∧ rowMoves ∧ transforms

/-- R237, R260, R262: the far accesses of an active transaction, budgets apart: FLD reads through its buffer and FST writes into it, each
marking the tile it touches; FATOM reads through the buffer and puts its new value there, a compare-and-swap that fails nothing; no byte
of any owner changes. -/
def Sys2Proof.Says.transactionalAccesses : Prop :=
  ∀ s c o a y, s.cmd c.gpi c.id = some c → (s.part c.gpi).tx = some y → c.intx = some y.no → (∀ d, o ≠ .peer d) →
    unmetered s (c.gpi / 4) → settledFor s c.gpi → freshClock s →
    let old := throughBuffer y o (found s c.gpi c.id o)
    let leaves := fun (t : State) (k v : Nat) (wr write : Bool) => (∀ q, t.mem q = s.mem q) ∧ (∀ m, (t.core m).farNow = (s.core m).farNow) ∧
      ∃ z, (t.part c.gpi).tx = some z ∧ touches s c y z o a k wr ∧ ∀ b, throughBuffer z o (found s c.gpi c.id o) b =
        if write ∧ a ≤ b ∧ b < a + k then BitVec.ofNat 8 (v / 2 ^ (8 * (b - a))) else old b
    (∀ va m n last, c.whereIs s va false = .at o a → ∃ bs t, farRead c va m n last s = .ok (some bs, t) ∧
      bs = (List.range m).map (fun i => old (a + i)) ∧ leaves t m 0 false false) ∧
    (∀ va bs n side last, c.whereIs s va true = .at o a → bs ≠ [] → ∃ x t, farWrite c va bs n side last s = .ok (some x, t) ∧
      leaves t bs.length (joinBytes bs) true true) ∧
    ∀ b op v e, c.kind = .fatom → moving c → c.out = [] → b = (if bit (c.word 1) 45 then 8 else 4) → op = fld (c.word 1) 46 4 →
      c.whereIs s (c.word 0 % 2 ^ 56 / b * b) true = .at o a → v = joinBytes ((List.range b).map fun i => old (a + i)) →
      e = (if b = 4 then c.word 2 % 2 ^ 32 else c.desc.getD 0 0) →
      ∃ t k, exec (.farAccessArrival c.gpi c.id) s = .next t ∧ t.cmd c.gpi c.id = some k ∧ k.out = splitBytes v b ∧ k.aux = 0 ∧
        (op < 9 → leaves t b (atomic op (8 * b) v (c.word 2)) true true) ∧
        (op = 9 → leaves t b (if b = 4 then c.word 2 / 2 ^ 32 else c.word 2) true (decide (v = e)))

/-- R260, R261: TXC of a transaction that is not doomed applies the bytes of its buffer, a run of them at a time, its marks held until
the last has applied; then, or at once with the buffer discarded where the transaction is doomed, it writes its status at its offset, the
code and for codes 1 and 2 the address of the tile, and the transaction ends. -/
def Sys2Proof.Says.transactionCommits : Prop :=
  ∀ s p d n y, held s p d → n = p / 4 → d.kind = .txc → d.counting = true → d.fault = none → d.held = false → d.aux = 0 → d.owed = [] →
    (s.part p).tx = some y → d.intx = some y.no → unmetered s n → unlogged s n → settledFor s p → freshClock s →
    (y.code = 0 → y.buf ≠ [] → (∀ b ∈ y.buf, ∀ x, b.owner ≠ .peer x) →
      ∃ t z o a bs, exec (.farAccessArrival p d.id) s = .next t ∧ t.cmd p d.id = some d ∧ 0 < bs.length ∧ a % 128 + bs.length ≤ 128 ∧
        (∀ i v, bs[i]? = some v → ⟨o, a + i, v⟩ ∈ y.buf) ∧ performs s t p d.id o a bs ∧ (t.part p).tx = some z ∧ z.no = y.no ∧ z.code = 0 ∧
        (∀ b, b ∈ z.buf ↔ b ∈ y.buf ∧ ∀ i < bs.length, b ≠ ⟨o, a + i, bs.getD i 0⟩) ∧
        z.applying = true ∧ (z.buf ≠ [] → z.marks = y.marks) ∧ (z.buf = [] → z.marks = [])) ∧
    (y.code ≠ 0 ∨ y.buf = [] → ((s.core n).lock = true → d.left = 0) → d.word 0 + 8 ≤ 2 ^ 23 →
      ∃ t e, exec (.farAccessArrival p d.id) s = .next t ∧ t.cmd p d.id = some e ∧ e.aux = 1 ∧ (t.part p).tx = none ∧
        performs s t p d.id (.slice n) (d.word 0)
          (splitBytes (y.code + if y.code = 1 ∨ y.code = 2 then y.va / 256 * 256 else 0) 8))

/-- R237, R256, R259 to R262: the tag instructions and the transaction instructions, the far accesses of an active
transaction, and its commit.
The model's own choices in it: assumption logs 36, 67. -/
def Obligations.TagsAndTransactions : Prop := tagInstructions ∧ transactionInstructions ∧ transactionalAccesses ∧ transactionCommits

/-- R254, R255, R271, R279, R334: of the buffered writes that go on a clock the first in the order of R232 performs, a piece of it or,
its command being out of time, all; a multicast row stands among the clock's writes in every slice of its window's mask, and no access
of the clock sees it; a row of a contribution lands at its sender's place in the slice of the member's oldest collective of the group
that awaits it. A checkpoint of an elastic context
whose partitions have all arrived completes on a clock left free (R334 giving no time): then its interval is counted, its images are in the other
bank, its log is empty, and every CKPT tag is set and every partition issues again.
The model's own choices in it: assumption logs 5, 12, 20, 26, 75, 100. -/
def Obligations.PostedMulticastAndCollectiveRows : Prop :=
  (∀ s cl l x r, (s.cluster cl).posted = l ++ x :: r → x.go = true → x.sent = false → (∀ d, x.owner ≠ .peer d) → x.data ≠ [] →
    (∀ y ∈ l ++ r, y.id ≠ x.id) →
    (∀ y ∈ l, y.go = true → y.sent = false → x.gpi < y.gpi ∨ (x.gpi = y.gpi ∧ x.cmd < y.cmd)) →
    (∀ y ∈ r, y.go = true → y.sent = false → x.gpi < y.gpi ∨ (x.gpi = y.gpi ∧ x.cmd ≤ y.cmd)) →
    unlogged s (x.gpi / 4) → unmetered s (x.gpi / 4) → s.heldTile x.gpi x.owner x.addr x.data.length = false →
    (∀ n, x.owner = .slice n → ∀ w ∈ rowsOf x.addr x.data.length, (s.core n).bankFull x.gpi x.cmd w = false) →
    ∃ t m, exec (.postedWriteDrain cl) s = .next t ∧ 0 < m ∧ m ≤ x.data.length ∧
      (s.cmd x.gpi x.cmd = none → m = x.data.length) ∧ performs s t x.gpi x.cmd x.owner x.addr (x.data.take m) ∧
      (t.cluster cl).posted = l ++ (if m = x.data.length then []
        else [{ x with go := false, va := x.va + m, addr := x.addr + m, data := x.data.drop m }]) ++ r) ∧
  (∀ s p d e a, held s p d → e = Cells.get 0 (fld (d.word 0) 23 4) (s.cluster (home d)).mcwin → unlogged s (p / 4) →
    unmetered s (p / 4) → a = (mcBase e + 16 * fld (d.word 0) 27 12 + 128 * d.rows) % 2 ^ 23 →
    s.heldTile p (.slice (p / 4)) ((d.word 0 + 128 * d.rows) % 2 ^ 23) 128 = false →
    (∀ j < 16, bit (mcMask e) j = true → s.heldTile p (.slice (16 * home d + j)) a 128 = false) →
    ∃ t k, exec (.multicastRowLanding p d.id) s = .next t ∧ t.cmd p d.id = some k ∧ k.rows = d.rows + 1 ∧
      (∀ q, t.mem q = s.mem q) ∧ (∀ n, ∀ w ∈ (s.core n).farNow, w ∈ (t.core n).farNow) ∧
      ∀ j < 16, bit (mcMask e) j = true → laid t (16 * home d + j) p d.id true a ((List.range 128).map fun i =>
        (found s p d.id (.slice (p / 4))).read ((d.word 0 + 128 * d.rows + i) % 2 ^ 23))) ∧
  (∀ s p d l g r k, held s p d → s.gathers = l ++ g :: r → s.ctxOf (p / 4) = some k →
    let key := fun (h : Gather) => h.rank * 2 ^ 20 + h.row
    let awaits := fun (x : Cmd) (h : Gather) => key h ∉ x.landed ∧
      (x.landed.filter fun y => y / 2 ^ 20 == h.rank).length < (fld (x.word 1) 0 25 + 127) / 128
    let mine := fun (h : Gather) => h.ctx = k ∧ h.grp = fld (d.word 0) 46 6 ∧ h.dst = p ∧ awaits d h ∧
      ∀ x ∈ (s.part p).cmds, x.kind = .cgath → x.id < d.id → fld (x.word 0) 46 6 = h.grp → ¬ awaits x h
    mine g → (∀ h ∈ l, mine h → key g < key h) → (∀ h ∈ r, mine h → key g ≤ key h) →
    (g.bytes = d.cgBytes → unlogged s (p / 4) → g.data.length ≤ 128 → ∀ a, a = fld (d.word 0) 23 23 + g.rank * d.cgBytes + 128 * g.row →
      unhindered s d (.slice (p / 4)) (a % 2 ^ 23) 128 → unhindered s d (.slice (p / 4)) 0 128 →
      ∃ t e, exec (.collectiveContributionLanding p d.id) s = .next t ∧ t.gathers = l ++ r ∧ t.cmd p d.id = some e ∧
        e.landed = key g :: d.landed ∧ laid t (p / 4) p d.id false a g.data) ∧
    (g.bytes ≠ d.cgBytes → ∃ t e, exec (.collectiveContributionLanding p d.id) s = .next t ∧ t.cmd p d.id = some e ∧
      e.fault = some ⟨0x24, 0, 0⟩)) ∧
  ∀ s k, s.newArrivals k = [] → s.ckptReady k = true → (s.ctx k).lock = false →
    (Config.freeNat s.freeCtr % 2 = 0 → exec (.checkpointComplete k) s = .next { s with freeCtr := s.freeCtr + 1 }) ∧
    (Config.freeNat s.freeCtr % 2 = 1 → ∃ t, exec (.checkpointComplete k) s = .next t ∧
      (t.ctx k).ck.interval = ((s.ctx k).ck.interval + 1) % 2 ^ 32 ∧ (t.ctx k).ck.valid = true ∧
        (t.ctx k).ck.bank = 1 - (s.ctx k).ck.bank ∧ (t.ctx k).ck.used = 0 ∧ (t.ctx k).ck.logged = [] ∧
        (t.ctx k).ck.ovf = false ∧ ∀ x ∈ s.runningKernels k, ∀ n ∈ x.2.cores, ∀ q < 4,
          (t.part (4 * n + q)).ckpt = false ∧ (∀ c ∈ (t.part (4 * n + q)).cmds, c.kind ≠ .ckpt) ∧
          ∀ c ∈ (s.part (4 * n + q)).cmds, c.kind = .ckpt → c.tag < 64 → Cells.get 0 c.tag (s.part (4 * n + q)).owners = c.id →
            (t.part (4 * n + q)).tags.getLsbD c.tag = true)

/-- R338, R353: a walk that finds a walker of its die free takes it for a time that is not known before, its context having no budget or
the period it is held to having come (R302, R303), and waits where all 32 work; its completion gives its command the translation that the page table then holds. R338: a write of TLBINV starts an invalidation that
takes a free time, beside those under way; when the time of some has run out no buffer holds a translation that one of them covers, all
others staying. -/
def Sys2Proof.Says.pageWalks : Prop :=
  (∀ s p c l w r, s.walks = l ++ w :: r → w.gpi = p → w.cmd = c → w.left = none → w ∉ l ++ r →
    (∀ v ∈ l, v.gpi = p → v.cmd = c → v.left ≠ none) →
    ((s.walks.filter fun x => x.die == w.die && x.left.isSome).length < 32 →
      (∀ k, s.ctxOf (p / 4) = some k → w.due ≤ s.period k ∧ (0 < w.due ∨ ∀ cls, (s.ctx k).budget cls = 0)) →
      ∃ t n, exec (.pageWalk p c) s = .next t ∧ t.walks = l ++ { w with left := some (n + 1) } :: r ∧
        t.parts = s.parts ∧ t.cores = s.cores ∧ t.hbm = s.hbm) ∧
    (32 ≤ (s.walks.filter fun x => x.die == w.die && x.left.isSome).length → exec (.pageWalk p c) s = .next s)) ∧
  (∀ s p d w k, held s p d → s.ctxOf (p / 4) = some k → s.walks = [w] → w.gpi = p → w.cmd = d.id → w.left = some 0 →
    ∃ t e, exec (.pageWalkCompletion p d.id) s = .next t ∧ t.walks = [] ∧ t.cmd p d.id = some e ∧
      Cells.get (.bad 0 0) (w.va / 4096) e.pages = s.walkVa k w.va ∧ e.waits = d.waits.filter fun g => g != w.va / 4096) ∧
  (∀ s v, ∃ n, exec (.tlbinvWrite v) s = .next { s with
    freeCtr := s.freeCtr + 1, tlbinv := BitVec.ofNat 64 (fld v 12 49 * 2 ^ 12), tlbJobs := s.tlbJobs ++ [(fld v 12 49 * 2 ^ 12, n + 1)] }) ∧
  ∀ s, ∃ t, exec .tlbInvalidationDone s = .next t ∧ t.tlbJobs = s.tlbJobs.filter (fun j => j.2 != 0) ∧ t.tlbinv = s.tlbinv ∧
    let kept := fun (e : TlbEntry) => ∀ j ∈ s.tlbJobs, j.2 = 0 → ¬ invalidated j.1 e
    ∀ n e, (e ∈ (t.core n).tlb ↔ e ∈ (s.core n).tlb ∧ kept e) ∧
      (e ∈ Cells.get [] n t.dieTlb ↔ e ∈ Cells.get [] n s.dieTlb ∧ kept e)

/-- R237, R239, R258, R274, R275, R277, R338, R353, R367: a command's start, its order behind others and its completion, and
the page walks and invalidations it waits for.
The model's own choices in it: assumption logs 5, 17, 47, 83, 118. -/
def Obligations.CommandsAndPageWalks : Prop := commandStartAndCompletion ∧ commandOrder ∧ pageWalks

/-! ### Traps, the handler and resumption -/

namespace Sys2Proof.Says

open Sys2Proof Sys2Proof.Machine

/-- What the snapshot buffer of partition q captures of a core's results in flight: each with REM and AGE counted from the clock of
the stop (R322, R324). -/
def caught (c : Core) (q : Nat) : List SnapEntry :=
  (c.pend.filter fun l => l.gpi == q).map fun l => ⟨l.due - c.tick, c.tick - l.issued, l.slot, l.flags, l.act, false⟩

/-- A captured entry of partition p back in flight on clock t (R323). -/
def replayed (e : SnapEntry) (p t : Nat) : Landing := ⟨t + e.rem, t - e.age, p, e.slot, e.flags, e.act⟩

/-- Word k of partition p's fault record. -/
abbrev record (s : State) (p k : Nat) : W64 := Cells.get 0 k (s.part p).frec

/-- Core n has stopped on this clock at CYCLE value cyc: nothing of it is in flight, and its partitions hold what was (R321,
R322). -/
def halted (s t : State) (n : Nat) (quiet : Bool) : Prop :=
  (t.core n).stop = some ⟨(s.core n).cycle, none, quiet, none, false, 0, (s.core n).lock, false⟩ ∧ (t.core n).pend = [] ∧
    (t.core n).cycle = (s.core n).cycle ∧ (t.core n).frz = (s.core n).frz ∧
    ∀ q < 4, (t.part (4 * n + q)).snap = (s.part (4 * n + q)).snap ++ caught (s.core n) (4 * n + q)

/-- Core n is in state 01 of CORECTL: stopped, its resumption not under way, no partition of it in handler state (R328). -/
def atRest (s : State) (n : Nat) (h : Stop) : Prop :=
  (s.core n).stop = some h ∧ h.active = false ∧ h.resume = none ∧ h.handler = none

/-- The core has refused a write of CORECTL: ERR is set and nothing else changed (R328). -/
abbrev refused (s : State) (n : Nat) : State := withCore s n fun c => { c with ctl := { c.ctl with err := true } }

end Sys2Proof.Says

/-- R318, R321, R322, R325 to R327: a trap taken by a partition of a core that runs a program stops the core at its CYCLE, captures
every result in flight, writes the fault record in full and names the core in TRPEND; in elastic mode no other core is touched and
the core's commands and calls go on; in lockstep mode they are held.
The model's own choices in it: assumption logs 68, 72. -/
def Obligations.TakingATrap : Prop :=
  ∀ s p t n, n = p / 4 → (s.part p).trapNow = some t → (s.core n).stop = none →
    ∃ u, exec (.trapTake p) s = .next u ∧ halted s u n false ∧ n ∈ u.trpend ∧ (u.part p).trapNow = none ∧
      (u.part p).pc = (s.part p).pc ∧ (u.part p).sq = (s.part p).sq ∧ (u.part p).vq = (s.part p).vq ∧ u.hbm = s.hbm ∧
      record u p 0 = BitVec.ofNat 64 (t.cause + 2 ^ 8 * b2n t.grp2 + 2 ^ 10 * t.fmask + 2 ^ 14 * t.cmask + 2 ^ 18 * b2n t.long
        + 2 ^ 19 * b2n (s.core n).lock + 2 ^ 20 * t.ctag + 2 ^ 32 * t.tcode + 2 ^ 40 * (u.part p).snap.length) ∧
      record u p 1 = BitVec.ofNat 64 (t.pc + 2 ^ 17 * b2n t.half) ∧
      record u p 2 = BitVec.ofNat 64 (t.value % 2 ^ 56 + 2 ^ 56 * t.aux) ∧
      record u p 3 = BitVec.ofNat 64 (t.rows % 2 ^ 32 + 2 ^ 32 * t.moved) ∧
      record u p 4 = BitVec.ofNat 64 (t.uword + 2 ^ 10 * t.urow) ∧
      record u p 5 = BitVec.ofNat 64 (s.core n).cycle ∧ record u p 6 = 0 ∧ record u p 7 = 0 ∧
      ((s.core n).lock = false → (u.core n).calls = (s.core n).calls ∧ (∀ m, m ≠ n → u.core m = s.core m) ∧
        ∀ q < 4, (u.part (4 * n + q)).cmds = (s.part (4 * n + q)).cmds) ∧
      ((s.core n).lock = true → (∀ k ∈ (u.core n).calls, k.held = true) ∧
        ∀ q < 4, ∀ c ∈ (u.part (4 * n + q)).cmds, c.held = true)

/-- R321 to R323, R328, R334: a core told to stop stops as one that traps does, unnamed in TRPEND; RESUME in state 01 of an elastic
core sets its resumption ten clocks on, of a lockstep core that of every stopped core of its kernel, each as far from it as its CYCLE
lies, and is refused in another state, one in which a resumption is under way among them; a core that resumes puts what it
captured back in flight, the clocks left as they were, is named in TRPEND no more, and after a checkpoint issues past its CKPT. -/
def Sys2Proof.Says.stoppingAndResuming : Prop :=
  (∀ s n, (s.core n).stop = none → ∃ u, exec (.lockstepCoreStop n) s = .next u ∧ halted s u n true ∧ u.trpend = s.trpend) ∧
  (∀ s n h, atRest s n h → (s.core n).lock = false →
    exec (.corectlResume n) s = .next (withCore s n fun c => { c with stop := some { h with resume := some 10 } })) ∧
  (∀ s n h, atRest s n h → (s.core n).lock = true →
    (∀ m ∈ s.kin n, ∀ g, (s.core m).stop = some g → g.active = false → h.cyc ≤ g.cyc + 9) →
    ∃ t, exec (.corectlResume n) s = .next t ∧ ∀ m ∈ s.kin n, ∀ g, (s.core m).stop = some g → g.active = false →
      (t.core m).stop = some { g with resume := some (10 + g.cyc - h.cyc) }) ∧
  (∀ s n, (s.core n).stop = none → exec (.corectlResume n) s = .next (refused s n)) ∧
  (∀ s n h, (s.core n).stop = some h → (h.active = true ∨ h.resume.isSome = true) →
    exec (.corectlResume n) s = .next (refused s n)) ∧
  ∀ s n h, (s.core n).stop = some h → h.handler = none →
    ∃ u, exec (.coreResume n) s = .next u ∧ (u.core n).stop = none ∧ u.trpend = s.trpend.filter (fun m => m != n) ∧
      (u.core n).cycle = (s.core n).cycle ∧
      (u.core n).pend = (s.core n).pend ++ (List.range 4).flatMap (fun q =>
        ((s.part (4 * n + q)).snap.filter fun e => !e.nest).map fun e => replayed e (4 * n + q) (s.core n).tick) ∧
      ∀ q < 4, (u.part (4 * n + q)).snap = (s.part (4 * n + q)).snap.filter (fun e => e.nest) ∧
        (u.part (4 * n + q)).pc = (s.part (4 * n + q)).pc ∧ (h.ckpt = true → (u.part (4 * n + q)).ckpt = false)

/-- R328, R329: HENTER in state 01 of a core of a kernel none of whose partitions is in handler state copies the partition's record to
the slice, holds its sequencer state and starts it at HPC in half HHALF with empty loop stack and predicate block; HPC off a bundle or
HROFS off 64 bytes, a running core, or a partition of the kernel in handler state is refused. The commit of an ERET gives that state
back, the core to resume on the next clock. -/
def Sys2Proof.Says.enteringAndLeavingTheHandler : Prop :=
  (∀ s n v h p x, atRest s n h → (∀ m ∈ s.kin n, ∀ g, (s.core m).stop = some g → g.handler = none) → unlogged s n →
    p = 4 * n + fld v 3 2 → x = s.part p →
    (fld v 6 4 = 0 → fld v 23 6 = 0 →
      ∃ u, exec (.corectlHenter n v) s = .next u ∧
        (u.core n).stop = some { h with handler := some (fld v 3 2), active := true, from_ := s.nextId } ∧
        (u.part p).held = some ⟨x.pc, x.half, x.loops, x.pblk, x.run, x.group2, x.hold, x.barw, x.ckpt⟩ ∧
        (u.part p).pc = fld v 6 17 ∧ (u.part p).half = bit v 5 ∧ (u.part p).loops = [] ∧ (u.part p).pblk.rem = 0 ∧
        (u.part p).run = .running ∧ (u.part p).group2 = none ∧ (u.part p).sq = x.sq ∧ (u.part p).snap = x.snap ∧
        u.mem (.slice n) = (s.mem (.slice n)).writeBytes (fld v 23 23)
          ((List.range 8).flatMap fun w => splitBytes (record s p w).toNat 8) ∧ u.hbm = s.hbm) ∧
    ((fld v 6 4 ≠ 0 ∨ fld v 23 6 ≠ 0) → exec (.corectlHenter n v) s = .next (refused s n))) ∧
  (∀ s n v, ((s.core n).stop = none ∨ ∃ m ∈ s.kin n, ∃ g, (s.core m).stop = some g ∧ g.handler.isSome = true) →
    exec (.corectlHenter n v) s = .next (refused s n)) ∧
  ∀ s n h q y, (s.core n).stop = some h → h.handler = some q → (s.part (4 * n + q)).held = some y → (s.core n).lock = false →
    eretCommit n s = withCore (withPart s (4 * n + q) fun x => { x with
        pc := y.pc, half := y.half, loops := y.loops, pblk := y.pblk, run := y.run, group2 := y.group2,
        hold := y.hold, barw := y.barw, ckpt := y.ckpt, held := none }) n
      fun c => { c with stop := some { h with handler := none, active := false, resume := some 1 } }

/-- R154, R321 to R323, R328, R329: stopping and resuming a core, entering its handler and leaving it, by register write and
by ERET.
The model's own choices in it: assumption logs 21, 22, 29. -/
def Obligations.StopsHandlersAndResumption : Prop := returnFromTheHandler ∧ stoppingAndResuming ∧ enteringAndLeavingTheHandler

/-! ### Contexts, queues and kernels -/

namespace Sys2Proof.Says

open Sys2Proof Sys2Proof.Machine

/-- Context k replaced by f of it, and nothing else changed. -/
abbrev withCtx (s : State) (k : Nat) (f : Context → Context) : State := { s with ctxs := Cells.put k (f (s.ctx k)) s.ctxs }

/-- The 64-bit word at an address of device memory replaced. -/
abbrev stored (m : Mem) (a v : Nat) : Mem := m.writeN a 8 v

/-- Word w of the context record k in device memory (R285). -/
abbrev recordWord (s : State) (k w : Nat) : Nat := s.hbm.readN (s.ctxbase.toNat + 64 * k + 8 * w) 8

/-- An answer: queue q stopped with code e: EN cleared and QERR written in its entry, RDIDX left as it is, no kernel added, and
interrupt 2 held or sent (R288, R363). -/
def stopsQueue (o : Machine.Out) (s : State) (q e : Nat) : Prop :=
  ∃ t, o = .next t ∧ t.kernels = s.kernels ∧ t.queues = s.queues ∧
    t.hbm = stored (stored s.hbm (s.queueAt q + 8) (s.qword q 1 - (if bit (s.qword q 1) 9 then 2 ^ 9 else 0))) (s.queueAt q + 24) e ∧
    (2 ∈ t.irqHeld ∨ t.irqSent.length = s.irqSent.length + 1)

/-- No context keeps a rollback log, for none has a checkpoint (R335). -/
def unkept (s : State) : Prop := ∀ k, (s.ctx k).ck.valid = false

/-- The n bytes that a kernel's descriptor names at address a: none where the address or the count is 0 (R291). -/
def imageAt (s : State) (x : Kernel) (a n : Nat) (bs : List W8) : Prop :=
  (a = 0 ∨ n = 0 → bs = []) ∧ (a ≠ 0 → n ≠ 0 → s.vbytes x.ctx a n = some bs)

/-- Entry i of a list of n-byte entries, 0 beyond its end. -/
def entryOf (n : Nat) (bs : List W8) (i : Nat) : Nat := joinBytes ((bs.drop (n * i)).take n)

/-- A core's program memories and tables as a kernel's images give them: entries and banks that no image names are zero, and the Gaussian
and log-add tables without an image are as at reset (R292). -/
def loadsImages (s : State) (x : Kernel) (c : Core) : Prop :=
  ∀ code cw mp cb gt la, s.vbytes x.ctx (x.dw 0) (16 * (fld (x.dw 1) 0 13 + 1)) = some code →
    imageAt s x (x.dw 2) (32 * x.dw 3) cw → imageAt s x (x.dw 4) (16 * x.dw 5) mp →
    imageAt s x (x.dw 6) (32776 * ((List.range 8).filter fun b => bit (x.dw 7) b).length) cb →
    imageAt s x (x.dw 8) 3072 gt → imageAt s x (x.dw 9) 256 la →
    (∀ i v, code[i]? = some v → c.imem.read (2 ^ 17 * (if bit (x.dw 1) 13 then 1 else 0) + i) = v) ∧
    (∀ i, Cells.get 0 i c.cwt = BitVec.ofNat 256 (entryOf 32 cw i)) ∧ (∀ i, Cells.get 0 i c.mpst = BitVec.ofNat 128 (entryOf 16 mp i)) ∧
    (∀ b < 8, ∀ r, r = 32776 * ((List.range b).filter fun e => bit (x.dw 7) e).length →
      c.cbcfgOf b = (if bit (x.dw 7) b then cbcfgWrite 0 (entryOf 8 (cb.drop r) 0) % 2 ^ 64 else 0) ∧
      ∀ i < 4096, c.cbEntry b i = if bit (x.dw 7) b then entryOf 8 (cb.drop (r + 8)) i else 0) ∧
    (∀ i < 768, c.gaussT i = if gt = [] then Core.initial.gaussT i else entryOf 4 gt i) ∧
    ∀ i < 64, c.logAdd i = if la = [] then Core.initial.logAdd i else entryOf 4 la i

/-- What the loop sequencer delivers of level e of a kernel's table to core n: the first index and the count of its part, the part's
index being the core's rank taken apart by the parts of the levels of e's kind inside it; of a temporal level its count (R295). -/
def deliveredTo (x : Kernel) (cores : List Nat) (n e : Nat) : List Nat :=
  let dies := x.levels.any fun l => fld l 32 2 == 2
  let cr := (cores.filter fun m => decide (m < n) && (!dies || m / 160 == n / 160)).length
  let dr := if cores.any fun m => decide (m / 160 < n / 160) then 1 else 0
  let inner := ((x.levels.filter fun l => fld l 32 2 == fld e 32 2 && decide (fld e 34 3 < fld l 34 3)).map fun l => fld l 37 11).prod
  let i := (if fld e 32 2 = 2 then dr else cr) / inner % fld e 37 11
  let first := i * (e % 2 ^ 32) / fld e 37 11
  if fld e 32 2 = 0 then [e % 2 ^ 32] else [first, (i + 1) * (e % 2 ^ 32) / fld e 37 11 - first]

/-- No residency report of queue q's last packet is owed. -/
def unowed (s : State) (q : Nat) : Prop := ∀ x ∈ s.kernels, ¬ (x.2.queue = q ∧ x.2.report = 1)

end Sys2Proof.Says

/-- R286, R287, R299, R305, R369, R381: activation reads the context's record and seed, or is turned away with ERR for reserved bits of word 0
or a cluster held elsewhere, and starts a stopped dispatch unit; clearing an enable stops no more than dispatch begin; a context with no
kernel left is inactive; ERR and OVR clear where 1 is written, the OVR of an active lockstep context standing while a thermal alarm lasts
(R381); a seed is written; a period starts with empty counters, and 256 whole periods raise a waiting kernel's
priority by one, up to level 2.
The model's own choices in it: assumption logs 3, 97, 105. -/
def Obligations.ContextRegisters : Prop :=
  (∀ s k, (s.ctx k).active = false →
    (recordBad ((List.range 8).map fun i => recordWord s k i) = false →
      (∀ j < 16, j ≠ k → (s.ctx j).active = true → ∀ c < 20, ¬ (bit (recordWord s k 0) c = true ∧ bit (s.ctx j).clmask c = true)) →
      ∃ t, exec (.ctxenSet k) s = .next t ∧ (t.ctx k).active = true ∧ t.ctxen = s.ctxen ||| BitVec.ofNat 16 (2 ^ k) ∧
        (t.ctx k).record = (List.range 8).map (fun i => recordWord s k i) ∧
        (t.ctx k).seed = BitVec.ofNat 64 (recordWord s k 2) ∧ (t.ctx k).used = [] ∧ (t.ctx k).seqs = [] ∧ t.stalled = false ∧
        (s.stalled = false → t.ctxerr = s.ctxerr)) ∧
    ((2 ^ 23 ≤ recordWord s k 0 ∨ ∃ j < 16, j ≠ k ∧ (s.ctx j).active = true ∧ ∃ c < 20,
        bit (recordWord s k 0) c = true ∧ bit (s.ctx j).clmask c = true) →
      ∃ t, exec (.ctxenSet k) s = .next t ∧ (t.ctx k).active = false ∧ t.stalled = false ∧
        (s.stalled = false → t.ctxerr = s.ctxerr ||| BitVec.ofNat 16 (2 ^ k)) ∧
        (1 ∈ t.irqHeld ∨ t.irqSent.length = s.irqSent.length + 1))) ∧
  (∀ s k, exec (.ctxenClear k) s = .next { s with ctxen := s.ctxen &&& ~~~(BitVec.ofNat 16 (2 ^ k)) }) ∧
  (∀ s k, (s.ctx k).active = true → s.ctxen.getLsbD k = false → (∀ x ∈ s.kernels, x.2.ctx ≠ k) →
    exec (.contextDeactivate k) s = .next (withCtx s k fun c => { c with active := false })) ∧
  (∀ s v, ∃ w, exec (.ctxstWrite v) s = .next { s with ctxerr := s.ctxerr &&& ~~~(BitVec.ofNat 16 (fld v 16 16)), ctxovr := w } ∧
    ∀ k < 16, w.getLsbD k = (s.ctxovr.getLsbD k && !bit v (32 + k) || s.alarm && (s.ctx k).active && (s.ctx k).lock)) ∧
  (∀ s k v, exec (.ctxseedWrite k v) s = .next (withCtx s k fun c => { c with seed := BitVec.ofNat 64 v })) ∧
  (∀ s k, exec (.budgetPeriodStart k) s = .next { withCtx s k (fun c => { c with used := [] }) with
    kernels := s.kernels.map fun x => (x.1, if x.2.ctx = k ∧ (x.2.stage = .waiting ∨ x.2.stage = .preempted) ∧
      x.2.since + 4096 ≤ s.clock then { x.2 with periods := x.2.periods + 1 } else x.2) }) ∧
  ∀ s k, (∀ x ∈ s.kernels, x.1 = k → 256 ≤ x.2.periods) →
    exec (.priorityAging k) s = .next { s with kernels := s.kernels.map fun x => if x.1 = k then
      (x.1, { x.2 with periods := x.2.periods - 256, prio := (if x.2.prio < 2 then x.2.prio + 1 else x.2.prio) }) else x }

/-- R288 to R290: a write index within the ring lands in its queue, and one beyond it stops the queue with QERR 6; at dispatch begin a
packet of another type than 1 and 2 stops its queue with QERR 1; a packet in order advances RDIDX and becomes a kernel, or a marker,
with its priority and its explicit or context seed; one with BAR waits while an earlier packet has not completed.
The model's own choices in it: assumption log 74. -/
def Obligations.QueuesAndDispatchBegin : Prop :=
  (∀ s q w, (s.qEn q = false ∨ (s.qBad q = false ∧ (w % 2 ^ 64 + 2 ^ 64 - s.qRd q) % 2 ^ 64 ≤ 2 ^ fld (s.qword q 1) 4 5)) →
    exec (.qnotifyWrite q w) s = .next { s with
      queues := Cells.put q { s.uqueue q with widx := some (BitVec.ofNat 64 w) } s.queues }) ∧
  (∀ s q w, unkept s → s.qEn q = true → s.qBad q = false → 2 ^ fld (s.qword q 1) 4 5 < (w % 2 ^ 64 + 2 ^ 64 - s.qRd q) % 2 ^ 64 →
    ∃ t, exec (.qnotifyWrite q w) s = .next t ∧ t.kernels = s.kernels ∧
      t.hbm = stored (stored s.hbm (s.queueAt q + 8) (s.qword q 1 - 2 ^ 9)) (s.queueAt q + 24) 6) ∧
  ∀ s q pk, unkept s → unowed s q → s.qBad q = false → s.nextPacket q = some pk →
    (bit (pk.getD 0 0) 10 = true → (s.uqueue q).live ≠ [] → exec (.dispatchBegin q) s = .next s) ∧
    ((bit (pk.getD 0 0) 10 = true → (s.uqueue q).live = []) →
      (pk.getD 0 0 % 2 ^ 8 ≠ 1 → pk.getD 0 0 % 2 ^ 8 ≠ 2 → stopsQueue (exec (.dispatchBegin q) s) s q 1) ∧
      (∀ e, s.checkPacket q pk = .inl e → stopsQueue (exec (.dispatchBegin q) s) s q e) ∧
      ∀ k, s.checkPacket q pk = .inr k → k.fwd = false →
        k.queue = q ∧ k.index = s.qRd q ∧ k.packet = pk ∧ k.prio = fld (pk.getD 0 0) 8 2 ∧
        k.seed = (if bit (pk.getD 0 0) 17 then BitVec.ofNat 64 (pk.getD 3 0) else (s.ctx (s.qCtx q)).seed) ∧
        k.stage = (if pk.getD 0 0 % 2 ^ 8 = 2 then .marker else .waiting) ∧
        ∃ t, exec (.dispatchBegin q) s = .next t ∧ t.nextId = s.nextId + 1 ∧
          t.kernels = Cells.put s.nextId { k with report := 0 } s.kernels ∧
          t.hbm = stored s.hbm (s.queueAt q + 16) ((s.qRd q + 1) % 2 ^ 64) ∧
          (t.uqueue q).live = (s.uqueue q).live ++ [s.qRd q])

/-- R290, R292, R295, R297, R298, R325: a kernel whose clusters and images are found is placed on them: the program memories, tables and
windows hold its images; partition 0 of each core issues from its entry point with the argument in queue 0 and its part of each level
in the queues after it, every other queue empty, the others idle, the tile banks that TBON names are on, and every fault record stays; a
kernel that ends adds its discarded entries and 1 to its completion
word, frees its clusters and is held no more.
The model's own choices in it: assumption logs 24, 74, 81, 85, 109. -/
def Obligations.KernelStartAndEnd : Prop :=
  (∀ s k x cs xs, s.kernel k = some x → x.report = 0 → x.fwd = false → s.placeFor [] x = some cs → s.images x = some xs →
    ∃ t y, exec (.kernelStart k) s = .next t ∧ t.kernel k = some y ∧ y.stage = .running ∧ y.clusters = cs ∧ y.packet = x.packet ∧
      ∀ c ∈ cs, (t.cluster c).kernel = some k ∧ (t.cluster c).tq = [] ∧ (t.cluster c).posted = [] ∧
        (∀ mw, imageAt s x (x.dw 11) 256 mw → ∀ i, Cells.get 0 i (t.cluster c).mcwin = BitVec.ofNat 128 (entryOf 16 mw i)) ∧
        ∀ j < 16, (t.core (16 * c + j)).kernel = some k ∧ (t.core (16 * c + j)).cycle = 0 ∧
          (t.core (16 * c + j)).kseed = x.seed ∧ (t.core (16 * c + j)).lock = (s.ctx x.ctx).lock ∧
          (t.part (4 * (16 * c + j))).run = .running ∧ (t.part (4 * (16 * c + j))).pc = fld (x.dw 1) 14 17 ∧
          (t.part (4 * (16 * c + j))).half = bit (x.dw 1) 13 ∧
          (∀ q < 4, (t.part (4 * (16 * c + j) + q)).frec = (s.part (4 * (16 * c + j) + q)).frec) ∧
          Cells.get [] 0 (t.part (4 * (16 * c + j))).sq = [BitVec.ofNat 64 (x.pw 2)] ∧
          loadsImages s x (t.core (16 * c + j)) ∧ (t.core (16 * c + j)).btag = false ∧
          (∀ q < 4, ∀ b < 4, ((t.part (4 * (16 * c + j) + q)).bank b).req = if bit (x.dw 10) (4 * q + b) then .on else .off) ∧
          ((∀ e ∈ x.levels, fld e 32 2 ≠ 3) → (∀ l ∈ [1, 2], ((x.levels.filter fun e => fld e 32 2 == l).map fun e => fld e 34 3).Nodup) →
            ∀ l, Cells.get [] (1 + l) (t.part (4 * (16 * c + j))).sq = match x.levels[l]? with
              | some e => (deliveredTo x y.cores (16 * c + j) e).map fun v => BitVec.ofNat 64 v
              | none => []) ∧
          ∀ q, 1 ≤ q → q < 4 → (t.part (4 * (16 * c + j) + q)).run = .idle ∧ (t.part (4 * (16 * c + j) + q)).sq = []) ∧
  ∀ s k x d, s.kernel k = some x → x.stage ≠ .ending → x.report = 0 → x.fwd = false →
    d = (x.clusters.map fun c => (s.cluster c).tq.length).sum →
    let ends := fun (m : Mem) => ∃ t, exec (.kernelEnd k) s = .next t ∧ t.kernel k = none ∧ t.hbm = m ∧
      (t.uqueue x.queue).live = (s.uqueue x.queue).live.filter (fun i => i != x.index) ∧
      ∀ c ∈ x.clusters, (t.cluster c).kernel = none ∧ (t.cluster c).tq = [] ∧ ∀ j < 16, (t.core (16 * c + j)).kernel = none
    (x.pw 4 = 0 → ends s.hbm) ∧
    ∀ b, x.pw 4 ≠ 0 → s.place x.ctx (x.pw 4) true = .at .hbm b → unkept s →
      ends (stored s.hbm b (s.hbm.readN b 8 + (d * 2 ^ 32 + 1)))

/-- R300, R325, R330 to R332: a kernel chosen for pre-emption takes its own slot, or the lowest that no kernel of its context holds, and its cores
are told to stop; a core so told stops at its boundary with what is in flight captured; once all stand still and their writes are
made the image is in its slot, the kernel is pre-empted and its clusters are free. A pre-empted kernel whose clusters are free is
restored on them from its slot and runs: its memories, its cores' counts, its task queues' tails and of each partition the program
counter, loop levels, predicates, tags, flags and queues as the image in memory has them (R331, R332; where the spec gives an item no
place, where the model put it), its fault records as they stand (R325).
The model's own choices in it: assumption logs 23, 25, 57. -/
def Obligations.PreemptionAndResumption : Prop :=
  (∀ s k x, s.kernel k = some x → x.stage = .running → (∀ n ∈ x.cores, (s.core n).stop = none) →
    ∃ t y, exec (.preemption k) s = .next t ∧ t.kernel k = some y ∧ y.stage = .stopping ∧
      y.slot = (match x.slot with | some j => some j | none => (s.freeSlots x.ctx).head?) ∧
      ∀ n ∈ x.cores, (t.core n).stopReq = true ∧ (t.core n).stop = none) ∧
  (∀ s k x n, s.kernel k = some x → x.stage = .stopping → n = s.cur.core → n ∈ x.cores → (s.core n).stop = none →
    ∃ t, exec (.preemption k) s = .next t ∧ (t.core n).pend = [] ∧
      (∃ h, (t.core n).stop = some h ∧ h.cyc = (s.core n).cycle ∧ h.resume = some 1 ∧ h.handler = none) ∧
      ∀ q < 4, (t.part (4 * n + q)).snap = (s.part (4 * n + q)).snap ++ caught (s.core n) (4 * n + q) ∧
        ∀ c ∈ (t.part (4 * n + q)).cmds, c.held = true) ∧
  (∀ s k x, s.kernel k = some x → x.stage = .stopping → x.cores.contains s.cur.core = false → s.quiesced x = true →
    ∃ t y, exec (.preemption k) s = .next t ∧ t.kernel k = some y ∧ y.stage = .preempted ∧ y.since = s.clock ∧
      y.image.isSome = true ∧ (∀ c ∈ x.clusters, (t.cluster c).kernel = none) ∧
      ∀ a, a = fld (s.ctx x.ctx).savebase.toNat 37 15 * 2 ^ 37 + x.slot.getD 0 * 2 ^ 33 → s.hbm.wf → unkept s → ∀ i n, x.cores[i]? = some n →
        (∀ b < 2 ^ 23, t.hbm.read (a + 0x200000 + 0xD00000 * i + 0x500000 + b) = (s.core n).slice.read b) ∧
        ∀ b < 2 ^ 18, t.hbm.read (a + 0x200000 + 0xD00000 * i + 0x2C0000 + b) = (s.core n).imem.read b) ∧
  ∀ s k x cs img j a, s.kernel k = some x → x.stage = .preempted → s.placeFor [] x = some cs → x.image = some img →
    x.slot = some j → a = fld (s.ctx x.ctx).savebase.toNat 37 15 * 2 ^ 37 + j * 2 ^ 33 → x.clusters.Nodup →
    ∃ t y, exec (.kernelResume k) s = .next t ∧ t.kernel k = some y ∧ y.stage = .running ∧ y.image = none ∧
      (∀ i c, x.clusters[i]? = some c → (t.cluster c).kernel = some k ∧
        (t.cluster c).tqTail = s.hbm.readN (a + 0x10000 + 0x10000 * i + 8) 8 % 1024) ∧
      ∀ i n, x.cores[i]? = some n → (t.core n).kernel = some k ∧
        (∀ b < 2 ^ 23, (t.core n).slice.read b = s.hbm.read (a + 0x200000 + 0xD00000 * i + 0x500000 + b)) ∧
        (∀ b < 2 ^ 18, (t.core n).imem.read b = s.hbm.read (a + 0x200000 + 0xD00000 * i + 0x2C0000 + b)) ∧
        (∀ w, w = (fun j => s.hbm.readN (a + 0x200000 + 0xD00000 * i + 8 * j) 8) → (t.core n).kseed = BitVec.ofNat 64 (w 0) ∧
          (t.core n).cycle = w 1 ∧ (t.core n).frz = w 2 ∧ ∀ k < 4, Cells.get 0 k (t.core n).sema = w (3 + k)) ∧
        ∀ q < 4, ∀ b w z, b = a + 0x200000 + 0xD00000 * i + 0x180000 + 0x50000 * q → w = (fun j => s.hbm.readN (b + 8 * j) 8) →
          z = t.part (4 * n + q) → z.pc = w 0 ∧ z.half = bit (w 1) 0 ∧ z.frec = (s.part (4 * n + q)).frec ∧
          z.loops = (List.range (min 8 (w 6))).map (fun l => ⟨w (7 + 2 * l), fld (w (8 + 2 * l)) 0 32, fld (w (8 + 2 * l)) 32 32⟩) ∧
          z.preds = BitVec.ofNat 8 (w 25) ∧ z.tags = BitVec.ofNat 64 (w 42) ∧ z.flags = BitVec.ofNat 6 (w 43) ∧
          (∀ e < 32, Cells.get [] e z.sq = (List.range (min 4 (s.hbm.read (b + 512 + e)).toNat)).map fun v =>
            BitVec.ofNat 64 (s.hbm.readN (b + 0x400 + 32 * e + 8 * v) 8)) ∧
          ∀ e < 64, Cells.get [] e z.vq = (List.range (min 4 (s.hbm.read (b + 448 + e)).toNat)).map fun v =>
            BitVec.ofNat 1024 (s.hbm.readN (b + 0x800 + 512 * e + 128 * v) 128)

/-! ### Memory errors, repair, fabric, management, boot and the governor -/

namespace Sys2Proof.Says

open Sys2Proof Sys2Proof.Machine

/-- An event of source i raised: sent to its hart where its entry enables it, else held, merged with one held before (R363). -/
def rung (i : Nat) (s : State) : State :=
  let e := (Cells.get 0 i s.iroute).toNat
  if bit e 16 then { s with irqSent := s.irqSent ++ [(fld e 0 5, fld e 5 11)] }
  else if i ∈ s.irqHeld then s else { s with irqHeld := s.irqHeld ++ [i] }

/-- Requester who (1 and 2 the management ports, 3 the system cores) holds management semaphore k (R372). -/
def owns (s : State) (who k : Nat) : Prop := who ≠ 0 ∧ (Cells.get ⟨0, 0, false⟩ k s.msem).owner = who

/-- A die's memory-error block. -/
abbrev errors (s : State) (die : Nat) : MemErr := Cells.get ⟨[], 0, 0, 0⟩ die s.memerr

/-- The record of an error beyond correction of a class at address a, owned by context k or none: the first since the record was
armed fills it, in device memory with the address of its beat, each is counted, and interrupt 4 is raised (R356). -/
def recorded (s : State) (die cls : Nat) (k : Option Nat) (a : Nat) : State :=
  let e := errors s die
  let first := e.uestat.getLsbD 0 = false
  rung 4 { s with memerr := Cells.put die { e with
    uestat := (if first then BitVec.ofNat 64 (1 + 2 * cls + 16 * k.getD 0 + 2 ^ 8 * b2n k.isSome) else e.uestat),
    ueaddr := (if first then BitVec.ofNat 64 (if cls = 4 then a / 64 * 64 else if cls = 0 then a else 0) else e.ueaddr),
    uecnt := e.uecnt + 1 } s.memerr }

/-- No kernel of context k holds or left clusters: those it has wait for their first placement, or are markers. -/
def emptied (t : State) (k : Nat) : Prop := ∀ x ∈ t.kernels, x.2.ctx = k → x.2.stage = .waiting ∨ x.2.stage = .marker

/-- A repair request accepted, whose word is w and was written as v: its fields kept as written and BUSY set for 4,096 clocks (R359,
R360). -/
abbrev accepted (s : State) (v w : Nat) : State :=
  { s with repair := ⟨BitVec.ofNat 64 v, some 4096, s.repair.err, w, []⟩ }

/-- A repair request refused: ERR is set and nothing else changed (R360). -/
abbrev turnedDown (s : State) : State := { s with repair := { s.repair with err := true } }

/-- No repair is under way, and no placed kernel holds the cluster, one of the device's twenty (R360). -/
def repairable (s : State) (c : Nat) : Prop := s.repair.left = none ∧ c < 20 ∧ (s.cluster c).kernel = none

/-- A device whose flow of a context and a peer is x, and whose list names no other for them. -/
def soleFlow (s : State) (i : Nat) (x : Flow) : Prop :=
  s.flows[i]? = some x ∧ ∀ y ∈ s.flows, y.ctx = x.ctx → y.peer = x.peer → y = x

end Sys2Proof.Says

/-- R336, R355 to R357, R369, R382: a corrected error is counted in its class and changes nothing else; an error beyond correction in
a context's state is recorded and ends its kernels, LOST being set where no checkpoint can be used, a write of its interval being
unlogged among the grounds, and RBK where one is, whose kernels then run; so does a supply trip in every active context; an unowned beat stays bad; an unowned error in the dispatch unit stops it, one in the
records of a partition that holds no kernel zeroes them, and one in a cluster that no kernel holds or left clears it, for at most 4,096
clocks, after which it is free again. -/
def Sys2Proof.Says.memoryErrors : Prop :=
  (∀ s die c, c ≤ 5 → exec (.correctedError die c) s = .next { s with memerr := Cells.put die { errors s die with
    cecnt := Cells.put c (if Cells.get 0 c (errors s die).cecnt = BitVec.allOnes 64 then BitVec.allOnes 64
      else Cells.get 0 c (errors s die).cecnt + 1) (errors s die).cecnt } s.memerr }) ∧
  (∀ s n g, exec (.scrubRow n g) s = .next s) ∧
  (∀ s die c k a, ∃ t, exec (.uncorrectableError die c k a) s = .next t ∧
    errors t die = errors (recorded s die c (some k) a) die ∧
    (((s.ctx k).ck.valid = false ∨ (s.ctx k).ck.ovf = true ∨ (s.ctx k).ck.short = true) → (t.ctx k).ck.lost = true ∧ emptied t k) ∧
    ((s.ctx k).ck.valid = true → (s.ctx k).ck.ovf = false → (s.ctx k).ck.short = false → (t.ctx k).ck.rbk = true ∧
      ∀ y ∈ (s.ctx k).ck.kernels, y.2.image.isSome = true → ∃ z, t.kernel y.1 = some z ∧ z.stage = .running)) ∧
  (∀ s, (∀ k < 16, (s.ctx k).ck.valid = false) → ∃ t, exec .supplyTrip s = .next t ∧
    ∀ k < 16, (s.ctx k).active = true → (t.ctx k).ck.lost = true ∧ emptied t k) ∧
  (∀ s, (∀ k < 16, (s.ctx k).active = false) → exec .ridarFlitFailure s = .next (recorded (recorded s 0 5 none 0) 1 5 none 0)) ∧
  (∀ s die c a, ∃ t, exec (.unownedError die c 2 a) s = .next t ∧ a / 64 ∈ t.badBeats ∧ t.hbm = s.hbm ∧ t.kernels = s.kernels ∧
    errors t die = errors (recorded s die c none a) die) ∧
  (∀ s die c a, ∃ t, exec (.unownedError die c 3 a) s = .next t ∧ t.stalled = true ∧ t.kernels = s.kernels) ∧
  (∀ s die c p, (s.core (p / 4)).kernel = none → ∃ t, exec (.unownedError die c 4 p) s = .next t ∧
    (t.part p).frec = [] ∧ (t.part p).snap = []) ∧
  (∀ s die c a, (∀ x ∈ s.kernels, x.2.stage = .preempted ∨ x.2.stage = .running ∨ x.2.stage = .stopping → a ∉ x.2.clusters) →
    ∃ t n, exec (.unownedError die c 0 a) s = .next t ∧ n < 4096 ∧ (t.cluster a).clearing = some (n + 1) ∧
      ∀ j < 16, (t.core (16 * a + j)).slice = Mem.zero) ∧
  (∀ s c, (s.cluster c).clearing = some 0 → exec (.clusterClearDone c) s = .next { s with
    clusters := Cells.put c { s.cluster c with clearing := none } s.clusters }) ∧
  (∀ s die v, exec (.uestatWrite die v) s = .next (if bit v 0 then { s with
    memerr := Cells.put die { errors s die with uestat := 0, ueaddr := 0 } s.memerr } else s)) ∧
  ∀ s k v, exec (.ckstWrite k v) s = .next (withCtx s k fun c => { c with ck := { c.ck with
    ovf := c.ck.ovf && !bit v 33, rbk := c.ck.rbk && !bit v 34, lost := c.ck.lost && !bit v 35 } })

/-- R359, R360: a request to retire a core position, a row or a cluster is accepted, and BUSY for 4,096 clocks, when no repair is under
way, the cluster is free, and the spare it asks for is unused (for a cluster, no pre-empted kernel left it), REPAIR then holding the
fields as they were written; else ERR is set. When its
time has run out the map has it, the repair record keeps it and interrupt 8 is raised. -/
def Sys2Proof.Says.repairRequests : Prop :=
  (∀ s c p, s.repair.asked = [] → exec (.retireCore c p) s = .next (if ¬ (s.repair.left ≠ none ∨ 20 ≤ c ∨ (s.cluster c).kernel ≠ none) ∧ p ≤ 16 ∧
    (s.cluster c).out = 16 then accepted s (1 + 2 ^ 3 * c + 2 ^ 8 * p) (1 + 2 ^ 3 * c + 2 ^ 8 * p) else turnedDown s)) ∧
  (∀ s c p v, s.repair.asked = [v] → v % 2 ^ 3 = 1 → fld v 3 5 = c → fld v 8 5 = p → repairable s c → p ≤ 16 →
    (s.cluster c).out = 16 → exec (.retireCore c p) s = .next (accepted s v (1 + 2 ^ 3 * c + 2 ^ 8 * p))) ∧
  (∀ s n b r, s.repair.asked = [] → exec (.retireRow n b r) s = .next (if ¬ (s.repair.left ≠ none ∨ 20 ≤ n / 16 ∨ (s.cluster (n / 16)).kernel ≠ none) ∧
    r ≤ 16 ∧ Cells.get 16 b (s.core n).outrow = 16
      then accepted s (2 + 2 ^ 13 * n + 2 ^ 22 * b + 2 ^ 25 * r) (2 + 2 ^ 13 * n + 2 ^ 22 * b + 2 ^ 25 * r) else turnedDown s)) ∧
  (∀ s c, s.repair.asked = [] → repairable s c → (∀ x ∈ s.kernels, x.2.stage = .preempted → c ∉ x.2.clusters) →
    exec (.retireCluster c) s = .next (accepted s (3 + 2 ^ 3 * c) (3 + 2 ^ 3 * c))) ∧
  (∀ s c, s.repair.asked = [] → (¬ repairable s c ∨ ∃ x ∈ s.kernels, x.2.stage = .preempted ∧ c ∈ x.2.clusters) →
    exec (.retireCluster c) s = .next (turnedDown s)) ∧
  ∀ s c, s.repair.left = some 0 → c < 2 ^ 5 →
    let ends := fun (w : Nat) (f : State → State) => s.repair.job = w → exec .repairComplete s = .next (rung 8
      { f s with repair := { s.repair with left := none }, amvin := { s.amvin with repair := s.amvin.repair ++ [w] } })
    (∀ p < 2 ^ 5, ends (1 + 2 ^ 3 * c + 2 ^ 8 * p) fun s => { s with
      clusters := Cells.put c { s.cluster c with out := p } s.clusters }) ∧
    (∀ n b r, n < 2 ^ 9 → b < 8 → r < 2 ^ 5 → ends (2 + 2 ^ 13 * n + 2 ^ 22 * b + 2 ^ 25 * r) fun s =>
      withCore s n fun x => { x with outrow := Cells.put b r x.outrow }) ∧
    ends (3 + 2 ^ 3 * c) fun s => { s with clusters := Cells.put c { s.cluster c with dead := true } s.clusters }

/-- R336, R355 to R357, R359, R360, R369, R382: memory errors, and the requests to repair.
The model's own choices in it: assumption logs 28, 42, 46, 83. -/
def Obligations.MemoryErrorsAndRepair : Prop := memoryErrors ∧ repairRequests

/-- R365, R366, R368: the frame next in its flow's sequence is delivered and acknowledged if its context is active, its group's mask
names the sender and a window takes it, a contribution to a collective only once it lands, and refused if not; an early one is held and
a duplicate dropped. An acknowledgement frees the
frames it covers and their commands go on, and a refusal is a translation fault of its command; a frame out of time is sent again, on its port unless four attempts have failed, and after
64 its flow is dead, as it is when the peer's end is. A changed protocol or plane takes a port down, and one that has a protocol trains and is counted, its
first training among them.
The model's own choices in it: assumption logs 20, 32, 38, 82, 102. -/
def Obligations.FabricFrames : Prop :=
  (∀ s f, f.seq < 2 ^ 32 → (s.flow f.ctx f.src).expect = f.seq → (s.flow f.ctx f.src).early = [] → (∀ y ∈ s.flows, y.owed = []) →
    (s.flows.filter fun y => y.ctx == f.ctx && y.peer == f.src).length ≤ 1 →
    let acks := fun (refused : Bool) (m : Mem) => ∃ t, exec (.frameReceive f) s = .next t ∧ t.hbm = m ∧
      (t.flow f.ctx f.src).expect = (f.seq + 1) % 2 ^ 32 ∧ t.acksOut = s.acksOut ++ [⟨f.ctx, f.src, f.seq, refused, []⟩]
    (∀ grp rank row, f.kind = .collective grp rank row → (s.ctx f.ctx).active = true → f.group = (s.ctx f.ctx).fgrp → f.group ≠ 255 →
      s.inGroup f.group f.src = true → (∃ w < 4, (Cells.get 0 w (s.ctx f.ctx).windows).getLsbD 63 = true ∧
        (Cells.get 0 w (s.ctx f.ctx).windows).getLsbD 57 = true) →
      ∃ t, exec (.frameReceive f) s = .next t ∧ t.hbm = s.hbm ∧ t.acksOut = s.acksOut ∧ t.gathers = s.gathers ++
        [⟨f.ctx, grp, rank, f.addr % 2 ^ 11, row, f.addr / 2 ^ 11, f.data, some (f.src, f.seq)⟩]) ∧
    (f.kind = .write →
      ((s.ctx f.ctx).active = true → f.group = (s.ctx f.ctx).fgrp → f.group ≠ 255 → s.inGroup f.group f.src = true →
        (∃ w < 4, windowTakes (Cells.get 0 w (s.ctx f.ctx).windows) f = true) → unkept s →
        s.heldAt .hbm f.addr f.data.length = false →
        acks false (s.hbm.writeBytes f.addr f.data)) ∧
      (((s.ctx f.ctx).active = false ∨ (f.group ≠ 255 ∧ (f.group ≠ (s.ctx f.ctx).fgrp ∨ s.inGroup f.group f.src = false)) ∨
          (f.group ≠ 255 ∧ ∀ w < 4, windowTakes (Cells.get 0 w (s.ctx f.ctx).windows) f = false)) → acks true s.hbm))) ∧
  (∀ s f d, f.seq < 2 ^ 32 → (s.flow f.ctx f.src).expect < 2 ^ 32 → d = (f.seq + 2 ^ 32 - (s.flow f.ctx f.src).expect) % 2 ^ 32 →
    (2 ^ 31 ≤ d → exec (.frameReceive f) s = .next s) ∧
    (0 < d → d < 2 ^ 31 → (∀ g ∈ (s.flow f.ctx f.src).early, g.seq ≠ f.seq) → ∃ t, exec (.frameReceive f) s = .next t ∧
      t.hbm = s.hbm ∧ t.acksOut = s.acksOut ∧ (t.flow f.ctx f.src).early = (s.flow f.ctx f.src).early ++ [f])) ∧
  (∀ s i x seq, soleFlow s i x → ∃ t, exec (.frameAckReceive i seq false) s = .next t ∧
    (t.flow x.ctx x.peer).out = x.out.filter (fun o => !decide ((seq + 2 ^ 32 - o.frame.seq) % 2 ^ 32 < 2 ^ 31)) ∧
    ∀ o ∈ x.out, (seq + 2 ^ 32 - o.frame.seq) % 2 ^ 32 < 2 ^ 31 → (∀ g r w, o.frame.kind ≠ .collective g r w) →
      ∀ p id, o.cmd = some (p, id) → ∀ c ∈ (t.part p).cmds, c.id = id → c.sent = 2) ∧
  (∀ s i x o p id c, soleFlow s i x → x.out = [o] → o.cmd = some (p, id) → s.cmd p id = some c → c.gpi = p →
    ∃ t e f, exec (.frameAckReceive i o.frame.seq true) s = .next t ∧ t.cmd p id = some e ∧ e.fault = some f ∧ f.cause = 0x20) ∧
  (∀ s i x, soleFlow s i x → ((∃ o ∈ x.out, o.left = 0 ∧ 64 ≤ o.tries) ∨ ∀ o ∈ x.out, o.left ≠ 0) → ∃ t, exec (.frameResend i) s = .next t ∧
    (t.flow x.ctx x.peer).dead = true ∧ (t.flow x.ctx x.peer).out = [] ∧
    (x.ctx < 16 → (s.ctx x.ctx).ck.valid = false → emptied t x.ctx)) ∧
  (∀ s i x o, soleFlow s i x → x.out = [o] → o.left = 0 → o.tries < 64 → o.tries % 4 ≠ 0 →
    ∃ t, exec (.frameResend i) s = .next t ∧ (t.flow x.ctx x.peer).out =
      [{ o with tries := o.tries + 1, left := max 4096 (s.ctx x.ctx).peerlat / 2 }]) ∧
  (∀ s who p v, ¬ owns s who 3 → exec (.pcfgWrite who p v) s = .next s) ∧
  (∀ s who p v g, owns s who 3 → g = (Cells.get 0 p s.pcfg).toNat → v % 4 ≠ 3 → ∃ w : W64,
    exec (.pcfgWrite who p v) s = .next { s with pcfg := Cells.put p w s.pcfg } ∧ fld w.toNat 0 2 = v % 4 ∧
      fld w.toNat 2 2 = fld v 2 2 ∧ bit w.toNat 4 = (bit g 4 && decide (v % 4 = g % 4 ∧ fld v 2 2 = fld g 2 2))) ∧
  ∀ s p g, g = (Cells.get 0 p s.pcfg).toNat →
    (g % 4 = 0 → exec (.portRetrain p) s = .next s) ∧
    (g % 4 ≠ 0 → ∃ w : W64, exec (.portRetrain p) s = .next { s with pcfg := Cells.put p w s.pcfg } ∧ bit w.toNat 4 = true ∧
      fld w.toNat 0 4 = fld g 0 4 ∧ fld w.toNat 8 8 = min 255 (fld g 8 8 + 1))

/-- R363, R370 to R373, R375 to R377, R379: a request outside a session, or before the first image is verified, does nothing, a read in
one returns the register, in recovery state of semaphore 0 and the mailbox alone; measurements are answered with their signature; a lease is granted,
renewed or refused, released by its owner and ended with interrupt 7; the mailbox commands and a limit are taken from the holders of
semaphores 0 and 2 and from no one else; a route written with EN sends what was held.
The model's own choices in it: assumption logs 30, 43, 45, 103, 106. -/
def Obligations.ManagementAndInterrupts : Prop :=
  (∀ s p w a v, exec (.mgmtRequest p false w a v) s = .next s) ∧
  (∀ s p e w a v, s.amvin.boot = .off → exec (.mgmtRequest p e w a v) s = .next s ∧ exec (.getMeasurements p) s = .next s) ∧
  (∀ s p a v, (s.amvin.boot = .running ∨ (s.amvin.boot = .recovery ∧
      (a = 0xFF00000030000 ∨ (0xFF00000080000 ≤ a ∧ a < 0xFF00000081000)))) → 0xFF00000000000 ≤ a → a < 2 ^ 52 → a % 8 = 0 →
    exec (.mgmtRequest p true false a v) s = .next { s with mgmtOut := Cells.put p (s.regValue a) s.mgmtOut } ∧
    exec (.mgmtRequest p true true a v) s = .next { s with agenda := ⟨0, .registerWrite (p + 1) a v⟩ :: s.agenda }) ∧
  (∀ s who k n m, m = Cells.get ⟨0, 0, false⟩ k s.msem →
    exec (.msemAcquire who k n) s = .next { s with msem := Cells.put k (if n ≠ 0 ∧ (m.owner = 0 ∨ m.owner = who)
      then { m with owner := who, lease := n * 2 ^ 20 } else { m with err := true }) s.msem } ∧
    exec (.msemRelease who k) s = .next (if m.owner = who then
      { s with msem := Cells.put k { m with owner := 0, lease := 0 } s.msem } else s) ∧
    (m.owner ≠ 0 → m.lease = 0 → exec (.leaseExpiry k) s = .next (rung 7
      { s with msem := Cells.put k { m with owner := 0 } s.msem }))) ∧
  (∀ s who n, ¬ owns s who 0 → ∀ i ∈ [Instr.mailboxWriteFlashBlock who n, .mailboxReadFlashBlock who n,
    .mailboxReadMeasurement who n, .mailboxAdvanceCounter who], exec i s = .next s) ∧
  (∀ s who n, owns s who 0 →
    let does := fun (i : Instr) (f : Amvin → Amvin) => exec i s = .next (rung 9 { s with amvin := f s.amvin })
    does (.mailboxWriteFlashBlock who n) (fun a => { a with flash := a.flash.writeBytes (4096 * n) (a.mailbox.bytes 0 4096) }) ∧
    does (.mailboxReadFlashBlock who n) (fun a => { a with mailbox := a.mailbox.writeBytes 0 (a.flash.bytes (4096 * n) 4096) }) ∧
    does (.mailboxReadMeasurement who n) (fun a => { a with
      mailbox := a.mailbox.writeBytes 0 (Cells.get (List.replicate 48 0) n a.meas) }) ∧
    does (.mailboxAdvanceCounter who) (fun a => { a with counter := BitVec.ofNat 64 (max a.counter.toNat a.svn) })) ∧
  (∀ s p, s.amvin.boot ≠ .off → exec (.getMeasurements p) s = .next { s with
    mgmtOut := Cells.put p (joinBytes (s.amvin.meas.flatMap Prod.snd)) s.mgmtOut,
    mgmtSig := Cells.put p (Config.spdmSign s.amvin.devKey (s.amvin.meas.flatMap Prod.snd)) s.mgmtSig }) ∧
  (∀ s who c v, (¬ owns s who 2 → exec (.glimitWrite who c v) s = .next s) ∧
    (owns s who 2 → (s.cluster c).kernel = none → exec (.glimitWrite who c v) s = .next { s with
      clusters := Cells.put c { s.cluster c with glimit := v % 2 ^ 16, limit := v % 2 ^ 16 } s.clusters })) ∧
  ∀ s i v, (bit v 16 = false ∨ i ∉ s.irqHeld → exec (.irouteWrite i v) s = .next { s with
      iroute := Cells.put i (BitVec.ofNat 64 (v % 2 ^ 17)) s.iroute }) ∧
    (bit v 16 = true → i ∈ s.irqHeld → exec (.irouteWrite i v) s = .next { s with
      iroute := Cells.put i (BitVec.ofNat 64 (v % 2 ^ 17)) s.iroute, irqHeld := s.irqHeld.filter (fun j => j != i),
      irqSent := s.irqSent ++ [(fld v 0 5, fld v 5 11)] })

/-- R282, R287, R327, R361, R369, R373: an offset that no block lists ignores a write, and the plain base registers take their field; an access by a
released hart at device memory reads it, writes it, or operates on it, a store-conditional only under its reservation; an access to
registers of another size than 8 bytes, or to nothing, faults the hart, and a load of a beat beyond correction faults it with the
hardware-error cause; a store of a hart to a peer goes out in a frame and is made when it is acknowledged, and a FENCE that orders peer
accesses waits for the acknowledgements of its hart's; storage writes device memory and nothing else, and nothing before the first image is verified.
The model's own choices in it: assumption logs 38, 39, 40, 41. -/
def Obligations.RegistersHartsAndStorage : Prop :=
  (∀ s who a v, regOf a = none → exec (.registerWrite who a v) s = .next s) ∧
  (∀ s who v, exec (.registerWrite who 0xFF00000000000 v) s = .next { s with ctxbase := BitVec.ofNat 64 (fld v 6 46 * 2 ^ 6) } ∧
    exec (.registerWrite who 0xFF00000000008 v) s = .next { s with qtbase := BitVec.ofNat 64 (fld v 5 47 * 2 ^ 5) }) ∧
  (∀ s who k v, k < 16 →
    exec (.registerWrite who (0xFF00001016200 + 8 * k) v) s = .next (withCtx s k fun c => { c with
      ckbase := BitVec.ofNat 64 (fld v 38 14 * 2 ^ 38) }) ∧
    exec (.registerWrite who (0xFF00001016300 + 8 * k) v) s = .next (withCtx s k fun c => { c with
      logbase := BitVec.ofNat 64 (fld v 12 40 * 2 ^ 12) })) ∧
  (∀ s h a, exec (.hartRegisterAccessFault h a) s = .next { s with hartErr := Cells.put h (a, false) s.hartErr }) ∧
  (∀ s h x d a t, s.amvin.released = true → s.allPosted = [] → s.hartReads h = false → x.op = .store →
    x.pa = 0x8000000000000 + 0x6000000000 * d + a → 0 < x.size → a + x.size ≤ 0x6000000000 → x.pa < 0xE000000000000 →
    ({ s with hartGate := Cells.del h s.hartGate } : State).sendFrame 16 d .write a (splitBytes x.v x.size) none none (some (h, .store)) = some t →
    exec (.hartMemoryAccess h x) s = .next t) ∧
  (∀ s i x o h, soleFlow s i x → x.out = [o] → o.hart = some (h, .store) → o.post = none → o.cmd = none → o.frame.data ≠ [] →
    ∃ t, exec (.frameAckReceive i o.frame.seq false) s = .next t ∧ (t.flow x.ctx x.peer).out = [] ∧
      t.mem (.peer o.frame.dst) = (s.mem (.peer o.frame.dst)).writeBytes o.frame.addr o.frame.data) ∧
  (∀ s h x pr pw peer sr sw, s.amvin.released = true → s.allPosted = [] → s.hartReads h = false → x.op = .fence pr pw peer sr sw →
    let waits := peer = true ∧ ∃ f ∈ s.flows, ∃ o ∈ f.out, ∃ op, o.hart = some (h, op)
    (waits → ∃ t, exec (.hartMemoryAccess h x) s = .next t ∧ (s.clock + 1, .hartMemoryAccess h x) ∈ t.inbox ∧
      t.hbm = s.hbm ∧ t.peers = s.peers ∧ t.hartOut = s.hartOut) ∧
    (¬ waits → exec (.hartMemoryAccess h x) s = .next { s with hartGate := Cells.del h s.hartGate })) ∧
  (∀ s h x, s.amvin.released = true → s.allPosted = [] → s.hartReads h = false → (∀ p u sr sw i, x.op ≠ .fence p u sr sw i) → x.op ≠ .fenceI →
    (0x6000000000 ≤ x.pa ∧ x.pa < 0x8000000000000 ∨ 0xFF00000000000 ≤ x.pa ∧ x.pa < 2 ^ 52 ∧ x.size ≠ 8 →
      ∃ t, exec (.hartMemoryAccess h x) s = .next t ∧ t.hbm = s.hbm ∧ ⟨0, .hartRegisterAccessFault h x.pa⟩ ∈ t.agenda) ∧
    (x.pa + x.size ≤ 0x6000000000 → 0 < x.size → x.op = .load → s.heldAt .hbm x.pa x.size = false → s.meetsBad x.pa x.size = true →
      ∃ t, exec (.hartMemoryAccess h x) s = .next t ∧ t.hbm = s.hbm ∧ Cells.get (0, false) h t.hartErr = (x.pa, true)) ∧
    (x.pa + x.size ≤ 0x6000000000 → 0 < x.size → s.heldAt .hbm x.pa x.size = false → s.meetsBad x.pa x.size = false → unkept s →
      let does := fun (m : Mem) (out : Option Nat) => ∃ t, exec (.hartMemoryAccess h x) s = .next t ∧ t.hbm = m ∧
        ∀ v, out = some v → Cells.get 0 h t.hartOut = v
      let old := s.hbm.readN x.pa x.size
      (x.op = .load → does s.hbm (some old)) ∧ (x.op = .loadReserved → does s.hbm (some old)) ∧
      (x.op = .store → does (s.hbm.writeN x.pa x.size x.v) none) ∧
      (x.op = .storeConditional → Cells.has h s.resv = true → Cells.get 0 h s.resv = x.pa / 64 →
        does (s.hbm.writeN x.pa x.size x.v) (some 0)) ∧
      (x.op = .storeConditional → Cells.has h s.resv = false → does s.hbm (some 1)) ∧
      ∀ o, x.op = .amo o → does (s.hbm.writeN x.pa x.size (atomicNew o (8 * x.size) old x.v)) (some old))) ∧
  ∀ s a v, (∀ w, w = false ∨ 0x6000000000 < a + 8 ∨ s.amvin.boot = .off → exec (.storageDmaAccess w a v) s = .next s) ∧
    (a + 8 ≤ 0x6000000000 → s.amvin.boot ≠ .off → unkept s →
      ∃ t, exec (.storageDmaAccess true a v) s = .next t ∧ t.hbm = s.hbm.writeN a 8 v ∧ t.cores = s.cores)

/-- R20, R343, R375, R377 to R381: boot releases the harts, measures each image, maps the rows that banks need replaced and leaves every memory zero when all three images are
accepted, and an image refused leaves recovery state; a device reset empties every register and keeps the memories; the governor takes
in each core's charge and freezes those over their limit, in lockstep mode with their cluster; the thermal alarm halves the limits.
The model's own choices in it: assumption logs 31, 34, 107. -/
def Obligations.BootResetAndGovernor : Prop :=
  (∀ s a, a = ({ s.amvin with boot := .recovery, meas := [], mailbox := Mem.zero, svn := 0, released := false } : Amvin) →
    (a.accepts 1 = true → a.accepts 2 = true → a.accepts 3 = true →
      ∃ t, exec .powerOnBoot s = .next t ∧ t.amvin.boot = .running ∧ t.amvin.released = true ∧ t.hbm = Mem.zero ∧
        t.kernels = [] ∧ t.ctxen = 0 ∧ (∀ n, (t.core n).slice = Mem.zero) ∧
        t.remap = a.worn.filter (fun b => decide (b.2.length ≤ 8)) ∧
        ∀ y ∈ [1, 2, 3], Cells.get [] y t.amvin.meas = Config.sha384 (a.imageHeader y ++ a.imageBody y)) ∧
    ((∃ y ∈ [1, 2, 3], a.accepts y = false) → ∃ t, exec .powerOnBoot s = .next t ∧ t.amvin.boot = .recovery ∧
      t.amvin.released = false) ∧
    ∀ y, bytesAt (a.imageHeader y) 0 4 ≠ 0x4D414750 ∨ bytesAt (a.imageHeader y) 8 4 < a.counter.toNat ∨
      Config.lmsOk (headerField (a.imageHeader y) 0xA8 56) (headerField (a.imageHeader y) 0 256)
        (headerField (a.imageHeader y) 0x200 3584) = false ∨
      Config.ecdsaOk (headerField (a.imageHeader y) 0x40 97) (Config.sha384 (headerField (a.imageHeader y) 0 256))
        (headerField (a.imageHeader y) 0x100 96) = false → a.accepts y = false) ∧
  (∀ s, ∃ t, exec .deviceReset s = .next t ∧ t.hbm = s.hbm ∧ t.kernels = [] ∧ t.parts = [] ∧ t.ctxen = 0 ∧ t.ctxbase = 0 ∧
    t.flows = [] ∧ t.msem = [] ∧ t.iroute = [] ∧ t.amvin = s.amvin ∧
    ((s.cores.map Prod.fst).Nodup → ∀ n, (t.core n).slice = (s.core n).slice ∧ (t.core n).pend = [] ∧ (t.core n).stop = none)) ∧
  (∀ s, ∃ t, exec .governorClock s = .next t ∧ t.cores.map Prod.fst = s.cores.map Prod.fst ∧
    let w := fun (c : Core) => ((if c.frozen then 0 else c.charge) :: c.window).take 64
    let hot := fun (n : Nat) => ∃ d, (n, d) ∈ s.cores ∧ (s.cluster (n / 16)).limit / (if s.alarm then 2 else 1) < (w d).sum
    ∀ n x, (n, x) ∈ t.cores → ∃ c, (n, c) ∈ s.cores ∧ x.window = w c ∧ x.charge = 0 ∧ x.pend = c.pend ∧
      (x.frozen = true ↔ hot n ∨ (c.lock = true ∧ ∃ m, m / 16 = n / 16 ∧ hot m))) ∧
  (∀ s, exec .thermalAlarmEnd s = .next { s with alarm := false }) ∧
  ∀ s, (∀ k < 16, (s.ctx k).active = true → (s.ctx k).lock = false) →
    exec .thermalAlarmBegin s = .next (rung 5 { s with alarm := true })

/-! ### Bundles, words and steps -/

namespace Sys2Proof.Says

open Sys2Proof Sys2Proof.Machine

/-- The offset in the scratchpad of partition p's program counter (R22). -/
abbrev place (s : State) (p : Nat) : Nat := 2 ^ 17 * b2n (s.part p).half + (s.part p).pc

/-- The bundle there, bundle bit 0 in bit 0 of the lowest byte (R8). -/
abbrev bundle (s : State) (p : Nat) : W128 := BitVec.ofNat 128 ((s.core (p / 4)).imem.readN (place s p) 16)

/-- No write has replaced the bundle there since the partition last fenced (R152). -/
def fresh (s : State) (p : Nat) : Prop := ∀ e ∈ (s.part p).stale, e.1 ≠ place s p

/-- The word of slot k of a bundle (R63). -/
abbrev wordOf (w : W128) (k : Nat) : Nat := fld w.toNat (32 * k) 32

/-- The form field F (R62). -/
abbrev form (w : W128) : Nat := fld w.toNat 30 2

/-- A compact bundle's reference i, and its enable (R74). -/
abbrev reference (w : W128) (i : Nat) : Nat := fld w.toNat (if i = 0 then 0 else 16 * i + 16) 16
abbrev refEnabled (w : W128) (i : Nat) : Bool := bit w.toNat (23 + i)

/-- Slots 1 to 3 of a bundle execute: no predicate block covers it, or its predicate reads as its pattern bit (R83, R84). -/
def guards (s : State) (p : Nat) : Bool :=
  decide ((s.part p).pblk.rem = 0) || (s.part p).preds.getLsbD (s.part p).pblk.pred == bit (s.part p).pblk.pat 0

/-- The end bundle of a covered bundle's loop levels would loop back (R85, R139): the levels that end here, inner first, have one
with passes left. -/
def again (s : State) (p : Nat) : Prop :=
  ∃ a l b, (s.part p).loops = a ++ l :: b ∧ (∀ x ∈ a, x.stop = (s.part p).pc ∧ x.remaining ≤ 1) ∧
    l.stop = (s.part p).pc ∧ 1 < l.remaining

/-- The control-word table entry that reference i of a compact bundle names (R74, R77). -/
abbrev entry (s : State) (p : Nat) (w : W128) (i : Nat) : Nat :=
  (Cells.get 0 (reference w i / 128) (s.core (p / 4)).cwt).toNat

/-- Entry e of the table can be used under offset k, and its word, offset, is x: each offset register number is one of its file, and the
entry is valid, with its reserved bits 0 and its ports, width, extension, RO and CO as R77 and R78 allow them. -/
def usableEntry (e k x : Nat) : Prop := offsetWord (fld e 32 2) e k = some x ∧ entryOk (fld e 32 2) e x = true

/-- A staged word is the one that entry e stands for under offset k, in the slot that the entry names (R76, R77). -/
def standsFor (e k : Nat) (r : RawSlot) : Prop :=
  r.slot = fld e 32 2 ∧ usableEntry e k r.word ∧ r.wcode = fld e 38 2 ∧ r.vp = fld e 46 2 ∧ r.sp = fld e 48 3 ∧
    r.mod = ⟨decide (fld e 32 2 ≠ 0), fld e 40 6, 0, (if bit e 51 then some (rmOf (fld e 52 3)) else none),
      (if bit e 55 then some (fld e 56 4) else none), fld e 64 192, true⟩

/-- The references of a group are in order: the reserved bits and the disabled references are 0, each enabled one names an entry that can
be used, and no two name entries of one slot (R74, R76, R78). -/
def orderly (s : State) (p : Nat) (w : W128) (is : List Nat) : Prop :=
  fld w.toNat 16 7 = 0 ∧ (∀ i ∈ is, refEnabled w i = false → reference w i = 0) ∧
    (∀ i ∈ is, refEnabled w i = true → ∃ x, usableEntry (entry s p w i) (reference w i % 128) x) ∧
    ∀ i ∈ is, ∀ j ∈ is, refEnabled w i = true → refEnabled w j = true → i ≠ j →
      fld (entry s p w i) 32 2 ≠ fld (entry s p w j) 32 2

/-- What is staged, and marked, of a compact bundle's references of one group: where they are in order, the words that the enabled ones
stand for, in slot order, and no mark; else a mark of the illegal-encoding cause. -/
def stages (s : State) (p : Nat) (w : W128) (is : List Nat) (rs : List RawSlot) (ms : List Mark) : Prop :=
  (orderly s p w is → ms = [] ∧ (rs.map RawSlot.slot).Pairwise (· < ·) ∧
    (∀ i ∈ is, refEnabled w i = true → ∃ r ∈ rs, standsFor (entry s p w i) (reference w i % 128) r) ∧
    ∀ r ∈ rs, ∃ i ∈ is, refEnabled w i = true ∧ standsFor (entry s p w i) (reference w i % 128) r) ∧
  (¬ orderly s p w is → ∃ m ∈ ms, m.cause = 0x02)

/-- The queues that an instruction reads, in the order in which it reads them: whether a vector queue, its number, and whether the read
peeks (R30). ACDRN and the engine commands pop their argument words from one queue (R217, R238). -/
noncomputable def operands : Instr → List (Bool × Nat × Bool)
  | .mov _ a k | .movQ _ a k | .fabs _ a k | .fabsQ _ a k | .fneg _ a k | .fnegQ _ a k | .clz _ a k | .clzQ _ a k | .ctz _ a k
  | .ctzQ _ a k | .popc _ a k | .popcQ _ a k | .jrl _ a k | .tfind _ a k | .addi _ a k _ | .addiQ _ a k _ | .fsqrt _ a k _
  | .fsqrtQ _ a k _ | .cvtif _ a k _ | .cvtifQ _ a k _ | .cvtuf _ a k _ | .cvtufQ _ a k _ | .cvtwf _ a k _ | .cvtwfQ _ a k _
  | .cvtfi _ a k _ | .cvtfiQ _ a k _ | .cvtfu _ a k _ | .cvtfuQ _ a k _ | .cvtfw _ a k _ | .cvtfwQ _ a k _ | .cvtfwu _ a k _
  | .cvtfwuQ _ a k _ | .ceqi _ a k _ | .ceqiQ _ a k _ | .cnei _ a k _ | .cneiQ _ a k _ | .clti _ a k _ | .cltiQ _ a k _
  | .cltui _ a k _ | .cltuiQ _ a k _ | .shli _ a _ k _ | .shliQ _ a _ k _ | .shri _ a _ k _ | .shriQ _ a _ k _ | .srai _ a _ k _
  | .sraiQ _ a _ k _ | .jr a k | .pcwset a k | .pcwmem a k | .gsset a k | .twany a k | .twall a k | .tclr a k | .crset a k _
  | .vrng _ a k _ | .vsplat _ a k _ | .mpset _ a k | .mpadd _ a k | .scld _ a k => [(false, a, k)]
  | .add _ a b k m | .addQ _ a b k m | .sub _ a b k m | .subQ _ a b k m | .and _ a b k m | .andQ _ a b k m | .or _ a b k m
  | .orQ _ a b k m | .xor _ a b k m | .xorQ _ a b k m | .andn _ a b k m | .andnQ _ a b k m | .shl _ a b k m | .shlQ _ a b k m
  | .shr _ a b k m | .shrQ _ a b k m | .sra _ a b k m | .sraQ _ a b k m | .min _ a b k m | .minQ _ a b k m | .max _ a b k m
  | .maxQ _ a b k m | .minu _ a b k m | .minuQ _ a b k m | .maxu _ a b k m | .maxuQ _ a b k m | .addss _ a b k m
  | .addssQ _ a b k m | .subss _ a b k m | .subssQ _ a b k m | .mul _ a b k m | .mulQ _ a b k m | .mulh _ a b k m
  | .mulhQ _ a b k m | .mulhu _ a b k m | .mulhuQ _ a b k m | .fmin _ a b k m | .fminQ _ a b k m | .fmax _ a b k m
  | .fmaxQ _ a b k m | .feq _ a b k m | .feqQ _ a b k m | .flt _ a b k m | .fltQ _ a b k m | .fle _ a b k m | .fleQ _ a b k m
  | .funord _ a b k m | .funordQ _ a b k m | .ceq _ a b k m | .ceqQ _ a b k m | .cne _ a b k m | .cneQ _ a b k m
  | .clt _ a b k m | .cltQ _ a b k m | .cle _ a b k m | .cleQ _ a b k m | .cltu _ a b k m | .cltuQ _ a b k m | .cleu _ a b k m
  | .cleuQ _ a b k m | .fadd _ a b k m _ | .faddQ _ a b k m _ | .fsub _ a b k m _ | .fsubQ _ a b k m _ | .fmul _ a b k m _
  | .fmulQ _ a b k m _ | .fdiv _ a b k m _ | .fdivQ _ a b k m _ | .sel _ a b k m _ | .selQ _ a b k m _ | .addx _ a b k m _
  | .addxQ _ a b k m _ | .subx _ a b k m _ | .subxQ _ a b k m _ => [(false, a, k), (false, b, m)]
  | .loopQ k q _ => [(false, q, k)]
  | .vadd _ a b k m _ | .vsub _ a b k m _ | .vmul _ a b k m _ | .vmin _ a b k m _ | .vmax _ a b k m _ | .vadds _ a b k m _
  | .vsubs _ a b k m _ | .vmulhi _ a b k m _ | .vfadd _ a b k m _ | .vfsub _ a b k m _ | .vfmul _ a b k m _ | .vfmin _ a b k m _
  | .vfmax _ a b k m _ | .vand _ a b k m | .vor _ a b k m | .vxor _ a b k m | .vandn _ a b k m | .vpermt _ a b k m
  | .vlmul _ a b k m | .vldiv _ a b k m | .vladd _ a b k m | .vlsub _ a b k m | .vshl _ a b k m _ | .vshr _ a b k m _
  | .vsra _ a b k m _ | .vperm _ a b k m _ | .vcmp _ a b k m _ _ | .vsel _ a b k m _ => [(true, a, k), (true, b, m)]
  | .vaddi _ a k _ _ | .vshli _ a k _ _ | .vsrai _ a k _ _ | .vfabs _ a k _ | .vfneg _ a k _ | .vnot _ a k | .vlsqrt _ a k
  | .vlneg _ a k | .vlabs _ a k | .vmov _ a k | .vred _ a _ k _ _ | .vmaxe a k _ _ | .vcvt _ a _ k _ | .vqnt _ a k _ _
  | .vcbx _ a _ k _ | .vcbn _ a _ k _ | .vct8 _ a _ k _ => [(true, a, k)]
  | .vfma d a b k m _ => [(true, a, k), (true, b, m), (true, d, false)]
  | .vcvtsr _ a b k m _ _ | .vtwr _ a b k m | .vtwrCvt _ a b k m _ | .vext _ a b k m _ => [(true, a, k), (false, b, m)]
  | .vtrd _ _ b m | .vtrdCvt _ _ b m _ | .vtcrCvt _ _ b m _ | .vacrd _ _ b m _ | .vtcr _ _ b m _ | .lds _ _ m b _ _
  | .ldv _ m b _ | .ldt _ m b _ _ | .stt _ m b _ _ => [(false, b, m)]
  | .sts d m b k _ _ => [(false, d, k), (false, b, m)]
  | .stv d m b k _ => [(true, d, k), (false, b, m)]
  | .natom q m b k _ _ _ => [(false, q, k), (false, b, m)]
  | .ncas q m b _ => [(false, q, false), (false, b, m)]
  | .fld _ _ _ _ q | .fst _ _ _ _ q | .cgath _ _ _ q | .ovld _ _ _ q => [(false, q, false), (false, q, false)]
  | .fatom _ _ _ _ q | .gath _ _ _ q | .scat _ _ _ q => [(false, q, false), (false, q, false), (false, q, false)]
  | .copy _ _ _ q | .mcst _ _ _ q | .txc _ _ _ q | .spawn _ _ _ q | .take _ _ _ q | .join _ _ _ q | .cbld _ _ _ q
  | .cwtld _ _ _ q | .mpsld _ _ _ q | .gtld _ _ _ q | .latld _ _ _ q => [(false, q, false)]
  | .acdrn _ _ _ w q => (false, q, false) :: (if w then [(false, q, false)] else [])
  | _ => []

/-- The reads of a list of queues each find an entry, and leave u. -/
def gets (s : State) : List (Bool × Nat × Bool) → State → Prop
  | [], u => u = s
  | (v, q, k) :: r, u => ∃ t, (if v = true then ∃ x, vsource s q k x t else ∃ x, source s q k x t) ∧ gets t r u

/-- The next read of a queue finds no entry (R30). -/
def lacks (s : State) (o : Bool × Nat × Bool) : Prop :=
  if o.1 = true then (Cells.get [] o.2.1 (me s).vq)[Cells.get 0 (32 + o.2.1) s.cur.taken]? = none
  else (Cells.get [] o.2.1 (me s).sq)[Cells.get 0 o.2.1 s.cur.taken]? = none

/-- The queue that a result pushes to, vector queue v counted as queue 32 + v. -/
def pushed : LandAct → Option Nat
  | .spush q _ => some q
  | .vpush v _ => some (32 + v)
  | _ => none

/-- What queue q holds beyond what the bundle in progress takes or clears, with every push to it in flight, captured, or of the bundle. -/
def filling (u : State) (q : Nat) : Nat :=
  (if u.cur.clears.contains q then 0
    else (if q < 32 then (Cells.get [] q (me u).sq).length else (Cells.get [] (q - 32) (me u).vq).length) - Cells.get 0 q u.cur.taken) +
  ((u.core (u.cur.gpi / 4)).pend.filter fun m => m.gpi == u.cur.gpi && pushed m.act == some q).length +
  ((me u).snap.filter fun e => pushed e.act == some q).length + (u.cur.out.filter fun m => pushed m.act == some q).length

/-- No check of the bundle in progress failed, no queue overflows, and it does not wait. -/
def clean (u : State) : Prop := u.cur.marks = [] ∧ u.overflowMarks = [] ∧ u.cur.wait = false

/-- The class of R86 of a cause: 1 the illegal bundle, 2 the illegal encoding, 3 the illegal sequence, 4 the operand faults. -/
def classOf (c : Nat) : Nat := if c = 1 then 1 else if c = 2 then 2 else if c = 3 then 3 else 4

/-- Mark m comes before mark n, or is like it, in the order of R86 and R320: a lower class, then a lower slot, then a lower code. -/
def before (m n : Mark) : Prop :=
  classOf m.cause < classOf n.cause ∨
    (classOf m.cause = classOf n.cause ∧ (m.slot < n.slot ∨ (m.slot = n.slot ∧ m.cause ≤ n.cause)))

end Sys2Proof.Says

/-- R62 to R64, R68, R69, R74 to R78, R83, R85, R152: the issue of the bundle at a partition's program counter, its bytes as they are or, not
yet fenced, as they were, stages the words of its form under the allotment of that form, and marks form 11 as no bundle, a header with
more vector ports than exist, and a covered bundle that would loop back, and no other. Group 2 of a compact bundle stages its other
references under group 1's guard. A group of references stages the words of its entries, offset, where all of them are in order, and else
is marked with the illegal-encoding cause.
The model's own choices in it: assumption logs 49, 58, 76. -/
def Obligations.BundlesAndGroupsIssue : Prop :=
  (∀ s p, ∃ c n w base ms, exec (.bundleIssue p) s = .next { s with cur := c, freeCtr := s.freeCtr + n } ∧
    (w = bundle s p ∨ (place s p, w) ∈ (s.part p).stale) ∧ (fresh s p → w = bundle s p ∧ n = 0) ∧
    c.core = p / 4 ∧ c.gpi = p ∧ c.word = w ∧ c.guard = guards s p ∧ c.covered = decide (0 < (s.part p).pblk.rem) ∧
    c.out = [] ∧ c.taken = [] ∧ c.clears = [] ∧ c.wait = false ∧ c.next = none ∧ c.ends = none ∧ c.marks = base ++ ms ∧
    (1 < (s.part p).pblk.rem → again s p → ms = [⟨0, 0x03, 0, 0⟩]) ∧ (¬ (1 < (s.part p).pblk.rem ∧ again s p) → ms = []) ∧
    (form w = 0 → base = [] ∧ c.staged = [⟨0, wordOf w 0, [], Mod.plain, 0, 0, 2⟩, ⟨1, wordOf w 1, [], Mod.plain, 0, 2, 1⟩,
      ⟨2, wordOf w 2, [], Mod.plain, 0, 1, 2⟩, ⟨3, wordOf w 3, [], Mod.plain, 0, 1, 1⟩]) ∧
    (form w = 1 →
      let h := wordOf w 0
      let sp := (([(2, 2, 2), (3, 2, 1), (1, 2, 3), (1, 1, 4)] : List (Nat × Nat × Nat))[fld h 6 2]?).getD (0, 0, 0)
      let mod := fun (x : Nat) => Machine.Mod.mk true (fld h x 6) 0 none none 0 false
      c.staged = [⟨1, wordOf w 1, [], mod 12, fld h 8 2, fld h 0 2, sp.1⟩, ⟨2, wordOf w 2, [], mod 18, 0, fld h 2 2, sp.2.1⟩,
        ⟨3, wordOf w 3, [], mod 24, fld h 10 2, fld h 4 2, sp.2.2⟩] ∧
      base = if 4 < fld h 0 2 + fld h 2 2 + fld h 4 2 then [⟨1, 0x02, 0, 0⟩, ⟨2, 0x02, 0, 0⟩, ⟨3, 0x02, 0, 0⟩] else []) ∧
    (form w = 2 → c.group = 1 ∧ stages s p w [0, 1, 2, 3] c.staged base) ∧
    (form w = 3 → c.staged = [] ∧ base = [⟨0, 0x01, 0, 0⟩])) ∧
  (∀ s p g, (s.part p).group2 = some g → ∃ c, exec (.compactGroup2Issue p) s = .next { s with cur := c } ∧
    c.core = p / 4 ∧ c.gpi = p ∧ c.word = g.word ∧ c.group = 2 ∧ c.guard = g.guard ∧ c.done = g.done ∧
    c.covered = decide (0 < (s.part p).pblk.rem) ∧ c.out = [] ∧ c.taken = [] ∧ c.clears = [] ∧ c.wait = false ∧ c.next = none ∧
    c.ends = none ∧ stages s p g.word [4, 5, 6] c.staged c.marks) ∧
  ∀ s p, (s.part p).group2 = none → exec (.compactGroup2Issue p) s = .next s

/-- R22, R26, R30, R75, R139, R144, R153, R156: a bundle that met no fault and does not wait commits: the entries it took leave their
queues, those it clears are emptied, its results are in flight, and its partition goes to the target of its transfer, or back to the
start of the loop that ends with it, or on past the levels whose last pass ends here. Group 1 of a compact bundle commits so with the
partition where it was and group 2 to issue. A TRAP in it leaves its code to be taken at the boundary, an ERET gives the program its
state back; a bundle that waits leaves everything as it was.
The model's own choices in it: assumption log 77. -/
def Obligations.BundlesCommitOrWait : Prop :=
  (∀ b u, u.cur.marks = [] → u.overflowMarks = [] → u.cur.wait = true →
    finishIssue b u = { b with cur := Cursor.empty, freeCtr := u.freeCtr }) ∧
  (∀ b u, clean u → u.cur.resume = true →
    finishIssue b u = eretCommit u.cur.core (finishIssue b { u with cur := { u.cur with resume := false } })) ∧
  ∀ b u p n x, p = u.cur.gpi → n = u.cur.core → x = u.part p → clean u → u.cur.resume = false → (u.cur.taken.map Prod.fst).Nodup →
    let t := finishIssue b u
    t.cur = Cursor.empty ∧ (t.core n).pend = (u.core n).pend ++ u.cur.out ∧ t.hbm = u.hbm ∧
    (∀ q, q ≠ p → t.part q = u.part q) ∧ (∀ m, m ≠ n → t.core m = u.core m) ∧
    (∀ q < 32, Cells.get [] q (t.part p).sq =
      if u.cur.clears.contains q then [] else (Cells.get [] q x.sq).drop (Cells.get 0 q u.cur.taken)) ∧
    (∀ q < 64, Cells.get [] q (t.part p).vq =
      if u.cur.clears.contains (32 + q) then [] else (Cells.get [] q x.vq).drop (Cells.get 0 (32 + q) u.cur.taken)) ∧
    (t.part p).tiles = x.tiles ∧ (t.part p).preds = x.preds ∧ (t.part p).flags = x.flags ∧
    (u.cur.trap = none → (t.part p).trapNow = x.trapNow) ∧
    (∀ c, u.cur.trap = some c → (t.part p).trapNow = some ⟨0x30, false, 0, 0xF, false, 0, c, (b.part p).pc, (b.part p).half, 0, 0, 0, 0, 0, 0⟩) ∧
    (u.cur.group = 1 → (t.part p).group2 = some ⟨u.cur.word, u.cur.guard, (u.cur.staged.map fun r => 2 ^ r.slot).sum⟩ ∧
      (t.part p).pc = x.pc ∧ (t.part p).half = x.half ∧ (t.part p).loops = x.loops ∧ (t.part p).pblk = x.pblk ∧
      (t.part p).run = x.run) ∧
    (u.cur.group ≠ 1 → (t.part p).group2 = none ∧ (t.part p).run = u.cur.ends.getD x.run ∧
      (∀ a, u.cur.next = some a → (t.part p).pc = a ∧ (t.part p).half = (x.half != u.cur.newHalf) ∧ (t.part p).loops = x.loops) ∧
      (u.cur.next = none → (t.part p).half = x.half ∧ ∀ a r, x.loops = a ++ r → (∀ y ∈ a, y.stop = x.pc ∧ y.remaining ≤ 1) →
        ((∀ l z, r = l :: z → l.stop ≠ x.pc) → (t.part p).pc = (x.pc + 16) % 2 ^ 17 ∧ (t.part p).loops = r) ∧
        ∀ l z, r = l :: z → l.stop = x.pc → 1 < l.remaining →
          (t.part p).pc = l.start ∧ (t.part p).loops = { l with remaining := l.remaining - 1 } :: z) ∧
      (u.cur.covered = true → (t.part p).pblk = { x.pblk with rem := x.pblk.rem - 1, pat := x.pblk.pat / 2 }) ∧
      (u.cur.covered = false → (t.part p).pblk = x.pblk))

/-- R30, R86, R318, R320, R326: an empty source of any instruction, after those before it, marks the underflow cause; a push for which
its scalar or vector queue has no room marks the overflow cause; and a bundle with a mark commits nothing and traps: its queues are as before, the fault record names the cause that is first in
the order of the checks, and the slots marked in its class.
The model's own choices in it: assumption logs 49, 70. -/
def Obligations.FaultingBundlesCommitNothing : Prop :=
  (∀ c ∈ [Instr.mov, Instr.movQ], ∀ s d a k, (Cells.get [] a (me s).sq)[Cells.get 0 a s.cur.taken]? = none →
    ∃ t, exec (c d a k) s = .next t ∧ t.cur.marks = s.cur.marks ++ [⟨s.cur.slot, 0x10, 0, 0⟩] ∧ t.cur.taken = s.cur.taken) ∧
  (∀ s i a o b u, operands i = a ++ o :: b → gets s a u → lacks u o →
    ∃ t, exec i s = .next t ∧ (⟨s.cur.slot, 0x10, 0, 0⟩ : Mark) ∈ t.cur.marks) ∧
  (∀ u q l, q < 96 → l ∈ u.cur.out → pushed l.act = some q → 4 < filling u q → (⟨l.slot, 0x11, 0, 0⟩ : Mark) ∈ u.overflowMarks) ∧
  ∀ b u p m, p = u.cur.gpi → m ∈ u.cur.marks ++ u.overflowMarks → (∀ x ∈ u.cur.marks ++ u.overflowMarks, before m x) →
    m.cause < 2 ^ 8 → (b.core (p / 4)).stop = none → p / 4 ∉ b.trpend →
    let t := finishIssue b u
    t.cur = Cursor.empty ∧ (t.part p).sq = (b.part p).sq ∧ (t.part p).vq = (b.part p).vq ∧ (t.part p).pc = (b.part p).pc ∧
    (t.part p).loops = (b.part p).loops ∧ t.hbm = b.hbm ∧ (∀ k, (t.core k).slice = (b.core k).slice) ∧
    halted { b with cur := Cursor.empty, freeCtr := u.freeCtr } t (p / 4) false ∧ t.trpend = p / 4 :: b.trpend ∧
    fld (record t p 0).toNat 0 8 = m.cause ∧
    (∀ k < 4, bit (fld (record t p 0).toNat 10 4) k = true ↔ ∃ x ∈ u.cur.marks ++ u.overflowMarks, x.slot = k ∧
      classOf x.cause = classOf m.cause) ∧
    record t p 1 = BitVec.ofNat 64 ((b.part p).pc + 2 ^ 17 * b2n (b.part p).half)

/-- A step runs the listed turn: what is no presentation of a bundle is the meaning itself, on a machine with no bundle in progress; a
plain bundle whose one word decodes to i is the meaning of i, run in slot 0 on the cursor of that bundle, and then the commit, the wait
or the trap of R86. With no turn listed the step lists the next phase of the clock (the model's own order, assumption log 1).
The model's own choices in it: assumption log 1. -/
def Obligations.StepRunsTheDecodedInstruction : Prop :=
  (∀ s n i r u, s.agenda = ⟨n, i⟩ :: r → (∀ p, i ≠ .bundleIssue p ∧ i ≠ .compactGroup2Issue p) →
    exec i { s with agenda := r, cur := { Cursor.empty with core := n } } = .next u →
    step s = .next { u with cur := Cursor.empty }) ∧
  (∀ s n p r w i b v, s.agenda = ⟨n, .bundleIssue p⟩ :: r → fresh s p → w = bundle s p → form w = 0 → wordOf w 1 = 0 →
    wordOf w 2 = 0 → wordOf w 3 = 0 → ¬ (1 < (s.part p).pblk.rem ∧ again s p) → decodeSlot 0 (wordOf w 0) = .ok i →
    exec (.bundleIssue p) { s with agenda := r } = .next b →
    exec i { b with cur := { b.cur with slot := 0, mod := Mod.plain } } = .next v →
    step s = .next (finishIssue b v)) ∧
  ∀ s, s.agenda = [] → step s = .next (nextPhase exec s)

/-! ### The words -/

/-- Words written out from the encodings of the spec decode to the instructions they stand for: of each family one or more, in its slot
class, and micro-words; and three words that R67 and R87 refuse. -/
def Obligations.DecodedWords : Prop :=
  (∀ e ∈ [(0x01304400, Instr.add 6 1 2 false false), (0x02084007, .addi 1 1 false 7), (0x03080005, .lui 1 0 5),
      (0x0428C800, .mul 5 3 4 false false), (0x10A80003, .brt 2 3), (0x15006002, .loop 3 2), (0x1760A800, .pblk 3 5 2),
      (0x18304000, .qcnt 6 1), (0x1F080009, .trap 9), (0x1F100000, .eret)], decodeSlot 0 e.1 = .ok e.2) ∧
  (∀ e ∈ [(0x04308100, Instr.addQ 3 2 1 false false), (0, .nop), (0x48200100, .vfadd 2 0 1 false false 0),
      (0x60030080, .vmaxe 12 true false 0), (0x68D30083, .vqnt 13 12 true false 3), (0x90510200, .vct8 5 4 2 false 0),
      (0x88204100, .vtrd 2 1 1 false)], decodeSlot 1 e.1 = .ok e.2 ∧ decodeSlot 3 e.1 = .ok e.2) ∧
  (∀ e ∈ [(0x04414003, Instr.lds false 4 false 5 0 3), (0x1030A007, .stv 3 false 2 true 7)], decodeSlot 2 e.1 = .ok e.2) ∧
  (∀ e ∈ [(0xA090C414, Instr.mcall 9 3 4 5), (0xC0C30CA2, .fld 12 12 12 5 2), (0xC43083A6, .fst 3 2 3 5 6),
      (0xDC00C001, .twall 3 false)], decodeSlot 3 e.1 = .ok e.2) ∧
  (∀ e ∈ [(0x17, Instr.uEnd), (0x13 + 2 ^ 12 + 20 * 2 ^ 80, .uLdec 1 20),
      (0x04 + 1 * 2 ^ 12 + 2 * 2 ^ 15 + 3 * 2 ^ 20 + 4 * 2 ^ 6 + 5 * 2 ^ 32, .uStrm 1 2 3 4 5)], decodeMicro e.1 = .ok e.2) ∧
  decodeSlot 0 0x0E000000 = .error .reservedMajor ∧ decodeSlot 1 0xA090C414 = .error .reservedMajor ∧
  decodeSlot 0 0x01000010 = .error .noEncoding ∧ decodeSlot 1 0x06000000 = .error .illFormed

/-- R63, R65, R67: every well-formed instruction of slot 0 reads back from the word that encodes it, at every value of its fields. -/
def Obligations.SlotZeroWordsReadBack : Prop :=
  ∀ i : Instr, i.WellFormed → i.slotOf = some 0 → decodeSlot 0 (joinWords (encode i)) = .ok i

/-- R65, R67, R220: so does every well-formed instruction of the other slots, those of slot 1 in slot 3 as well, and every
micro-operation. -/
def Obligations.OtherWordsReadBack : Prop :=
  ∀ i : Instr, i.WellFormed →
    (∀ k, 1 ≤ k → i.slotOf = some k → decodeSlot k (joinWords (encode i)) = .ok i) ∧
    (i.slotOf = some 1 → decodeSlot 3 (joinWords (encode i)) = .ok i) ∧
    ((encode i).length = 4 → decodeMicro (joinWords (encode i)) = .ok i)

/-- R67, R88, R220, R221: no bit of a word is ignored: a word that decodes in a slot is the one encoding of its instruction, and so is a
micro-word; what decodes keeps every rule of its fields. -/
def Obligations.NoBitOfAWordIsIgnored : Prop :=
  (∀ k w i, k < 4 → decodeSlot k w = .ok i → encode i = [w] ∧ i.WellFormed) ∧
  ∀ w i, decodeMicro w = .ok i → joinWords (encode i) = w ∧ i.WellFormed

/-! ### The whole machine -/

/-- R8: a number stored in n bytes reads back modulo 2^(8n), its least significant byte at the lowest address, whatever the address and
in whatever memory of the part; every other byte reads as before, and the memory keeps its canonical form. Of the 16 bytes of a bundle
slot k's word, bundle bits 32k to 32k + 31, is the 32-bit word k in memory. -/
def Obligations.StoredNumbersReadBack : Prop :=
  ∀ m : Mem, m.wf → ∀ a n v,
    (m.writeN a n v).wf ∧ (m.writeN a n v).readN a n = v % 2 ^ (8 * n) ∧
    (∀ i, i < n → (m.writeN a n v).read (a + i) = BitVec.ofNat 8 (v / 2 ^ (8 * i))) ∧
    (∀ b, (b < a ∨ a + n ≤ b) → (m.writeN a n v).read b = m.read b) ∧
    ∀ k, k < 4 → fld (m.readN a 16) (32 * k) 32 = m.readN (a + 4 * k) 4

/-- The model stops nowhere: every instruction, micro-operation and event answers a next state in every state, and so does a step
(the spec gives each an effect or leaves it a free value, which the log entries name). Between steps no bundle is in progress: a step
from a state that has none gives one that has none, so that a bundle that waits or faults holds no state (R86, R156).
The model's own choices in it: assumption logs 1, 2. -/
def Obligations.EveryStepAnswersWithNoBundleInProgress : Prop :=
  (∀ i s, ∃ t, exec i s = .next t) ∧ ∀ s, ∃ t, step s = .next t ∧ (Safety.idle s → Safety.idle t)

/-- Every step keeps every byte memory of the part (program memories, slices, side banks, device memory, peers' memories, flash and
mailbox, and those in the images of pre-empted kernels and of checkpoints) in its canonical form, from every state that has them in it: no entry stands
twice, none holds what its address reads as unlisted. So equal memories are equal data.
The model's own choices in it: assumption logs 2, 35, 85. -/
def Obligations.EveryStepKeepsTheMemoriesCanonical : Prop :=
  ∀ s t, Safety.memories s → step s = .next t → Safety.memories t

/-- R20, R22, R25, R60, R287, R288, R372, R379: what device reset leaves, as far as the spec gives it: empty queues and loop stacks,
no predicate block, zero predicates, masks, tags, flags, parameters, precision word and stream register, the scale latch and scale table at theirs,
partition 0 running and the others idle, no kernel held, no context active, every memory canonical, and no bundle in progress.
The model's own choices in it: assumption log 3. -/
def Obligations.ResetValues : Prop :=
  let s := State.reset
  Safety.idle s ∧ Safety.memories s ∧
  (∀ p, let x := s.part p
    x.run = (if p % 4 = 0 then .running else .idle) ∧ x.loops = [] ∧ x.pblk.rem = 0 ∧ x.preds = 0 ∧ x.tags = 0 ∧ x.flags = 0 ∧
    x.slatch = 0x7F ∧ x.pcw = 0 ∧ x.gstrm = 0 ∧ (∀ q, Cells.get [] q x.sq = [] ∧ Cells.get [] q x.vq = []) ∧
    (∀ k, Cells.get 0 k x.masks = 0 ∧ Cells.get 0 k x.mps = 0) ∧ x.cmds = [] ∧ x.tx = none ∧ x.snap = []) ∧
  (∀ n, let c := s.core n
    c.kernel = none ∧ c.cycle = 0 ∧ c.frz = 0 ∧ c.calls = [] ∧ c.pend = [] ∧ c.stop = none ∧
    (∀ k, Cells.get 0 k c.sema = 0) ∧ (∀ g, g < 4 → sctabOf c g = 0x7F007F007F007F00) ∧
    accstOf c 0 = 0 ∧ accstOf c 1 = 0 ∧ ∀ t r j, c.accCell t r j = ⟨0, false⟩) ∧
  (∀ k, (s.ctx k).active = false) ∧ s.ctxen = 0 ∧ s.ctxbase = 0 ∧ s.qtbase = 0 ∧ s.kernels = [] ∧
  (∀ c, (s.cluster c).glimit = 7680 ∧ (s.cluster c).tq = [] ∧ (s.cluster c).bars = []) ∧
  ∀ k, (s.sem k).owner = 0
end

