-- ==== Sys2Proof/Laws/State.lean ====
section
/-!
SUPPORT. What each named update of the state does to each of its fields.
-/

namespace Sys2Proof.Machine

/-! ### State.setPart -/

@[simp] theorem State.setPart_agenda (s : State) (p : Nat) (x : Part) : (s.setPart p x).agenda = s.agenda := rfl
@[simp] theorem State.setPart_phase (s : State) (p : Nat) (x : Part) : (s.setPart p x).phase = s.phase := rfl
@[simp] theorem State.setPart_phCore (s : State) (p : Nat) (x : Part) : (s.setPart p x).phCore = s.phCore := rfl
@[simp] theorem State.setPart_clock (s : State) (p : Nat) (x : Part) : (s.setPart p x).clock = s.clock := rfl
@[simp] theorem State.setPart_cur (s : State) (p : Nat) (x : Part) : (s.setPart p x).cur = s.cur := rfl
@[simp] theorem State.setPart_freeCtr (s : State) (p : Nat) (x : Part) : (s.setPart p x).freeCtr = s.freeCtr := rfl
@[simp] theorem State.setPart_nextId (s : State) (p : Nat) (x : Part) : (s.setPart p x).nextId = s.nextId := rfl
@[simp] theorem State.setPart_cores (s : State) (p : Nat) (x : Part) : (s.setPart p x).cores = s.cores := rfl
@[simp] theorem State.setPart_clusters (s : State) (p : Nat) (x : Part) : (s.setPart p x).clusters = s.clusters := rfl
@[simp] theorem State.setPart_kernels (s : State) (p : Nat) (x : Part) : (s.setPart p x).kernels = s.kernels := rfl
@[simp] theorem State.setPart_ctxs (s : State) (p : Nat) (x : Part) : (s.setPart p x).ctxs = s.ctxs := rfl
@[simp] theorem State.setPart_gathers (s : State) (p : Nat) (x : Part) : (s.setPart p x).gathers = s.gathers := rfl
@[simp] theorem State.setPart_hbm (s : State) (p : Nat) (x : Part) : (s.setPart p x).hbm = s.hbm := rfl
@[simp] theorem State.setPart_peers (s : State) (p : Nat) (x : Part) : (s.setPart p x).peers = s.peers := rfl
@[simp] theorem State.setPart_resv (s : State) (p : Nat) (x : Part) : (s.setPart p x).resv = s.resv := rfl
@[simp] theorem State.setPart_ctxbase (s : State) (p : Nat) (x : Part) : (s.setPart p x).ctxbase = s.ctxbase := rfl
@[simp] theorem State.setPart_qtbase (s : State) (p : Nat) (x : Part) : (s.setPart p x).qtbase = s.qtbase := rfl
@[simp] theorem State.setPart_ctxen (s : State) (p : Nat) (x : Part) : (s.setPart p x).ctxen = s.ctxen := rfl
@[simp] theorem State.setPart_ctxerr (s : State) (p : Nat) (x : Part) : (s.setPart p x).ctxerr = s.ctxerr := rfl
@[simp] theorem State.setPart_ctxovr (s : State) (p : Nat) (x : Part) : (s.setPart p x).ctxovr = s.ctxovr := rfl
@[simp] theorem State.setPart_queues (s : State) (p : Nat) (x : Part) : (s.setPart p x).queues = s.queues := rfl
@[simp] theorem State.setPart_stalled (s : State) (p : Nat) (x : Part) : (s.setPart p x).stalled = s.stalled := rfl
@[simp] theorem State.setPart_trpend (s : State) (p : Nat) (x : Part) : (s.setPart p x).trpend = s.trpend := rfl
@[simp] theorem State.setPart_tlbinv (s : State) (p : Nat) (x : Part) : (s.setPart p x).tlbinv = s.tlbinv := rfl
@[simp] theorem State.setPart_tlbJobs (s : State) (p : Nat) (x : Part) : (s.setPart p x).tlbJobs = s.tlbJobs := rfl
@[simp] theorem State.setPart_dieTlb (s : State) (p : Nat) (x : Part) : (s.setPart p x).dieTlb = s.dieTlb := rfl
@[simp] theorem State.setPart_walks (s : State) (p : Nat) (x : Part) : (s.setPart p x).walks = s.walks := rfl
@[simp] theorem State.setPart_repair (s : State) (p : Nat) (x : Part) : (s.setPart p x).repair = s.repair := rfl
@[simp] theorem State.setPart_remap (s : State) (p : Nat) (x : Part) : (s.setPart p x).remap = s.remap := rfl
@[simp] theorem State.setPart_devid (s : State) (p : Nat) (x : Part) : (s.setPart p x).devid = s.devid := rfl
@[simp] theorem State.setPart_fgbase (s : State) (p : Nat) (x : Part) : (s.setPart p x).fgbase = s.fgbase := rfl
@[simp] theorem State.setPart_pcfg (s : State) (p : Nat) (x : Part) : (s.setPart p x).pcfg = s.pcfg := rfl
@[simp] theorem State.setPart_flows (s : State) (p : Nat) (x : Part) : (s.setPart p x).flows = s.flows := rfl
@[simp] theorem State.setPart_msem (s : State) (p : Nat) (x : Part) : (s.setPart p x).msem = s.msem := rfl
@[simp] theorem State.setPart_memerr (s : State) (p : Nat) (x : Part) : (s.setPart p x).memerr = s.memerr := rfl
@[simp] theorem State.setPart_iroute (s : State) (p : Nat) (x : Part) : (s.setPart p x).iroute = s.iroute := rfl
@[simp] theorem State.setPart_irqHeld (s : State) (p : Nat) (x : Part) : (s.setPart p x).irqHeld = s.irqHeld := rfl
@[simp] theorem State.setPart_irqSent (s : State) (p : Nat) (x : Part) : (s.setPart p x).irqSent = s.irqSent := rfl
@[simp] theorem State.setPart_hartErr (s : State) (p : Nat) (x : Part) : (s.setPart p x).hartErr = s.hartErr := rfl
@[simp] theorem State.setPart_hartOut (s : State) (p : Nat) (x : Part) : (s.setPart p x).hartOut = s.hartOut := rfl
@[simp] theorem State.setPart_hartGate (s : State) (p : Nat) (x : Part) : (s.setPart p x).hartGate = s.hartGate := rfl
@[simp] theorem State.setPart_badBeats (s : State) (p : Nat) (x : Part) : (s.setPart p x).badBeats = s.badBeats := rfl
@[simp] theorem State.setPart_mgmtOut (s : State) (p : Nat) (x : Part) : (s.setPart p x).mgmtOut = s.mgmtOut := rfl
@[simp] theorem State.setPart_mgmtSig (s : State) (p : Nat) (x : Part) : (s.setPart p x).mgmtSig = s.mgmtSig := rfl
@[simp] theorem State.setPart_acksOut (s : State) (p : Nat) (x : Part) : (s.setPart p x).acksOut = s.acksOut := rfl
@[simp] theorem State.setPart_amvin (s : State) (p : Nat) (x : Part) : (s.setPart p x).amvin = s.amvin := rfl
@[simp] theorem State.setPart_alarm (s : State) (p : Nat) (x : Part) : (s.setPart p x).alarm = s.alarm := rfl
@[simp] theorem State.setPart_inbox (s : State) (p : Nat) (x : Part) : (s.setPart p x).inbox = s.inbox := rfl

/-! ### State.setCore -/

@[simp] theorem State.setCore_agenda (s : State) (n : Nat) (x : Core) : (s.setCore n x).agenda = s.agenda := rfl
@[simp] theorem State.setCore_phase (s : State) (n : Nat) (x : Core) : (s.setCore n x).phase = s.phase := rfl
@[simp] theorem State.setCore_phCore (s : State) (n : Nat) (x : Core) : (s.setCore n x).phCore = s.phCore := rfl
@[simp] theorem State.setCore_clock (s : State) (n : Nat) (x : Core) : (s.setCore n x).clock = s.clock := rfl
@[simp] theorem State.setCore_cur (s : State) (n : Nat) (x : Core) : (s.setCore n x).cur = s.cur := rfl
@[simp] theorem State.setCore_freeCtr (s : State) (n : Nat) (x : Core) : (s.setCore n x).freeCtr = s.freeCtr := rfl
@[simp] theorem State.setCore_nextId (s : State) (n : Nat) (x : Core) : (s.setCore n x).nextId = s.nextId := rfl
@[simp] theorem State.setCore_parts (s : State) (n : Nat) (x : Core) : (s.setCore n x).parts = s.parts := rfl
@[simp] theorem State.setCore_clusters (s : State) (n : Nat) (x : Core) : (s.setCore n x).clusters = s.clusters := rfl
@[simp] theorem State.setCore_kernels (s : State) (n : Nat) (x : Core) : (s.setCore n x).kernels = s.kernels := rfl
@[simp] theorem State.setCore_ctxs (s : State) (n : Nat) (x : Core) : (s.setCore n x).ctxs = s.ctxs := rfl
@[simp] theorem State.setCore_gathers (s : State) (n : Nat) (x : Core) : (s.setCore n x).gathers = s.gathers := rfl
@[simp] theorem State.setCore_hbm (s : State) (n : Nat) (x : Core) : (s.setCore n x).hbm = s.hbm := rfl
@[simp] theorem State.setCore_peers (s : State) (n : Nat) (x : Core) : (s.setCore n x).peers = s.peers := rfl
@[simp] theorem State.setCore_resv (s : State) (n : Nat) (x : Core) : (s.setCore n x).resv = s.resv := rfl
@[simp] theorem State.setCore_ctxbase (s : State) (n : Nat) (x : Core) : (s.setCore n x).ctxbase = s.ctxbase := rfl
@[simp] theorem State.setCore_qtbase (s : State) (n : Nat) (x : Core) : (s.setCore n x).qtbase = s.qtbase := rfl
@[simp] theorem State.setCore_ctxen (s : State) (n : Nat) (x : Core) : (s.setCore n x).ctxen = s.ctxen := rfl
@[simp] theorem State.setCore_ctxerr (s : State) (n : Nat) (x : Core) : (s.setCore n x).ctxerr = s.ctxerr := rfl
@[simp] theorem State.setCore_ctxovr (s : State) (n : Nat) (x : Core) : (s.setCore n x).ctxovr = s.ctxovr := rfl
@[simp] theorem State.setCore_queues (s : State) (n : Nat) (x : Core) : (s.setCore n x).queues = s.queues := rfl
@[simp] theorem State.setCore_stalled (s : State) (n : Nat) (x : Core) : (s.setCore n x).stalled = s.stalled := rfl
@[simp] theorem State.setCore_trpend (s : State) (n : Nat) (x : Core) : (s.setCore n x).trpend = s.trpend := rfl
@[simp] theorem State.setCore_tlbinv (s : State) (n : Nat) (x : Core) : (s.setCore n x).tlbinv = s.tlbinv := rfl
@[simp] theorem State.setCore_tlbJobs (s : State) (n : Nat) (x : Core) : (s.setCore n x).tlbJobs = s.tlbJobs := rfl
@[simp] theorem State.setCore_dieTlb (s : State) (n : Nat) (x : Core) : (s.setCore n x).dieTlb = s.dieTlb := rfl
@[simp] theorem State.setCore_walks (s : State) (n : Nat) (x : Core) : (s.setCore n x).walks = s.walks := rfl
@[simp] theorem State.setCore_repair (s : State) (n : Nat) (x : Core) : (s.setCore n x).repair = s.repair := rfl
@[simp] theorem State.setCore_remap (s : State) (n : Nat) (x : Core) : (s.setCore n x).remap = s.remap := rfl
@[simp] theorem State.setCore_devid (s : State) (n : Nat) (x : Core) : (s.setCore n x).devid = s.devid := rfl
@[simp] theorem State.setCore_fgbase (s : State) (n : Nat) (x : Core) : (s.setCore n x).fgbase = s.fgbase := rfl
@[simp] theorem State.setCore_pcfg (s : State) (n : Nat) (x : Core) : (s.setCore n x).pcfg = s.pcfg := rfl
@[simp] theorem State.setCore_flows (s : State) (n : Nat) (x : Core) : (s.setCore n x).flows = s.flows := rfl
@[simp] theorem State.setCore_msem (s : State) (n : Nat) (x : Core) : (s.setCore n x).msem = s.msem := rfl
@[simp] theorem State.setCore_memerr (s : State) (n : Nat) (x : Core) : (s.setCore n x).memerr = s.memerr := rfl
@[simp] theorem State.setCore_iroute (s : State) (n : Nat) (x : Core) : (s.setCore n x).iroute = s.iroute := rfl
@[simp] theorem State.setCore_irqHeld (s : State) (n : Nat) (x : Core) : (s.setCore n x).irqHeld = s.irqHeld := rfl
@[simp] theorem State.setCore_irqSent (s : State) (n : Nat) (x : Core) : (s.setCore n x).irqSent = s.irqSent := rfl
@[simp] theorem State.setCore_hartErr (s : State) (n : Nat) (x : Core) : (s.setCore n x).hartErr = s.hartErr := rfl
@[simp] theorem State.setCore_hartOut (s : State) (n : Nat) (x : Core) : (s.setCore n x).hartOut = s.hartOut := rfl
@[simp] theorem State.setCore_hartGate (s : State) (n : Nat) (x : Core) : (s.setCore n x).hartGate = s.hartGate := rfl
@[simp] theorem State.setCore_badBeats (s : State) (n : Nat) (x : Core) : (s.setCore n x).badBeats = s.badBeats := rfl
@[simp] theorem State.setCore_mgmtOut (s : State) (n : Nat) (x : Core) : (s.setCore n x).mgmtOut = s.mgmtOut := rfl
@[simp] theorem State.setCore_mgmtSig (s : State) (n : Nat) (x : Core) : (s.setCore n x).mgmtSig = s.mgmtSig := rfl
@[simp] theorem State.setCore_acksOut (s : State) (n : Nat) (x : Core) : (s.setCore n x).acksOut = s.acksOut := rfl
@[simp] theorem State.setCore_amvin (s : State) (n : Nat) (x : Core) : (s.setCore n x).amvin = s.amvin := rfl
@[simp] theorem State.setCore_alarm (s : State) (n : Nat) (x : Core) : (s.setCore n x).alarm = s.alarm := rfl
@[simp] theorem State.setCore_inbox (s : State) (n : Nat) (x : Core) : (s.setCore n x).inbox = s.inbox := rfl

/-! ### State.updPart -/

@[simp] theorem State.updPart_agenda (s : State) (p : Nat) (f : Part → Part) : (s.updPart p f).agenda = s.agenda := rfl
@[simp] theorem State.updPart_phase (s : State) (p : Nat) (f : Part → Part) : (s.updPart p f).phase = s.phase := rfl
@[simp] theorem State.updPart_phCore (s : State) (p : Nat) (f : Part → Part) : (s.updPart p f).phCore = s.phCore := rfl
@[simp] theorem State.updPart_clock (s : State) (p : Nat) (f : Part → Part) : (s.updPart p f).clock = s.clock := rfl
@[simp] theorem State.updPart_cur (s : State) (p : Nat) (f : Part → Part) : (s.updPart p f).cur = s.cur := rfl
@[simp] theorem State.updPart_freeCtr (s : State) (p : Nat) (f : Part → Part) : (s.updPart p f).freeCtr = s.freeCtr := rfl
@[simp] theorem State.updPart_nextId (s : State) (p : Nat) (f : Part → Part) : (s.updPart p f).nextId = s.nextId := rfl
@[simp] theorem State.updPart_cores (s : State) (p : Nat) (f : Part → Part) : (s.updPart p f).cores = s.cores := rfl
@[simp] theorem State.updPart_clusters (s : State) (p : Nat) (f : Part → Part) : (s.updPart p f).clusters = s.clusters := rfl
@[simp] theorem State.updPart_kernels (s : State) (p : Nat) (f : Part → Part) : (s.updPart p f).kernels = s.kernels := rfl
@[simp] theorem State.updPart_ctxs (s : State) (p : Nat) (f : Part → Part) : (s.updPart p f).ctxs = s.ctxs := rfl
@[simp] theorem State.updPart_gathers (s : State) (p : Nat) (f : Part → Part) : (s.updPart p f).gathers = s.gathers := rfl
@[simp] theorem State.updPart_hbm (s : State) (p : Nat) (f : Part → Part) : (s.updPart p f).hbm = s.hbm := rfl
@[simp] theorem State.updPart_peers (s : State) (p : Nat) (f : Part → Part) : (s.updPart p f).peers = s.peers := rfl
@[simp] theorem State.updPart_resv (s : State) (p : Nat) (f : Part → Part) : (s.updPart p f).resv = s.resv := rfl
@[simp] theorem State.updPart_ctxbase (s : State) (p : Nat) (f : Part → Part) : (s.updPart p f).ctxbase = s.ctxbase := rfl
@[simp] theorem State.updPart_qtbase (s : State) (p : Nat) (f : Part → Part) : (s.updPart p f).qtbase = s.qtbase := rfl
@[simp] theorem State.updPart_ctxen (s : State) (p : Nat) (f : Part → Part) : (s.updPart p f).ctxen = s.ctxen := rfl
@[simp] theorem State.updPart_ctxerr (s : State) (p : Nat) (f : Part → Part) : (s.updPart p f).ctxerr = s.ctxerr := rfl
@[simp] theorem State.updPart_ctxovr (s : State) (p : Nat) (f : Part → Part) : (s.updPart p f).ctxovr = s.ctxovr := rfl
@[simp] theorem State.updPart_queues (s : State) (p : Nat) (f : Part → Part) : (s.updPart p f).queues = s.queues := rfl
@[simp] theorem State.updPart_stalled (s : State) (p : Nat) (f : Part → Part) : (s.updPart p f).stalled = s.stalled := rfl
@[simp] theorem State.updPart_trpend (s : State) (p : Nat) (f : Part → Part) : (s.updPart p f).trpend = s.trpend := rfl
@[simp] theorem State.updPart_tlbinv (s : State) (p : Nat) (f : Part → Part) : (s.updPart p f).tlbinv = s.tlbinv := rfl
@[simp] theorem State.updPart_tlbJobs (s : State) (p : Nat) (f : Part → Part) : (s.updPart p f).tlbJobs = s.tlbJobs := rfl
@[simp] theorem State.updPart_dieTlb (s : State) (p : Nat) (f : Part → Part) : (s.updPart p f).dieTlb = s.dieTlb := rfl
@[simp] theorem State.updPart_walks (s : State) (p : Nat) (f : Part → Part) : (s.updPart p f).walks = s.walks := rfl
@[simp] theorem State.updPart_repair (s : State) (p : Nat) (f : Part → Part) : (s.updPart p f).repair = s.repair := rfl
@[simp] theorem State.updPart_remap (s : State) (p : Nat) (f : Part → Part) : (s.updPart p f).remap = s.remap := rfl
@[simp] theorem State.updPart_devid (s : State) (p : Nat) (f : Part → Part) : (s.updPart p f).devid = s.devid := rfl
@[simp] theorem State.updPart_fgbase (s : State) (p : Nat) (f : Part → Part) : (s.updPart p f).fgbase = s.fgbase := rfl
@[simp] theorem State.updPart_pcfg (s : State) (p : Nat) (f : Part → Part) : (s.updPart p f).pcfg = s.pcfg := rfl
@[simp] theorem State.updPart_flows (s : State) (p : Nat) (f : Part → Part) : (s.updPart p f).flows = s.flows := rfl
@[simp] theorem State.updPart_msem (s : State) (p : Nat) (f : Part → Part) : (s.updPart p f).msem = s.msem := rfl
@[simp] theorem State.updPart_memerr (s : State) (p : Nat) (f : Part → Part) : (s.updPart p f).memerr = s.memerr := rfl
@[simp] theorem State.updPart_iroute (s : State) (p : Nat) (f : Part → Part) : (s.updPart p f).iroute = s.iroute := rfl
@[simp] theorem State.updPart_irqHeld (s : State) (p : Nat) (f : Part → Part) : (s.updPart p f).irqHeld = s.irqHeld := rfl
@[simp] theorem State.updPart_irqSent (s : State) (p : Nat) (f : Part → Part) : (s.updPart p f).irqSent = s.irqSent := rfl
@[simp] theorem State.updPart_hartErr (s : State) (p : Nat) (f : Part → Part) : (s.updPart p f).hartErr = s.hartErr := rfl
@[simp] theorem State.updPart_hartOut (s : State) (p : Nat) (f : Part → Part) : (s.updPart p f).hartOut = s.hartOut := rfl
@[simp] theorem State.updPart_hartGate (s : State) (p : Nat) (f : Part → Part) : (s.updPart p f).hartGate = s.hartGate := rfl
@[simp] theorem State.updPart_badBeats (s : State) (p : Nat) (f : Part → Part) : (s.updPart p f).badBeats = s.badBeats := rfl
@[simp] theorem State.updPart_mgmtOut (s : State) (p : Nat) (f : Part → Part) : (s.updPart p f).mgmtOut = s.mgmtOut := rfl
@[simp] theorem State.updPart_mgmtSig (s : State) (p : Nat) (f : Part → Part) : (s.updPart p f).mgmtSig = s.mgmtSig := rfl
@[simp] theorem State.updPart_acksOut (s : State) (p : Nat) (f : Part → Part) : (s.updPart p f).acksOut = s.acksOut := rfl
@[simp] theorem State.updPart_amvin (s : State) (p : Nat) (f : Part → Part) : (s.updPart p f).amvin = s.amvin := rfl
@[simp] theorem State.updPart_alarm (s : State) (p : Nat) (f : Part → Part) : (s.updPart p f).alarm = s.alarm := rfl
@[simp] theorem State.updPart_inbox (s : State) (p : Nat) (f : Part → Part) : (s.updPart p f).inbox = s.inbox := rfl

/-! ### State.updCore -/

@[simp] theorem State.updCore_agenda (s : State) (n : Nat) (f : Core → Core) : (s.updCore n f).agenda = s.agenda := rfl
@[simp] theorem State.updCore_phase (s : State) (n : Nat) (f : Core → Core) : (s.updCore n f).phase = s.phase := rfl
@[simp] theorem State.updCore_phCore (s : State) (n : Nat) (f : Core → Core) : (s.updCore n f).phCore = s.phCore := rfl
@[simp] theorem State.updCore_clock (s : State) (n : Nat) (f : Core → Core) : (s.updCore n f).clock = s.clock := rfl
@[simp] theorem State.updCore_cur (s : State) (n : Nat) (f : Core → Core) : (s.updCore n f).cur = s.cur := rfl
@[simp] theorem State.updCore_freeCtr (s : State) (n : Nat) (f : Core → Core) : (s.updCore n f).freeCtr = s.freeCtr := rfl
@[simp] theorem State.updCore_nextId (s : State) (n : Nat) (f : Core → Core) : (s.updCore n f).nextId = s.nextId := rfl
@[simp] theorem State.updCore_parts (s : State) (n : Nat) (f : Core → Core) : (s.updCore n f).parts = s.parts := rfl
@[simp] theorem State.updCore_clusters (s : State) (n : Nat) (f : Core → Core) : (s.updCore n f).clusters = s.clusters := rfl
@[simp] theorem State.updCore_kernels (s : State) (n : Nat) (f : Core → Core) : (s.updCore n f).kernels = s.kernels := rfl
@[simp] theorem State.updCore_ctxs (s : State) (n : Nat) (f : Core → Core) : (s.updCore n f).ctxs = s.ctxs := rfl
@[simp] theorem State.updCore_gathers (s : State) (n : Nat) (f : Core → Core) : (s.updCore n f).gathers = s.gathers := rfl
@[simp] theorem State.updCore_hbm (s : State) (n : Nat) (f : Core → Core) : (s.updCore n f).hbm = s.hbm := rfl
@[simp] theorem State.updCore_peers (s : State) (n : Nat) (f : Core → Core) : (s.updCore n f).peers = s.peers := rfl
@[simp] theorem State.updCore_resv (s : State) (n : Nat) (f : Core → Core) : (s.updCore n f).resv = s.resv := rfl
@[simp] theorem State.updCore_ctxbase (s : State) (n : Nat) (f : Core → Core) : (s.updCore n f).ctxbase = s.ctxbase := rfl
@[simp] theorem State.updCore_qtbase (s : State) (n : Nat) (f : Core → Core) : (s.updCore n f).qtbase = s.qtbase := rfl
@[simp] theorem State.updCore_ctxen (s : State) (n : Nat) (f : Core → Core) : (s.updCore n f).ctxen = s.ctxen := rfl
@[simp] theorem State.updCore_ctxerr (s : State) (n : Nat) (f : Core → Core) : (s.updCore n f).ctxerr = s.ctxerr := rfl
@[simp] theorem State.updCore_ctxovr (s : State) (n : Nat) (f : Core → Core) : (s.updCore n f).ctxovr = s.ctxovr := rfl
@[simp] theorem State.updCore_queues (s : State) (n : Nat) (f : Core → Core) : (s.updCore n f).queues = s.queues := rfl
@[simp] theorem State.updCore_stalled (s : State) (n : Nat) (f : Core → Core) : (s.updCore n f).stalled = s.stalled := rfl
@[simp] theorem State.updCore_trpend (s : State) (n : Nat) (f : Core → Core) : (s.updCore n f).trpend = s.trpend := rfl
@[simp] theorem State.updCore_tlbinv (s : State) (n : Nat) (f : Core → Core) : (s.updCore n f).tlbinv = s.tlbinv := rfl
@[simp] theorem State.updCore_tlbJobs (s : State) (n : Nat) (f : Core → Core) : (s.updCore n f).tlbJobs = s.tlbJobs := rfl
@[simp] theorem State.updCore_dieTlb (s : State) (n : Nat) (f : Core → Core) : (s.updCore n f).dieTlb = s.dieTlb := rfl
@[simp] theorem State.updCore_walks (s : State) (n : Nat) (f : Core → Core) : (s.updCore n f).walks = s.walks := rfl
@[simp] theorem State.updCore_repair (s : State) (n : Nat) (f : Core → Core) : (s.updCore n f).repair = s.repair := rfl
@[simp] theorem State.updCore_remap (s : State) (n : Nat) (f : Core → Core) : (s.updCore n f).remap = s.remap := rfl
@[simp] theorem State.updCore_devid (s : State) (n : Nat) (f : Core → Core) : (s.updCore n f).devid = s.devid := rfl
@[simp] theorem State.updCore_fgbase (s : State) (n : Nat) (f : Core → Core) : (s.updCore n f).fgbase = s.fgbase := rfl
@[simp] theorem State.updCore_pcfg (s : State) (n : Nat) (f : Core → Core) : (s.updCore n f).pcfg = s.pcfg := rfl
@[simp] theorem State.updCore_flows (s : State) (n : Nat) (f : Core → Core) : (s.updCore n f).flows = s.flows := rfl
@[simp] theorem State.updCore_msem (s : State) (n : Nat) (f : Core → Core) : (s.updCore n f).msem = s.msem := rfl
@[simp] theorem State.updCore_memerr (s : State) (n : Nat) (f : Core → Core) : (s.updCore n f).memerr = s.memerr := rfl
@[simp] theorem State.updCore_iroute (s : State) (n : Nat) (f : Core → Core) : (s.updCore n f).iroute = s.iroute := rfl
@[simp] theorem State.updCore_irqHeld (s : State) (n : Nat) (f : Core → Core) : (s.updCore n f).irqHeld = s.irqHeld := rfl
@[simp] theorem State.updCore_irqSent (s : State) (n : Nat) (f : Core → Core) : (s.updCore n f).irqSent = s.irqSent := rfl
@[simp] theorem State.updCore_hartErr (s : State) (n : Nat) (f : Core → Core) : (s.updCore n f).hartErr = s.hartErr := rfl
@[simp] theorem State.updCore_hartOut (s : State) (n : Nat) (f : Core → Core) : (s.updCore n f).hartOut = s.hartOut := rfl
@[simp] theorem State.updCore_hartGate (s : State) (n : Nat) (f : Core → Core) : (s.updCore n f).hartGate = s.hartGate := rfl
@[simp] theorem State.updCore_badBeats (s : State) (n : Nat) (f : Core → Core) : (s.updCore n f).badBeats = s.badBeats := rfl
@[simp] theorem State.updCore_mgmtOut (s : State) (n : Nat) (f : Core → Core) : (s.updCore n f).mgmtOut = s.mgmtOut := rfl
@[simp] theorem State.updCore_mgmtSig (s : State) (n : Nat) (f : Core → Core) : (s.updCore n f).mgmtSig = s.mgmtSig := rfl
@[simp] theorem State.updCore_acksOut (s : State) (n : Nat) (f : Core → Core) : (s.updCore n f).acksOut = s.acksOut := rfl
@[simp] theorem State.updCore_amvin (s : State) (n : Nat) (f : Core → Core) : (s.updCore n f).amvin = s.amvin := rfl
@[simp] theorem State.updCore_alarm (s : State) (n : Nat) (f : Core → Core) : (s.updCore n f).alarm = s.alarm := rfl
@[simp] theorem State.updCore_inbox (s : State) (n : Nat) (f : Core → Core) : (s.updCore n f).inbox = s.inbox := rfl

/-! ### State.updMe -/

@[simp] theorem State.updMe_agenda (s : State) (f : Part → Part) : (s.updMe f).agenda = s.agenda := rfl
@[simp] theorem State.updMe_phase (s : State) (f : Part → Part) : (s.updMe f).phase = s.phase := rfl
@[simp] theorem State.updMe_phCore (s : State) (f : Part → Part) : (s.updMe f).phCore = s.phCore := rfl
@[simp] theorem State.updMe_clock (s : State) (f : Part → Part) : (s.updMe f).clock = s.clock := rfl
@[simp] theorem State.updMe_cur (s : State) (f : Part → Part) : (s.updMe f).cur = s.cur := rfl
@[simp] theorem State.updMe_freeCtr (s : State) (f : Part → Part) : (s.updMe f).freeCtr = s.freeCtr := rfl
@[simp] theorem State.updMe_nextId (s : State) (f : Part → Part) : (s.updMe f).nextId = s.nextId := rfl
@[simp] theorem State.updMe_cores (s : State) (f : Part → Part) : (s.updMe f).cores = s.cores := rfl
@[simp] theorem State.updMe_clusters (s : State) (f : Part → Part) : (s.updMe f).clusters = s.clusters := rfl
@[simp] theorem State.updMe_kernels (s : State) (f : Part → Part) : (s.updMe f).kernels = s.kernels := rfl
@[simp] theorem State.updMe_ctxs (s : State) (f : Part → Part) : (s.updMe f).ctxs = s.ctxs := rfl
@[simp] theorem State.updMe_gathers (s : State) (f : Part → Part) : (s.updMe f).gathers = s.gathers := rfl
@[simp] theorem State.updMe_hbm (s : State) (f : Part → Part) : (s.updMe f).hbm = s.hbm := rfl
@[simp] theorem State.updMe_peers (s : State) (f : Part → Part) : (s.updMe f).peers = s.peers := rfl
@[simp] theorem State.updMe_resv (s : State) (f : Part → Part) : (s.updMe f).resv = s.resv := rfl
@[simp] theorem State.updMe_ctxbase (s : State) (f : Part → Part) : (s.updMe f).ctxbase = s.ctxbase := rfl
@[simp] theorem State.updMe_qtbase (s : State) (f : Part → Part) : (s.updMe f).qtbase = s.qtbase := rfl
@[simp] theorem State.updMe_ctxen (s : State) (f : Part → Part) : (s.updMe f).ctxen = s.ctxen := rfl
@[simp] theorem State.updMe_ctxerr (s : State) (f : Part → Part) : (s.updMe f).ctxerr = s.ctxerr := rfl
@[simp] theorem State.updMe_ctxovr (s : State) (f : Part → Part) : (s.updMe f).ctxovr = s.ctxovr := rfl
@[simp] theorem State.updMe_queues (s : State) (f : Part → Part) : (s.updMe f).queues = s.queues := rfl
@[simp] theorem State.updMe_stalled (s : State) (f : Part → Part) : (s.updMe f).stalled = s.stalled := rfl
@[simp] theorem State.updMe_trpend (s : State) (f : Part → Part) : (s.updMe f).trpend = s.trpend := rfl
@[simp] theorem State.updMe_tlbinv (s : State) (f : Part → Part) : (s.updMe f).tlbinv = s.tlbinv := rfl
@[simp] theorem State.updMe_tlbJobs (s : State) (f : Part → Part) : (s.updMe f).tlbJobs = s.tlbJobs := rfl
@[simp] theorem State.updMe_dieTlb (s : State) (f : Part → Part) : (s.updMe f).dieTlb = s.dieTlb := rfl
@[simp] theorem State.updMe_walks (s : State) (f : Part → Part) : (s.updMe f).walks = s.walks := rfl
@[simp] theorem State.updMe_repair (s : State) (f : Part → Part) : (s.updMe f).repair = s.repair := rfl
@[simp] theorem State.updMe_remap (s : State) (f : Part → Part) : (s.updMe f).remap = s.remap := rfl
@[simp] theorem State.updMe_devid (s : State) (f : Part → Part) : (s.updMe f).devid = s.devid := rfl
@[simp] theorem State.updMe_fgbase (s : State) (f : Part → Part) : (s.updMe f).fgbase = s.fgbase := rfl
@[simp] theorem State.updMe_pcfg (s : State) (f : Part → Part) : (s.updMe f).pcfg = s.pcfg := rfl
@[simp] theorem State.updMe_flows (s : State) (f : Part → Part) : (s.updMe f).flows = s.flows := rfl
@[simp] theorem State.updMe_msem (s : State) (f : Part → Part) : (s.updMe f).msem = s.msem := rfl
@[simp] theorem State.updMe_memerr (s : State) (f : Part → Part) : (s.updMe f).memerr = s.memerr := rfl
@[simp] theorem State.updMe_iroute (s : State) (f : Part → Part) : (s.updMe f).iroute = s.iroute := rfl
@[simp] theorem State.updMe_irqHeld (s : State) (f : Part → Part) : (s.updMe f).irqHeld = s.irqHeld := rfl
@[simp] theorem State.updMe_irqSent (s : State) (f : Part → Part) : (s.updMe f).irqSent = s.irqSent := rfl
@[simp] theorem State.updMe_hartErr (s : State) (f : Part → Part) : (s.updMe f).hartErr = s.hartErr := rfl
@[simp] theorem State.updMe_hartOut (s : State) (f : Part → Part) : (s.updMe f).hartOut = s.hartOut := rfl
@[simp] theorem State.updMe_hartGate (s : State) (f : Part → Part) : (s.updMe f).hartGate = s.hartGate := rfl
@[simp] theorem State.updMe_badBeats (s : State) (f : Part → Part) : (s.updMe f).badBeats = s.badBeats := rfl
@[simp] theorem State.updMe_mgmtOut (s : State) (f : Part → Part) : (s.updMe f).mgmtOut = s.mgmtOut := rfl
@[simp] theorem State.updMe_mgmtSig (s : State) (f : Part → Part) : (s.updMe f).mgmtSig = s.mgmtSig := rfl
@[simp] theorem State.updMe_acksOut (s : State) (f : Part → Part) : (s.updMe f).acksOut = s.acksOut := rfl
@[simp] theorem State.updMe_amvin (s : State) (f : Part → Part) : (s.updMe f).amvin = s.amvin := rfl
@[simp] theorem State.updMe_alarm (s : State) (f : Part → Part) : (s.updMe f).alarm = s.alarm := rfl
@[simp] theorem State.updMe_inbox (s : State) (f : Part → Part) : (s.updMe f).inbox = s.inbox := rfl

/-! ### State.updMyCore -/

@[simp] theorem State.updMyCore_agenda (s : State) (f : Core → Core) : (s.updMyCore f).agenda = s.agenda := rfl
@[simp] theorem State.updMyCore_phase (s : State) (f : Core → Core) : (s.updMyCore f).phase = s.phase := rfl
@[simp] theorem State.updMyCore_phCore (s : State) (f : Core → Core) : (s.updMyCore f).phCore = s.phCore := rfl
@[simp] theorem State.updMyCore_clock (s : State) (f : Core → Core) : (s.updMyCore f).clock = s.clock := rfl
@[simp] theorem State.updMyCore_cur (s : State) (f : Core → Core) : (s.updMyCore f).cur = s.cur := rfl
@[simp] theorem State.updMyCore_freeCtr (s : State) (f : Core → Core) : (s.updMyCore f).freeCtr = s.freeCtr := rfl
@[simp] theorem State.updMyCore_nextId (s : State) (f : Core → Core) : (s.updMyCore f).nextId = s.nextId := rfl
@[simp] theorem State.updMyCore_parts (s : State) (f : Core → Core) : (s.updMyCore f).parts = s.parts := rfl
@[simp] theorem State.updMyCore_clusters (s : State) (f : Core → Core) : (s.updMyCore f).clusters = s.clusters := rfl
@[simp] theorem State.updMyCore_kernels (s : State) (f : Core → Core) : (s.updMyCore f).kernels = s.kernels := rfl
@[simp] theorem State.updMyCore_ctxs (s : State) (f : Core → Core) : (s.updMyCore f).ctxs = s.ctxs := rfl
@[simp] theorem State.updMyCore_gathers (s : State) (f : Core → Core) : (s.updMyCore f).gathers = s.gathers := rfl
@[simp] theorem State.updMyCore_hbm (s : State) (f : Core → Core) : (s.updMyCore f).hbm = s.hbm := rfl
@[simp] theorem State.updMyCore_peers (s : State) (f : Core → Core) : (s.updMyCore f).peers = s.peers := rfl
@[simp] theorem State.updMyCore_resv (s : State) (f : Core → Core) : (s.updMyCore f).resv = s.resv := rfl
@[simp] theorem State.updMyCore_ctxbase (s : State) (f : Core → Core) : (s.updMyCore f).ctxbase = s.ctxbase := rfl
@[simp] theorem State.updMyCore_qtbase (s : State) (f : Core → Core) : (s.updMyCore f).qtbase = s.qtbase := rfl
@[simp] theorem State.updMyCore_ctxen (s : State) (f : Core → Core) : (s.updMyCore f).ctxen = s.ctxen := rfl
@[simp] theorem State.updMyCore_ctxerr (s : State) (f : Core → Core) : (s.updMyCore f).ctxerr = s.ctxerr := rfl
@[simp] theorem State.updMyCore_ctxovr (s : State) (f : Core → Core) : (s.updMyCore f).ctxovr = s.ctxovr := rfl
@[simp] theorem State.updMyCore_queues (s : State) (f : Core → Core) : (s.updMyCore f).queues = s.queues := rfl
@[simp] theorem State.updMyCore_stalled (s : State) (f : Core → Core) : (s.updMyCore f).stalled = s.stalled := rfl
@[simp] theorem State.updMyCore_trpend (s : State) (f : Core → Core) : (s.updMyCore f).trpend = s.trpend := rfl
@[simp] theorem State.updMyCore_tlbinv (s : State) (f : Core → Core) : (s.updMyCore f).tlbinv = s.tlbinv := rfl
@[simp] theorem State.updMyCore_tlbJobs (s : State) (f : Core → Core) : (s.updMyCore f).tlbJobs = s.tlbJobs := rfl
@[simp] theorem State.updMyCore_dieTlb (s : State) (f : Core → Core) : (s.updMyCore f).dieTlb = s.dieTlb := rfl
@[simp] theorem State.updMyCore_walks (s : State) (f : Core → Core) : (s.updMyCore f).walks = s.walks := rfl
@[simp] theorem State.updMyCore_repair (s : State) (f : Core → Core) : (s.updMyCore f).repair = s.repair := rfl
@[simp] theorem State.updMyCore_remap (s : State) (f : Core → Core) : (s.updMyCore f).remap = s.remap := rfl
@[simp] theorem State.updMyCore_devid (s : State) (f : Core → Core) : (s.updMyCore f).devid = s.devid := rfl
@[simp] theorem State.updMyCore_fgbase (s : State) (f : Core → Core) : (s.updMyCore f).fgbase = s.fgbase := rfl
@[simp] theorem State.updMyCore_pcfg (s : State) (f : Core → Core) : (s.updMyCore f).pcfg = s.pcfg := rfl
@[simp] theorem State.updMyCore_flows (s : State) (f : Core → Core) : (s.updMyCore f).flows = s.flows := rfl
@[simp] theorem State.updMyCore_msem (s : State) (f : Core → Core) : (s.updMyCore f).msem = s.msem := rfl
@[simp] theorem State.updMyCore_memerr (s : State) (f : Core → Core) : (s.updMyCore f).memerr = s.memerr := rfl
@[simp] theorem State.updMyCore_iroute (s : State) (f : Core → Core) : (s.updMyCore f).iroute = s.iroute := rfl
@[simp] theorem State.updMyCore_irqHeld (s : State) (f : Core → Core) : (s.updMyCore f).irqHeld = s.irqHeld := rfl
@[simp] theorem State.updMyCore_irqSent (s : State) (f : Core → Core) : (s.updMyCore f).irqSent = s.irqSent := rfl
@[simp] theorem State.updMyCore_hartErr (s : State) (f : Core → Core) : (s.updMyCore f).hartErr = s.hartErr := rfl
@[simp] theorem State.updMyCore_hartOut (s : State) (f : Core → Core) : (s.updMyCore f).hartOut = s.hartOut := rfl
@[simp] theorem State.updMyCore_hartGate (s : State) (f : Core → Core) : (s.updMyCore f).hartGate = s.hartGate := rfl
@[simp] theorem State.updMyCore_badBeats (s : State) (f : Core → Core) : (s.updMyCore f).badBeats = s.badBeats := rfl
@[simp] theorem State.updMyCore_mgmtOut (s : State) (f : Core → Core) : (s.updMyCore f).mgmtOut = s.mgmtOut := rfl
@[simp] theorem State.updMyCore_mgmtSig (s : State) (f : Core → Core) : (s.updMyCore f).mgmtSig = s.mgmtSig := rfl
@[simp] theorem State.updMyCore_acksOut (s : State) (f : Core → Core) : (s.updMyCore f).acksOut = s.acksOut := rfl
@[simp] theorem State.updMyCore_amvin (s : State) (f : Core → Core) : (s.updMyCore f).amvin = s.amvin := rfl
@[simp] theorem State.updMyCore_alarm (s : State) (f : Core → Core) : (s.updMyCore f).alarm = s.alarm := rfl
@[simp] theorem State.updMyCore_inbox (s : State) (f : Core → Core) : (s.updMyCore f).inbox = s.inbox := rfl

/-! ### State.updCur -/

@[simp] theorem State.updCur_agenda (s : State) (f : Cursor → Cursor) : (s.updCur f).agenda = s.agenda := rfl
@[simp] theorem State.updCur_phase (s : State) (f : Cursor → Cursor) : (s.updCur f).phase = s.phase := rfl
@[simp] theorem State.updCur_phCore (s : State) (f : Cursor → Cursor) : (s.updCur f).phCore = s.phCore := rfl
@[simp] theorem State.updCur_clock (s : State) (f : Cursor → Cursor) : (s.updCur f).clock = s.clock := rfl
@[simp] theorem State.updCur_freeCtr (s : State) (f : Cursor → Cursor) : (s.updCur f).freeCtr = s.freeCtr := rfl
@[simp] theorem State.updCur_nextId (s : State) (f : Cursor → Cursor) : (s.updCur f).nextId = s.nextId := rfl
@[simp] theorem State.updCur_parts (s : State) (f : Cursor → Cursor) : (s.updCur f).parts = s.parts := rfl
@[simp] theorem State.updCur_cores (s : State) (f : Cursor → Cursor) : (s.updCur f).cores = s.cores := rfl
@[simp] theorem State.updCur_clusters (s : State) (f : Cursor → Cursor) : (s.updCur f).clusters = s.clusters := rfl
@[simp] theorem State.updCur_kernels (s : State) (f : Cursor → Cursor) : (s.updCur f).kernels = s.kernels := rfl
@[simp] theorem State.updCur_ctxs (s : State) (f : Cursor → Cursor) : (s.updCur f).ctxs = s.ctxs := rfl
@[simp] theorem State.updCur_gathers (s : State) (f : Cursor → Cursor) : (s.updCur f).gathers = s.gathers := rfl
@[simp] theorem State.updCur_hbm (s : State) (f : Cursor → Cursor) : (s.updCur f).hbm = s.hbm := rfl
@[simp] theorem State.updCur_peers (s : State) (f : Cursor → Cursor) : (s.updCur f).peers = s.peers := rfl
@[simp] theorem State.updCur_resv (s : State) (f : Cursor → Cursor) : (s.updCur f).resv = s.resv := rfl
@[simp] theorem State.updCur_ctxbase (s : State) (f : Cursor → Cursor) : (s.updCur f).ctxbase = s.ctxbase := rfl
@[simp] theorem State.updCur_qtbase (s : State) (f : Cursor → Cursor) : (s.updCur f).qtbase = s.qtbase := rfl
@[simp] theorem State.updCur_ctxen (s : State) (f : Cursor → Cursor) : (s.updCur f).ctxen = s.ctxen := rfl
@[simp] theorem State.updCur_ctxerr (s : State) (f : Cursor → Cursor) : (s.updCur f).ctxerr = s.ctxerr := rfl
@[simp] theorem State.updCur_ctxovr (s : State) (f : Cursor → Cursor) : (s.updCur f).ctxovr = s.ctxovr := rfl
@[simp] theorem State.updCur_queues (s : State) (f : Cursor → Cursor) : (s.updCur f).queues = s.queues := rfl
@[simp] theorem State.updCur_stalled (s : State) (f : Cursor → Cursor) : (s.updCur f).stalled = s.stalled := rfl
@[simp] theorem State.updCur_trpend (s : State) (f : Cursor → Cursor) : (s.updCur f).trpend = s.trpend := rfl
@[simp] theorem State.updCur_tlbinv (s : State) (f : Cursor → Cursor) : (s.updCur f).tlbinv = s.tlbinv := rfl
@[simp] theorem State.updCur_tlbJobs (s : State) (f : Cursor → Cursor) : (s.updCur f).tlbJobs = s.tlbJobs := rfl
@[simp] theorem State.updCur_dieTlb (s : State) (f : Cursor → Cursor) : (s.updCur f).dieTlb = s.dieTlb := rfl
@[simp] theorem State.updCur_walks (s : State) (f : Cursor → Cursor) : (s.updCur f).walks = s.walks := rfl
@[simp] theorem State.updCur_repair (s : State) (f : Cursor → Cursor) : (s.updCur f).repair = s.repair := rfl
@[simp] theorem State.updCur_remap (s : State) (f : Cursor → Cursor) : (s.updCur f).remap = s.remap := rfl
@[simp] theorem State.updCur_devid (s : State) (f : Cursor → Cursor) : (s.updCur f).devid = s.devid := rfl
@[simp] theorem State.updCur_fgbase (s : State) (f : Cursor → Cursor) : (s.updCur f).fgbase = s.fgbase := rfl
@[simp] theorem State.updCur_pcfg (s : State) (f : Cursor → Cursor) : (s.updCur f).pcfg = s.pcfg := rfl
@[simp] theorem State.updCur_flows (s : State) (f : Cursor → Cursor) : (s.updCur f).flows = s.flows := rfl
@[simp] theorem State.updCur_msem (s : State) (f : Cursor → Cursor) : (s.updCur f).msem = s.msem := rfl
@[simp] theorem State.updCur_memerr (s : State) (f : Cursor → Cursor) : (s.updCur f).memerr = s.memerr := rfl
@[simp] theorem State.updCur_iroute (s : State) (f : Cursor → Cursor) : (s.updCur f).iroute = s.iroute := rfl
@[simp] theorem State.updCur_irqHeld (s : State) (f : Cursor → Cursor) : (s.updCur f).irqHeld = s.irqHeld := rfl
@[simp] theorem State.updCur_irqSent (s : State) (f : Cursor → Cursor) : (s.updCur f).irqSent = s.irqSent := rfl
@[simp] theorem State.updCur_hartErr (s : State) (f : Cursor → Cursor) : (s.updCur f).hartErr = s.hartErr := rfl
@[simp] theorem State.updCur_hartOut (s : State) (f : Cursor → Cursor) : (s.updCur f).hartOut = s.hartOut := rfl
@[simp] theorem State.updCur_hartGate (s : State) (f : Cursor → Cursor) : (s.updCur f).hartGate = s.hartGate := rfl
@[simp] theorem State.updCur_badBeats (s : State) (f : Cursor → Cursor) : (s.updCur f).badBeats = s.badBeats := rfl
@[simp] theorem State.updCur_mgmtOut (s : State) (f : Cursor → Cursor) : (s.updCur f).mgmtOut = s.mgmtOut := rfl
@[simp] theorem State.updCur_mgmtSig (s : State) (f : Cursor → Cursor) : (s.updCur f).mgmtSig = s.mgmtSig := rfl
@[simp] theorem State.updCur_acksOut (s : State) (f : Cursor → Cursor) : (s.updCur f).acksOut = s.acksOut := rfl
@[simp] theorem State.updCur_amvin (s : State) (f : Cursor → Cursor) : (s.updCur f).amvin = s.amvin := rfl
@[simp] theorem State.updCur_alarm (s : State) (f : Cursor → Cursor) : (s.updCur f).alarm = s.alarm := rfl
@[simp] theorem State.updCur_inbox (s : State) (f : Cursor → Cursor) : (s.updCur f).inbox = s.inbox := rfl

/-! ### State.mark -/

@[simp] theorem State.mark_agenda (s : State) (c v a : Nat) : (s.mark c v a).agenda = s.agenda := rfl
@[simp] theorem State.mark_phase (s : State) (c v a : Nat) : (s.mark c v a).phase = s.phase := rfl
@[simp] theorem State.mark_phCore (s : State) (c v a : Nat) : (s.mark c v a).phCore = s.phCore := rfl
@[simp] theorem State.mark_clock (s : State) (c v a : Nat) : (s.mark c v a).clock = s.clock := rfl
@[simp] theorem State.mark_freeCtr (s : State) (c v a : Nat) : (s.mark c v a).freeCtr = s.freeCtr := rfl
@[simp] theorem State.mark_nextId (s : State) (c v a : Nat) : (s.mark c v a).nextId = s.nextId := rfl
@[simp] theorem State.mark_parts (s : State) (c v a : Nat) : (s.mark c v a).parts = s.parts := rfl
@[simp] theorem State.mark_cores (s : State) (c v a : Nat) : (s.mark c v a).cores = s.cores := rfl
@[simp] theorem State.mark_clusters (s : State) (c v a : Nat) : (s.mark c v a).clusters = s.clusters := rfl
@[simp] theorem State.mark_kernels (s : State) (c v a : Nat) : (s.mark c v a).kernels = s.kernels := rfl
@[simp] theorem State.mark_ctxs (s : State) (c v a : Nat) : (s.mark c v a).ctxs = s.ctxs := rfl
@[simp] theorem State.mark_gathers (s : State) (c v a : Nat) : (s.mark c v a).gathers = s.gathers := rfl
@[simp] theorem State.mark_hbm (s : State) (c v a : Nat) : (s.mark c v a).hbm = s.hbm := rfl
@[simp] theorem State.mark_peers (s : State) (c v a : Nat) : (s.mark c v a).peers = s.peers := rfl
@[simp] theorem State.mark_resv (s : State) (c v a : Nat) : (s.mark c v a).resv = s.resv := rfl
@[simp] theorem State.mark_ctxbase (s : State) (c v a : Nat) : (s.mark c v a).ctxbase = s.ctxbase := rfl
@[simp] theorem State.mark_qtbase (s : State) (c v a : Nat) : (s.mark c v a).qtbase = s.qtbase := rfl
@[simp] theorem State.mark_ctxen (s : State) (c v a : Nat) : (s.mark c v a).ctxen = s.ctxen := rfl
@[simp] theorem State.mark_ctxerr (s : State) (c v a : Nat) : (s.mark c v a).ctxerr = s.ctxerr := rfl
@[simp] theorem State.mark_ctxovr (s : State) (c v a : Nat) : (s.mark c v a).ctxovr = s.ctxovr := rfl
@[simp] theorem State.mark_queues (s : State) (c v a : Nat) : (s.mark c v a).queues = s.queues := rfl
@[simp] theorem State.mark_stalled (s : State) (c v a : Nat) : (s.mark c v a).stalled = s.stalled := rfl
@[simp] theorem State.mark_trpend (s : State) (c v a : Nat) : (s.mark c v a).trpend = s.trpend := rfl
@[simp] theorem State.mark_tlbinv (s : State) (c v a : Nat) : (s.mark c v a).tlbinv = s.tlbinv := rfl
@[simp] theorem State.mark_tlbJobs (s : State) (c v a : Nat) : (s.mark c v a).tlbJobs = s.tlbJobs := rfl
@[simp] theorem State.mark_dieTlb (s : State) (c v a : Nat) : (s.mark c v a).dieTlb = s.dieTlb := rfl
@[simp] theorem State.mark_walks (s : State) (c v a : Nat) : (s.mark c v a).walks = s.walks := rfl
@[simp] theorem State.mark_repair (s : State) (c v a : Nat) : (s.mark c v a).repair = s.repair := rfl
@[simp] theorem State.mark_remap (s : State) (c v a : Nat) : (s.mark c v a).remap = s.remap := rfl
@[simp] theorem State.mark_devid (s : State) (c v a : Nat) : (s.mark c v a).devid = s.devid := rfl
@[simp] theorem State.mark_fgbase (s : State) (c v a : Nat) : (s.mark c v a).fgbase = s.fgbase := rfl
@[simp] theorem State.mark_pcfg (s : State) (c v a : Nat) : (s.mark c v a).pcfg = s.pcfg := rfl
@[simp] theorem State.mark_flows (s : State) (c v a : Nat) : (s.mark c v a).flows = s.flows := rfl
@[simp] theorem State.mark_msem (s : State) (c v a : Nat) : (s.mark c v a).msem = s.msem := rfl
@[simp] theorem State.mark_memerr (s : State) (c v a : Nat) : (s.mark c v a).memerr = s.memerr := rfl
@[simp] theorem State.mark_iroute (s : State) (c v a : Nat) : (s.mark c v a).iroute = s.iroute := rfl
@[simp] theorem State.mark_irqHeld (s : State) (c v a : Nat) : (s.mark c v a).irqHeld = s.irqHeld := rfl
@[simp] theorem State.mark_irqSent (s : State) (c v a : Nat) : (s.mark c v a).irqSent = s.irqSent := rfl
@[simp] theorem State.mark_hartErr (s : State) (c v a : Nat) : (s.mark c v a).hartErr = s.hartErr := rfl
@[simp] theorem State.mark_hartOut (s : State) (c v a : Nat) : (s.mark c v a).hartOut = s.hartOut := rfl
@[simp] theorem State.mark_hartGate (s : State) (c v a : Nat) : (s.mark c v a).hartGate = s.hartGate := rfl
@[simp] theorem State.mark_badBeats (s : State) (c v a : Nat) : (s.mark c v a).badBeats = s.badBeats := rfl
@[simp] theorem State.mark_mgmtOut (s : State) (c v a : Nat) : (s.mark c v a).mgmtOut = s.mgmtOut := rfl
@[simp] theorem State.mark_mgmtSig (s : State) (c v a : Nat) : (s.mark c v a).mgmtSig = s.mgmtSig := rfl
@[simp] theorem State.mark_acksOut (s : State) (c v a : Nat) : (s.mark c v a).acksOut = s.acksOut := rfl
@[simp] theorem State.mark_amvin (s : State) (c v a : Nat) : (s.mark c v a).amvin = s.amvin := rfl
@[simp] theorem State.mark_alarm (s : State) (c v a : Nat) : (s.mark c v a).alarm = s.alarm := rfl
@[simp] theorem State.mark_inbox (s : State) (c v a : Nat) : (s.mark c v a).inbox = s.inbox := rfl

/-! ### State.take -/

@[simp] theorem State.take_agenda (s : State) (k : Nat) : (s.take k).agenda = s.agenda := rfl
@[simp] theorem State.take_phase (s : State) (k : Nat) : (s.take k).phase = s.phase := rfl
@[simp] theorem State.take_phCore (s : State) (k : Nat) : (s.take k).phCore = s.phCore := rfl
@[simp] theorem State.take_clock (s : State) (k : Nat) : (s.take k).clock = s.clock := rfl
@[simp] theorem State.take_freeCtr (s : State) (k : Nat) : (s.take k).freeCtr = s.freeCtr := rfl
@[simp] theorem State.take_nextId (s : State) (k : Nat) : (s.take k).nextId = s.nextId := rfl
@[simp] theorem State.take_parts (s : State) (k : Nat) : (s.take k).parts = s.parts := rfl
@[simp] theorem State.take_cores (s : State) (k : Nat) : (s.take k).cores = s.cores := rfl
@[simp] theorem State.take_clusters (s : State) (k : Nat) : (s.take k).clusters = s.clusters := rfl
@[simp] theorem State.take_kernels (s : State) (k : Nat) : (s.take k).kernels = s.kernels := rfl
@[simp] theorem State.take_ctxs (s : State) (k : Nat) : (s.take k).ctxs = s.ctxs := rfl
@[simp] theorem State.take_gathers (s : State) (k : Nat) : (s.take k).gathers = s.gathers := rfl
@[simp] theorem State.take_hbm (s : State) (k : Nat) : (s.take k).hbm = s.hbm := rfl
@[simp] theorem State.take_peers (s : State) (k : Nat) : (s.take k).peers = s.peers := rfl
@[simp] theorem State.take_resv (s : State) (k : Nat) : (s.take k).resv = s.resv := rfl
@[simp] theorem State.take_ctxbase (s : State) (k : Nat) : (s.take k).ctxbase = s.ctxbase := rfl
@[simp] theorem State.take_qtbase (s : State) (k : Nat) : (s.take k).qtbase = s.qtbase := rfl
@[simp] theorem State.take_ctxen (s : State) (k : Nat) : (s.take k).ctxen = s.ctxen := rfl
@[simp] theorem State.take_ctxerr (s : State) (k : Nat) : (s.take k).ctxerr = s.ctxerr := rfl
@[simp] theorem State.take_ctxovr (s : State) (k : Nat) : (s.take k).ctxovr = s.ctxovr := rfl
@[simp] theorem State.take_queues (s : State) (k : Nat) : (s.take k).queues = s.queues := rfl
@[simp] theorem State.take_stalled (s : State) (k : Nat) : (s.take k).stalled = s.stalled := rfl
@[simp] theorem State.take_trpend (s : State) (k : Nat) : (s.take k).trpend = s.trpend := rfl
@[simp] theorem State.take_tlbinv (s : State) (k : Nat) : (s.take k).tlbinv = s.tlbinv := rfl
@[simp] theorem State.take_tlbJobs (s : State) (k : Nat) : (s.take k).tlbJobs = s.tlbJobs := rfl
@[simp] theorem State.take_dieTlb (s : State) (k : Nat) : (s.take k).dieTlb = s.dieTlb := rfl
@[simp] theorem State.take_walks (s : State) (k : Nat) : (s.take k).walks = s.walks := rfl
@[simp] theorem State.take_repair (s : State) (k : Nat) : (s.take k).repair = s.repair := rfl
@[simp] theorem State.take_remap (s : State) (k : Nat) : (s.take k).remap = s.remap := rfl
@[simp] theorem State.take_devid (s : State) (k : Nat) : (s.take k).devid = s.devid := rfl
@[simp] theorem State.take_fgbase (s : State) (k : Nat) : (s.take k).fgbase = s.fgbase := rfl
@[simp] theorem State.take_pcfg (s : State) (k : Nat) : (s.take k).pcfg = s.pcfg := rfl
@[simp] theorem State.take_flows (s : State) (k : Nat) : (s.take k).flows = s.flows := rfl
@[simp] theorem State.take_msem (s : State) (k : Nat) : (s.take k).msem = s.msem := rfl
@[simp] theorem State.take_memerr (s : State) (k : Nat) : (s.take k).memerr = s.memerr := rfl
@[simp] theorem State.take_iroute (s : State) (k : Nat) : (s.take k).iroute = s.iroute := rfl
@[simp] theorem State.take_irqHeld (s : State) (k : Nat) : (s.take k).irqHeld = s.irqHeld := rfl
@[simp] theorem State.take_irqSent (s : State) (k : Nat) : (s.take k).irqSent = s.irqSent := rfl
@[simp] theorem State.take_hartErr (s : State) (k : Nat) : (s.take k).hartErr = s.hartErr := rfl
@[simp] theorem State.take_hartOut (s : State) (k : Nat) : (s.take k).hartOut = s.hartOut := rfl
@[simp] theorem State.take_hartGate (s : State) (k : Nat) : (s.take k).hartGate = s.hartGate := rfl
@[simp] theorem State.take_badBeats (s : State) (k : Nat) : (s.take k).badBeats = s.badBeats := rfl
@[simp] theorem State.take_mgmtOut (s : State) (k : Nat) : (s.take k).mgmtOut = s.mgmtOut := rfl
@[simp] theorem State.take_mgmtSig (s : State) (k : Nat) : (s.take k).mgmtSig = s.mgmtSig := rfl
@[simp] theorem State.take_acksOut (s : State) (k : Nat) : (s.take k).acksOut = s.acksOut := rfl
@[simp] theorem State.take_amvin (s : State) (k : Nat) : (s.take k).amvin = s.amvin := rfl
@[simp] theorem State.take_alarm (s : State) (k : Nat) : (s.take k).alarm = s.alarm := rfl
@[simp] theorem State.take_inbox (s : State) (k : Nat) : (s.take k).inbox = s.inbox := rfl

@[simp] theorem State.setPart_parts (s : State) (p : Nat) (x : Part) :
    (s.setPart p x).parts = Cells.put p x s.parts := rfl
@[simp] theorem State.setCore_cores (s : State) (n : Nat) (x : Core) :
    (s.setCore n x).cores = Cells.put n x s.cores := rfl
@[simp] theorem State.updCur_cur (s : State) (f : Cursor → Cursor) : (s.updCur f).cur = f s.cur := rfl

/-! ### State.draw and emit -/

@[simp] theorem State.draw_fst (n : Nat) (s : State) : (s.draw n).1 = Config.freeNat s.freeCtr % n := rfl
@[simp] theorem State.draw_freeCtr (n : Nat) (s : State) : (s.draw n).2.freeCtr = s.freeCtr + 1 := rfl
@[simp] theorem State.draw_agenda (n : Nat) (s : State) : (s.draw n).2.agenda = s.agenda := rfl
@[simp] theorem State.draw_phase (n : Nat) (s : State) : (s.draw n).2.phase = s.phase := rfl
@[simp] theorem State.draw_phCore (n : Nat) (s : State) : (s.draw n).2.phCore = s.phCore := rfl
@[simp] theorem State.draw_clock (n : Nat) (s : State) : (s.draw n).2.clock = s.clock := rfl
@[simp] theorem State.draw_cur (n : Nat) (s : State) : (s.draw n).2.cur = s.cur := rfl
@[simp] theorem State.draw_nextId (n : Nat) (s : State) : (s.draw n).2.nextId = s.nextId := rfl
@[simp] theorem State.draw_parts (n : Nat) (s : State) : (s.draw n).2.parts = s.parts := rfl
@[simp] theorem State.draw_cores (n : Nat) (s : State) : (s.draw n).2.cores = s.cores := rfl
@[simp] theorem State.draw_clusters (n : Nat) (s : State) : (s.draw n).2.clusters = s.clusters := rfl
@[simp] theorem State.draw_kernels (n : Nat) (s : State) : (s.draw n).2.kernels = s.kernels := rfl
@[simp] theorem State.draw_ctxs (n : Nat) (s : State) : (s.draw n).2.ctxs = s.ctxs := rfl
@[simp] theorem State.draw_gathers (n : Nat) (s : State) : (s.draw n).2.gathers = s.gathers := rfl
@[simp] theorem State.draw_hbm (n : Nat) (s : State) : (s.draw n).2.hbm = s.hbm := rfl
@[simp] theorem State.draw_peers (n : Nat) (s : State) : (s.draw n).2.peers = s.peers := rfl
@[simp] theorem State.draw_resv (n : Nat) (s : State) : (s.draw n).2.resv = s.resv := rfl
@[simp] theorem State.draw_ctxbase (n : Nat) (s : State) : (s.draw n).2.ctxbase = s.ctxbase := rfl
@[simp] theorem State.draw_qtbase (n : Nat) (s : State) : (s.draw n).2.qtbase = s.qtbase := rfl
@[simp] theorem State.draw_ctxen (n : Nat) (s : State) : (s.draw n).2.ctxen = s.ctxen := rfl
@[simp] theorem State.draw_ctxerr (n : Nat) (s : State) : (s.draw n).2.ctxerr = s.ctxerr := rfl
@[simp] theorem State.draw_ctxovr (n : Nat) (s : State) : (s.draw n).2.ctxovr = s.ctxovr := rfl
@[simp] theorem State.draw_queues (n : Nat) (s : State) : (s.draw n).2.queues = s.queues := rfl
@[simp] theorem State.draw_stalled (n : Nat) (s : State) : (s.draw n).2.stalled = s.stalled := rfl
@[simp] theorem State.draw_trpend (n : Nat) (s : State) : (s.draw n).2.trpend = s.trpend := rfl
@[simp] theorem State.draw_tlbinv (n : Nat) (s : State) : (s.draw n).2.tlbinv = s.tlbinv := rfl
@[simp] theorem State.draw_tlbJobs (n : Nat) (s : State) : (s.draw n).2.tlbJobs = s.tlbJobs := rfl
@[simp] theorem State.draw_dieTlb (n : Nat) (s : State) : (s.draw n).2.dieTlb = s.dieTlb := rfl
@[simp] theorem State.draw_walks (n : Nat) (s : State) : (s.draw n).2.walks = s.walks := rfl
@[simp] theorem State.draw_repair (n : Nat) (s : State) : (s.draw n).2.repair = s.repair := rfl
@[simp] theorem State.draw_remap (n : Nat) (s : State) : (s.draw n).2.remap = s.remap := rfl
@[simp] theorem State.draw_devid (n : Nat) (s : State) : (s.draw n).2.devid = s.devid := rfl
@[simp] theorem State.draw_fgbase (n : Nat) (s : State) : (s.draw n).2.fgbase = s.fgbase := rfl
@[simp] theorem State.draw_pcfg (n : Nat) (s : State) : (s.draw n).2.pcfg = s.pcfg := rfl
@[simp] theorem State.draw_flows (n : Nat) (s : State) : (s.draw n).2.flows = s.flows := rfl
@[simp] theorem State.draw_msem (n : Nat) (s : State) : (s.draw n).2.msem = s.msem := rfl
@[simp] theorem State.draw_memerr (n : Nat) (s : State) : (s.draw n).2.memerr = s.memerr := rfl
@[simp] theorem State.draw_iroute (n : Nat) (s : State) : (s.draw n).2.iroute = s.iroute := rfl
@[simp] theorem State.draw_irqHeld (n : Nat) (s : State) : (s.draw n).2.irqHeld = s.irqHeld := rfl
@[simp] theorem State.draw_irqSent (n : Nat) (s : State) : (s.draw n).2.irqSent = s.irqSent := rfl
@[simp] theorem State.draw_hartErr (n : Nat) (s : State) : (s.draw n).2.hartErr = s.hartErr := rfl
@[simp] theorem State.draw_hartOut (n : Nat) (s : State) : (s.draw n).2.hartOut = s.hartOut := rfl
@[simp] theorem State.draw_hartGate (n : Nat) (s : State) : (s.draw n).2.hartGate = s.hartGate := rfl
@[simp] theorem State.draw_badBeats (n : Nat) (s : State) : (s.draw n).2.badBeats = s.badBeats := rfl
@[simp] theorem State.draw_mgmtOut (n : Nat) (s : State) : (s.draw n).2.mgmtOut = s.mgmtOut := rfl
@[simp] theorem State.draw_mgmtSig (n : Nat) (s : State) : (s.draw n).2.mgmtSig = s.mgmtSig := rfl
@[simp] theorem State.draw_acksOut (n : Nat) (s : State) : (s.draw n).2.acksOut = s.acksOut := rfl
@[simp] theorem State.draw_amvin (n : Nat) (s : State) : (s.draw n).2.amvin = s.amvin := rfl
@[simp] theorem State.draw_alarm (n : Nat) (s : State) : (s.draw n).2.alarm = s.alarm := rfl
@[simp] theorem State.draw_inbox (n : Nat) (s : State) : (s.draw n).2.inbox = s.inbox := rfl
@[simp] theorem emit_agenda (l f : Nat) (a : LandAct) (s : State) : (emit l f a s).agenda = s.agenda := rfl
@[simp] theorem emit_phase (l f : Nat) (a : LandAct) (s : State) : (emit l f a s).phase = s.phase := rfl
@[simp] theorem emit_phCore (l f : Nat) (a : LandAct) (s : State) : (emit l f a s).phCore = s.phCore := rfl
@[simp] theorem emit_clock (l f : Nat) (a : LandAct) (s : State) : (emit l f a s).clock = s.clock := rfl
@[simp] theorem emit_freeCtr (l f : Nat) (a : LandAct) (s : State) : (emit l f a s).freeCtr = s.freeCtr := rfl
@[simp] theorem emit_nextId (l f : Nat) (a : LandAct) (s : State) : (emit l f a s).nextId = s.nextId := rfl
@[simp] theorem emit_parts (l f : Nat) (a : LandAct) (s : State) : (emit l f a s).parts = s.parts := rfl
@[simp] theorem emit_cores (l f : Nat) (a : LandAct) (s : State) : (emit l f a s).cores = s.cores := rfl
@[simp] theorem emit_clusters (l f : Nat) (a : LandAct) (s : State) : (emit l f a s).clusters = s.clusters := rfl
@[simp] theorem emit_kernels (l f : Nat) (a : LandAct) (s : State) : (emit l f a s).kernels = s.kernels := rfl
@[simp] theorem emit_ctxs (l f : Nat) (a : LandAct) (s : State) : (emit l f a s).ctxs = s.ctxs := rfl
@[simp] theorem emit_gathers (l f : Nat) (a : LandAct) (s : State) : (emit l f a s).gathers = s.gathers := rfl
@[simp] theorem emit_hbm (l f : Nat) (a : LandAct) (s : State) : (emit l f a s).hbm = s.hbm := rfl
@[simp] theorem emit_peers (l f : Nat) (a : LandAct) (s : State) : (emit l f a s).peers = s.peers := rfl
@[simp] theorem emit_resv (l f : Nat) (a : LandAct) (s : State) : (emit l f a s).resv = s.resv := rfl
@[simp] theorem emit_ctxbase (l f : Nat) (a : LandAct) (s : State) : (emit l f a s).ctxbase = s.ctxbase := rfl
@[simp] theorem emit_qtbase (l f : Nat) (a : LandAct) (s : State) : (emit l f a s).qtbase = s.qtbase := rfl
@[simp] theorem emit_ctxen (l f : Nat) (a : LandAct) (s : State) : (emit l f a s).ctxen = s.ctxen := rfl
@[simp] theorem emit_ctxerr (l f : Nat) (a : LandAct) (s : State) : (emit l f a s).ctxerr = s.ctxerr := rfl
@[simp] theorem emit_ctxovr (l f : Nat) (a : LandAct) (s : State) : (emit l f a s).ctxovr = s.ctxovr := rfl
@[simp] theorem emit_queues (l f : Nat) (a : LandAct) (s : State) : (emit l f a s).queues = s.queues := rfl
@[simp] theorem emit_stalled (l f : Nat) (a : LandAct) (s : State) : (emit l f a s).stalled = s.stalled := rfl
@[simp] theorem emit_trpend (l f : Nat) (a : LandAct) (s : State) : (emit l f a s).trpend = s.trpend := rfl
@[simp] theorem emit_tlbinv (l f : Nat) (a : LandAct) (s : State) : (emit l f a s).tlbinv = s.tlbinv := rfl
@[simp] theorem emit_tlbJobs (l f : Nat) (a : LandAct) (s : State) : (emit l f a s).tlbJobs = s.tlbJobs := rfl
@[simp] theorem emit_dieTlb (l f : Nat) (a : LandAct) (s : State) : (emit l f a s).dieTlb = s.dieTlb := rfl
@[simp] theorem emit_walks (l f : Nat) (a : LandAct) (s : State) : (emit l f a s).walks = s.walks := rfl
@[simp] theorem emit_repair (l f : Nat) (a : LandAct) (s : State) : (emit l f a s).repair = s.repair := rfl
@[simp] theorem emit_remap (l f : Nat) (a : LandAct) (s : State) : (emit l f a s).remap = s.remap := rfl
@[simp] theorem emit_devid (l f : Nat) (a : LandAct) (s : State) : (emit l f a s).devid = s.devid := rfl
@[simp] theorem emit_fgbase (l f : Nat) (a : LandAct) (s : State) : (emit l f a s).fgbase = s.fgbase := rfl
@[simp] theorem emit_pcfg (l f : Nat) (a : LandAct) (s : State) : (emit l f a s).pcfg = s.pcfg := rfl
@[simp] theorem emit_flows (l f : Nat) (a : LandAct) (s : State) : (emit l f a s).flows = s.flows := rfl
@[simp] theorem emit_msem (l f : Nat) (a : LandAct) (s : State) : (emit l f a s).msem = s.msem := rfl
@[simp] theorem emit_memerr (l f : Nat) (a : LandAct) (s : State) : (emit l f a s).memerr = s.memerr := rfl
@[simp] theorem emit_iroute (l f : Nat) (a : LandAct) (s : State) : (emit l f a s).iroute = s.iroute := rfl
@[simp] theorem emit_irqHeld (l f : Nat) (a : LandAct) (s : State) : (emit l f a s).irqHeld = s.irqHeld := rfl
@[simp] theorem emit_irqSent (l f : Nat) (a : LandAct) (s : State) : (emit l f a s).irqSent = s.irqSent := rfl
@[simp] theorem emit_hartErr (l f : Nat) (a : LandAct) (s : State) : (emit l f a s).hartErr = s.hartErr := rfl
@[simp] theorem emit_hartOut (l f : Nat) (a : LandAct) (s : State) : (emit l f a s).hartOut = s.hartOut := rfl
@[simp] theorem emit_hartGate (l f : Nat) (a : LandAct) (s : State) : (emit l f a s).hartGate = s.hartGate := rfl
@[simp] theorem emit_badBeats (l f : Nat) (a : LandAct) (s : State) : (emit l f a s).badBeats = s.badBeats := rfl
@[simp] theorem emit_mgmtOut (l f : Nat) (a : LandAct) (s : State) : (emit l f a s).mgmtOut = s.mgmtOut := rfl
@[simp] theorem emit_mgmtSig (l f : Nat) (a : LandAct) (s : State) : (emit l f a s).mgmtSig = s.mgmtSig := rfl
@[simp] theorem emit_acksOut (l f : Nat) (a : LandAct) (s : State) : (emit l f a s).acksOut = s.acksOut := rfl
@[simp] theorem emit_amvin (l f : Nat) (a : LandAct) (s : State) : (emit l f a s).amvin = s.amvin := rfl
@[simp] theorem emit_alarm (l f : Nat) (a : LandAct) (s : State) : (emit l f a s).alarm = s.alarm := rfl
@[simp] theorem emit_inbox (l f : Nat) (a : LandAct) (s : State) : (emit l f a s).inbox = s.inbox := rfl

theorem emit_cur (l f : Nat) (a : LandAct) (s : State) :
    (emit l f a s).cur = { s.cur with out := s.cur.out ++
      [⟨(s.core s.cur.core).tick + l, (s.core s.cur.core).tick, s.cur.gpi, s.cur.slot, f, a⟩] } := rfl

end Sys2Proof.Machine
end

