-- ==== Sys2Proof/Laws/Cells.lean ====
section
/-!
SUPPORT. Numbered cells and byte memories: a read after a write, and the canonical form that every memory operation
keeps.
-/

namespace Sys2Proof.Machine

/-! ### Cells -/

@[simp] theorem Cells.get_put_self {α : Type} (d : α) (k : Nat) (v : α) (c : Cells α) :
    Cells.get d k (Cells.put k v c) = v := by
  induction c with
  | nil => simp [Cells.put, Cells.get]
  | cons x r ih =>
    obtain ⟨j, w⟩ := x
    simp only [Cells.put]
    split
    · simp [Cells.get]
    · split
      · simp [Cells.get]
      · simp [Cells.get, *]

@[simp] theorem Cells.get_put_other {α : Type} (d : α) (k j : Nat) (v : α) (c : Cells α) (h : j ≠ k) :
    Cells.get d j (Cells.put k v c) = Cells.get d j c := by
  induction c with
  | nil => simp [Cells.put, Cells.get, h]
  | cons x r ih =>
    obtain ⟨i, w⟩ := x
    simp only [Cells.put]
    split
    · subst_vars; simp [Cells.get, h]
    · split
      · simp [Cells.get, h]
      · simp [Cells.get, ih]

theorem Cells.get_put {α : Type} (d : α) (k j : Nat) (v : α) (c : Cells α) :
    Cells.get d j (Cells.put k v c) = if j = k then v else Cells.get d j c := by
  split
  · subst_vars; simp
  · simp [*]

/-! ### Parts and cores -/

theorem State.part_updPart (s : State) (p q : Nat) (f : Part → Part) :
    (s.updPart p f).part q = if q = p then f (s.part p) else s.part q := by
  unfold State.updPart State.setPart State.part
  rw [Cells.get_put]

theorem State.core_updCore (s : State) (n m : Nat) (f : Core → Core) :
    (s.updCore n f).core m = if m = n then f (s.core n) else s.core m := by
  unfold State.updCore State.setCore State.core
  rw [Cells.get_put]

@[simp] theorem State.part_updCore (s : State) (n q : Nat) (f : Core → Core) : (s.updCore n f).part q = s.part q := rfl
@[simp] theorem State.core_updPart (s : State) (p m : Nat) (f : Part → Part) : (s.updPart p f).core m = s.core m := rfl
@[simp] theorem State.part_updCur (s : State) (q : Nat) (f : Cursor → Cursor) : (s.updCur f).part q = s.part q := rfl
@[simp] theorem State.core_updCur (s : State) (m : Nat) (f : Cursor → Cursor) : (s.updCur f).core m = s.core m := rfl
@[simp] theorem State.part_mark (s : State) (q c v a : Nat) : (s.mark c v a).part q = s.part q := rfl
@[simp] theorem State.core_mark (s : State) (m c v a : Nat) : (s.mark c v a).core m = s.core m := rfl

/-! ### Byte memories -/

theorem rising_bound {lo : Nat} {l : List Host.Cell} (h : rising (some lo) l = true) : ∀ c ∈ l, lo < c.1 := by
  induction l generalizing lo with
  | nil => simp
  | cons x r ih =>
    obtain ⟨b, v⟩ := x
    simp only [rising, Bool.and_eq_true, decide_eq_true_eq] at h
    intro c hc
    rcases List.mem_cons.mp hc with rfl | hc
    · exact h.1
    · exact Nat.lt_trans h.1 (ih h.2 c hc)

theorem rising_of_none {l : List Host.Cell} (h : rising none l = true) {lo : Nat} (hl : ∀ c ∈ l, lo < c.1) :
    rising (some lo) l = true := by
  cases l with
  | nil => rfl
  | cons x r =>
    obtain ⟨b, v⟩ := x
    simp only [rising, Bool.and_eq_true, decide_eq_true_eq]
    exact ⟨hl (b, v) (by simp), by simpa [rising] using h⟩

theorem rising_to_none {lo : Nat} {l : List Host.Cell} (h : rising (some lo) l = true) : rising none l = true := by
  cases l with
  | nil => rfl
  | cons x r =>
    obtain ⟨b, v⟩ := x
    simp only [rising, Bool.and_eq_true, decide_eq_true_eq] at h
    simpa [rising] using h.2

/-- The addresses after a byte is placed are those before it and its own. -/
theorem placeByte_mem {d : W8} {a : Nat} {v : W8} {l : List Host.Cell} {c : Host.Cell} (h : c ∈ placeByte d a v l) :
    (c = (a, v) ∧ v ≠ d) ∨ (c ∈ l) := by
  induction l with
  | nil =>
    simp only [placeByte] at h
    split at h
    · simp at h
    · exact .inl ⟨by simpa using h, ‹_›⟩
  | cons x r ih =>
    obtain ⟨b, w⟩ := x
    simp only [placeByte] at h
    split at h
    · split at h
      · exact .inr (List.mem_cons_of_mem _ h)
      · rcases List.mem_cons.mp h with rfl | h
        · exact .inl ⟨rfl, ‹_›⟩
        · exact .inr (List.mem_cons_of_mem _ h)
    · split at h
      · split at h
        · exact .inr h
        · rcases List.mem_cons.mp h with rfl | h
          · exact .inl ⟨rfl, ‹_›⟩
          · exact .inr h
      · rcases List.mem_cons.mp h with rfl | h
        · exact .inr (by simp)
        · rcases ih h with h | h
          · exact .inl h
          · exact .inr (List.mem_cons_of_mem _ h)

theorem placeByte_rising {d : W8} {a : Nat} {v : W8} {l : List Host.Cell} (h : rising none l = true) :
    rising none (placeByte d a v l) = true := by
  induction l with
  | nil => simp only [placeByte]; split <;> simp [rising]
  | cons x r ih =>
    obtain ⟨b, w⟩ := x
    have hr : rising (some b) r = true := by simpa [rising] using h
    simp only [placeByte]
    split
    · subst_vars
      split
      · exact rising_to_none hr
      · simpa [rising] using hr
    · split
      · split
        · exact h
        · simp only [rising, Bool.and_eq_true, decide_eq_true_eq]
          exact ⟨‹_›, hr⟩
      · have ht := ih (rising_to_none hr)
        simp only [rising]
        refine rising_of_none ht fun c hc => ?_
        rcases placeByte_mem hc with ⟨rfl, _⟩ | hc
        · omega
        · exact rising_bound hr c hc

@[simp] theorem Mem.write_fill (m : Mem) (a : Nat) (v : W8) : (m.write a v).fill = m.fill := rfl
@[simp] theorem Mem.write_dflt (m : Mem) (a b : Nat) (v : W8) : (m.write a v).dflt b = m.dflt b := rfl

/-- A write of one byte keeps the canonical form. -/
theorem Mem.write_wf (m : Mem) (a : Nat) (v : W8) (h : m.wf) : (m.write a v).wf := by
  refine ⟨placeByte_rising h.1, fun c hc => ?_⟩
  rcases placeByte_mem hc with ⟨rfl, hv⟩ | hc
  · simpa using hv
  · simpa using h.2 c hc

theorem Mem.writeBytes_wf (m : Mem) (a : Nat) (l : List W8) (h : m.wf) : (m.writeBytes a l).wf := by
  induction l generalizing m a with
  | nil => exact h
  | cons b r ih => exact ih _ _ (m.write_wf a b h)

theorem Mem.writeN_wf (m : Mem) (a n v : Nat) (h : m.wf) : (m.writeN a n v).wf := m.writeBytes_wf a _ h

theorem Mem.zero_wf : Mem.zero.wf := by decide

theorem Mem.filled_wf (n : Nat) : Mem.wf ⟨n, []⟩ := ⟨rfl, by simp⟩

theorem lookupByte_below {d : W8} {a : Nat} {l : List Host.Cell} (h : ∀ c ∈ l, a < c.1) : lookupByte d a l = d := by
  cases l with
  | nil => rfl
  | cons x r =>
    obtain ⟨b, v⟩ := x
    have hb : a < b := h (b, v) (by simp)
    simp only [lookupByte]
    rw [if_neg (by omega), if_pos hb]

theorem lookupByte_place_self {d : W8} {a : Nat} {v : W8} {l : List Host.Cell} (h : rising none l = true) :
    lookupByte d a (placeByte d a v l) = v := by
  induction l with
  | nil =>
    simp only [placeByte]
    split <;> simp_all [lookupByte]
  | cons x r ih =>
    obtain ⟨b, w⟩ := x
    have hr : rising (some b) r = true := by simpa [rising] using h
    simp only [placeByte]
    split
    · subst_vars
      split
      · subst_vars
        exact lookupByte_below (rising_bound hr)
      · simp [lookupByte]
    · split
      · split
        · subst_vars
          simp [lookupByte, *]
        · simp [lookupByte]
      · simp [lookupByte, *, ih (rising_to_none hr)]

theorem lookupByte_place_other {d e : W8} {a c : Nat} {v : W8} {l : List Host.Cell} (h : rising none l = true)
    (hc : c ≠ a) : lookupByte e c (placeByte d a v l) = lookupByte e c l := by
  induction l with
  | nil =>
    simp only [placeByte]
    split <;> simp [lookupByte, hc]
  | cons x r ih =>
    obtain ⟨b, w⟩ := x
    have hr : rising (some b) r = true := by simpa [rising] using h
    simp only [placeByte]
    split
    · subst_vars
      split
      · simp only [lookupByte, if_neg hc]
        split
        · exact lookupByte_below fun y hy => Nat.lt_trans ‹_› (rising_bound hr y hy)
        · rfl
      · simp [lookupByte, hc]
    · split
      · split
        · rfl
        · by_cases h1 : c < a
          · simp only [lookupByte, if_neg hc, if_pos h1]
            rw [if_neg (by omega), if_pos (by omega)]
          · simp only [lookupByte, if_neg hc, if_neg h1]
      · simp only [lookupByte, ih (rising_to_none hr)]

/-- A byte read after it was written. -/
theorem Mem.read_write_self (m : Mem) (a : Nat) (v : W8) (h : m.wf) : (m.write a v).read a = v :=
  lookupByte_place_self h.1

/-- A byte read after another was written. -/
theorem Mem.read_write_other (m : Mem) (a b : Nat) (v : W8) (h : m.wf) (hb : b ≠ a) :
    (m.write a v).read b = m.read b := lookupByte_place_other h.1 hb

/-- A byte read after bytes were written below or above it. -/
theorem Mem.read_writeBytes_other (m : Mem) (a b : Nat) (l : List W8) (h : m.wf) (hb : b < a ∨ a + l.length ≤ b) :
    (m.writeBytes a l).read b = m.read b := by
  induction l generalizing m a with
  | nil => rfl
  | cons x r ih =>
    simp only [List.length_cons] at hb
    rw [Mem.writeBytes, ih _ _ (m.write_wf a x h) (by omega), m.read_write_other a b x h (by omega)]

/-- A byte read after the list that covers it was written. -/
theorem Mem.read_writeBytes_in (m : Mem) (a i : Nat) (l : List W8) (h : m.wf) (hi : i < l.length) :
    (m.writeBytes a l).read (a + i) = l[i] := by
  induction l generalizing m a i with
  | nil => simp at hi
  | cons x r ih =>
    rw [Mem.writeBytes]
    cases i with
    | zero =>
      rw [Mem.read_writeBytes_other _ _ _ _ (m.write_wf a x h) (by omega), Nat.add_zero, m.read_write_self a x h]
      rfl
    | succ i =>
      have := ih (m.write a x) (a + 1) i (m.write_wf a x h) (by simpa using hi)
      simpa [Nat.add_assoc, Nat.add_comm 1 i] using this

/-- The memories of a core after reset are in canonical form. -/
theorem Core.initial_memories : Core.initial.imem.wf ∧ Core.initial.slice.wf ∧ Core.initial.side.wf := by decide

end Sys2Proof.Machine
end

