-- ==== Sys2Proof/Laws/Encoding.lean ====
section
/-!
SUPPORT. How a word is read: the fields of a number written digit by digit, lowest first, what each decoder asks of a word,
and the readings of the decoder's chains of tests.
-/

namespace Sys2Proof

/-! ### The fields of a number written digit by digit, lowest first -/

/-- A number from its digits, each a value and its bits. -/
def Digits.val : List (Nat × Nat) → Nat
  | [] => 0
  | (v, n) :: r => v + 2 ^ n * Digits.val r

/-- Every digit fits its bits. -/
inductive Digits.Fits : List (Nat × Nat) → Prop where
  | nil : Fits []
  | cons {v n : Nat} {r : List (Nat × Nat)} : v < 2 ^ n → Fits r → Fits ((v, n) :: r)

/-- The bits of the first i digits. -/
def Digits.off (ds : List (Nat × Nat)) (i : Nat) : Nat := ((ds.take i).map Prod.snd).sum

theorem fld_skip {v n x lo m : Nat} (h : v < 2 ^ n) : fld (v + 2 ^ n * x) (n + lo) m = fld x lo m := by
  unfold fld
  rw [Nat.pow_add, ← Nat.div_div_eq_div_mul, Nat.add_mul_div_left _ _ (Nat.two_pow_pos n), Nat.div_eq_of_lt h, Nat.zero_add]

theorem fld_lt {v n x m : Nat} (h : v < 2 ^ n) (k : x < 2 ^ m) : v + 2 ^ n * x < 2 ^ (n + m) := by
  rw [Nat.pow_add]
  calc v + 2 ^ n * x < 2 ^ n * (x + 1) := by rw [Nat.mul_add, Nat.mul_one, Nat.add_comm]; exact Nat.add_lt_add_left h _
    _ ≤ 2 ^ n * 2 ^ m := Nat.mul_le_mul_left _ k

open Digits in
/-- A field that digits i to i + j - 1 make up. -/
theorem fld_digits {ds : List (Nat × Nat)} (h : Fits ds) (i j : Nat) :
    fld (val ds) (off ds i) (off (ds.drop i) j) = val ((ds.drop i).take j) := by
  induction i generalizing ds with
  | zero =>
    show fld (val ds) 0 _ = _
    rw [List.drop_zero]
    induction j generalizing ds with
    | zero => simp [fld, off, val, Nat.mod_one]
    | succ j ih =>
      cases h with
      | nil => simp [fld, off, val]
      | @cons v n r hv hr =>
        have e : off ((v, n) :: r) (j + 1) = n + off r j := by simp [off]
        rw [e]
        show fld (v + 2 ^ n * val r) 0 (n + off r j) = v + 2 ^ n * val (r.take j)
        rw [← ih hr]
        unfold fld
        rw [Nat.pow_zero, Nat.div_one, Nat.div_one, Nat.pow_add, Nat.mod_mul, Nat.add_mul_mod_self_left, Nat.mod_eq_of_lt hv,
          Nat.add_mul_div_left _ _ (Nat.two_pow_pos n), Nat.div_eq_of_lt hv, Nat.zero_add]
  | succ i ih =>
    cases h with
    | nil => simp [fld, off, val]
    | @cons v n r hv hr =>
      have e : off ((v, n) :: r) (i + 1) = n + off r i := by simp [off]
      rw [e]
      show fld (v + 2 ^ n * val r) (n + off r i) (off (r.drop i) j) = val ((r.drop i).take j)
      rw [fld_skip hv, ih hr]

open Digits in
theorem val_lt {ds : List (Nat × Nat)} (h : Fits ds) : val ds < 2 ^ off ds ds.length := by
  induction h with
  | nil => exact Nat.one_pos
  | @cons v n r hv hr ih =>
    have e : off ((v, n) :: r) ((v, n) :: r).length = n + off r r.length := by simp [off]
    rw [e]; exact fld_lt hv ih

theorem Digits.of {ds : List (Nat × Nat)} {w x : Nat} (e : w = x) (_ : Digits.Fits ds) (h : x = Digits.val ds) :
    w = Digits.val ds := e.trans h

open Digits in
/-- A field of a number whose digits are known. -/
theorem fld_of {ds : List (Nat × Nat)} {w : Nat} (h : Fits ds) (e : w = val ds) (i j : Nat) :
    fld w (off ds i) (off (ds.drop i) j) = val ((ds.drop i).take j) := e ▸ fld_digits h i j

theorem b2n_lt (b : Bool) : b2n b < 2 ^ 1 := by cases b <;> decide

/-- A bit read as the one-bit field it is. -/
theorem bit_of {w k : Nat} {b : Bool} (h : fld w k 1 = b2n b) : bit w k = b := by
  have e : w / 2 ^ k % 2 = b2n b := h
  unfold bit; rw [e]; cases b <;> rfl

/-! ### What a class reads -/

/-- The slot-0 class reads w as i. -/
def Words.reads0 (w : Nat) (i : Instr) : Prop :=
  w < 2 ^ 32 ∧ ∃ m, fld w 24 6 = m ∧ majorReserved 0 m = false ∧ fld w 30 2 = 0 ∧ rows0 m w = some i

/-- The class of slots 1 and 3 reads w as i. -/
def Words.readsQ (w : Nat) (i : Instr) : Prop :=
  w < 2 ^ 32 ∧ ∃ m, fld w 26 6 = m ∧ majorReserved 3 m = false ∧ rows13 m w = some i

/-- The same, of a major that slot 1 has too. -/
def Words.reads1 (w : Nat) (i : Instr) : Prop :=
  w < 2 ^ 32 ∧ ∃ m, fld w 26 6 = m ∧ majorReserved 1 m = false ∧ rows13 m w = some i

/-- The slot-2 class reads w as i. -/
def Words.reads2 (w : Nat) (i : Instr) : Prop :=
  w < 2 ^ 32 ∧ ∃ m, fld w 26 6 = m ∧ majorReserved 2 m = false ∧ rows2 m w = some i

/-- The microsequencer reads w as i. -/
def Words.readsM (w : Nat) (i : Instr) : Prop :=
  w < 2 ^ 128 ∧ ∃ u, fld w 0 6 = u ∧ u < 0x18 ∧ microRow u w = some i

/-- The words of a well-formed instruction decode to it: in its slot class, in slot 3 as well where slot 1 takes it, and in the
microprogram store. -/
def Words.ReadBack (i : Instr) : Prop :=
  i.WellFormed → (∀ k, i.slotOf = some k → decodeSlot k (joinWords (encode i)) = .ok i) ∧
    (i.slotOf = some 1 → decodeSlot 3 (joinWords (encode i)) = .ok i) ∧
    ((encode i).length = 4 → decodeMicro (joinWords (encode i)) = .ok i)

theorem Words.join {i : Instr} (k0 : Option Nat) (n : Nat) (hs : i.slotOf = k0) (hn : (encode i).length = n)
    (a : ∀ k, k0 = some k → decodeSlot k (joinWords (encode i)) = .ok i)
    (b : k0 = some 1 → decodeSlot 3 (joinWords (encode i)) = .ok i)
    (c : n = 4 → decodeMicro (joinWords (encode i)) = .ok i) :
    (∀ k, i.slotOf = some k → decodeSlot k (joinWords (encode i)) = .ok i) ∧
    (i.slotOf = some 1 → decodeSlot 3 (joinWords (encode i)) = .ok i) ∧
    ((encode i).length = 4 → decodeMicro (joinWords (encode i)) = .ok i) := by
  subst hs hn; exact ⟨a, b, c⟩

theorem Words.ofNone {i : Instr} (h : i.slotOf = none) (e : (encode i).length = 0) : Words.ReadBack i :=
  fun _ => Words.join none 0 h e nofun nofun nofun

theorem decodeSlot_zero {w m : Nat} {i : Instr} (hw : w < 2 ^ 32) (hm : fld w 24 6 = m) (hr : majorReserved 0 m = false)
    (hf : fld w 30 2 = 0) (h : rows0 m w = some i) (hi : i.wf = true) : decodeSlot 0 w = .ok i := by
  unfold decodeSlot
  rw [if_pos rfl, hm, if_neg (by rw [hr, hf]; simp; omega)]
  show (match rows0 m w with | none => _ | some i => if i.wf then _ else _) = _
  rw [h]; exact if_pos hi

theorem decodeSlot_two {w m : Nat} {i : Instr} (hw : w < 2 ^ 32) (hm : fld w 26 6 = m) (hr : majorReserved 2 m = false)
    (h : rows2 m w = some i) (hi : i.wf = true) : decodeSlot 2 w = .ok i := by
  unfold decodeSlot
  rw [if_neg (show ¬((2 : Nat) = 0) by decide), hm, if_neg (by rw [hr]; simp; omega)]
  show (match rows2 m w with | none => _ | some i => if i.wf then _ else _) = _
  rw [h]; exact if_pos hi

theorem decodeSlot_one {w m : Nat} {i : Instr} (hw : w < 2 ^ 32) (hm : fld w 26 6 = m) (hr : majorReserved 1 m = false)
    (h : rows13 m w = some i) (hi : i.wf = true) : decodeSlot 1 w = .ok i := by
  unfold decodeSlot
  rw [if_neg (show ¬((1 : Nat) = 0) by decide), hm, if_neg (by rw [hr]; simp; omega)]
  show (match rows13 m w with | none => _ | some i => if i.wf then _ else _) = _
  rw [h]; exact if_pos hi

theorem decodeSlot_three {w m : Nat} {i : Instr} (hw : w < 2 ^ 32) (hm : fld w 26 6 = m) (hr : majorReserved 3 m = false)
    (h : rows13 m w = some i) (hi : i.wf = true) : decodeSlot 3 w = .ok i := by
  unfold decodeSlot
  rw [if_neg (show ¬((3 : Nat) = 0) by decide), hm, if_neg (by rw [hr]; simp; omega)]
  show (match rows13 m w with | none => _ | some i => if i.wf then _ else _) = _
  rw [h]; exact if_pos hi

theorem Words.ofSlot0 {i : Instr} (h : i.slotOf = some 0)
    (f : i.WellFormed → Words.reads0 (joinWords (encode i)) i)
    (e : (encode i).length = 1 := by rfl) : Words.ReadBack i := fun hw => by
  obtain ⟨h1, m, h2, h3, h4, h5⟩ := f hw
  refine Words.join (some 0) 1 h e (fun j hj => ?_) nofun nofun
  cases hj; exact decodeSlot_zero h1 h2 h3 h4 h5 hw

theorem Words.ofSlot1 {i : Instr} (h : i.slotOf = some 1)
    (f : i.WellFormed → Words.reads1 (joinWords (encode i)) i)
    (e : (encode i).length = 1 := by rfl) : Words.ReadBack i := fun hw => by
  obtain ⟨h1, m, h2, h3, h5⟩ := f hw
  have h4 : majorReserved 3 m = false := by
    simp only [majorReserved, decide_eq_false_iff_not] at h3 ⊢; omega
  refine Words.join (some 1) 1 h e (fun j hj => ?_) (fun _ => decodeSlot_three h1 h2 h4 h5 hw) nofun
  cases hj; exact decodeSlot_one h1 h2 h3 h5 hw

theorem Words.ofSlot2 {i : Instr} (h : i.slotOf = some 2)
    (f : i.WellFormed → Words.reads2 (joinWords (encode i)) i)
    (e : (encode i).length = 1 := by rfl) : Words.ReadBack i := fun hw => by
  obtain ⟨h1, m, h2, h3, h5⟩ := f hw
  refine Words.join (some 2) 1 h e (fun j hj => ?_) nofun nofun
  cases hj; exact decodeSlot_two h1 h2 h3 h5 hw

theorem Words.ofSlot3 {i : Instr} (h : i.slotOf = some 3)
    (f : i.WellFormed → Words.readsQ (joinWords (encode i)) i)
    (e : (encode i).length = 1 := by rfl) : Words.ReadBack i := fun hw => by
  obtain ⟨h1, m, h2, h3, h5⟩ := f hw
  refine Words.join (some 3) 1 h e (fun j hj => ?_) nofun nofun
  cases hj; exact decodeSlot_three h1 h2 h3 h5 hw

theorem Words.ofMicro {i : Instr} (h : i.slotOf = none)
    (f : i.WellFormed → Words.readsM (joinWords (encode i)) i)
    (e : (encode i).length = 4 := by rfl) : Words.ReadBack i := fun hw => by
  obtain ⟨h1, u, h2, h3, h5⟩ := f hw
  refine Words.join none 4 h e nofun nofun fun _ => ?_
  unfold decodeMicro
  rw [if_neg (by rw [h2]; omega), h2, h5]; exact if_pos hw

/-! ### The other way: what a chain of tests that answers has found -/

theorem Words.chain {c : Prop} [Decidable c] {a i : Instr} {r : Option Instr} (h : (if c then some a else r) = some i) :
    (c ∧ a = i) ∨ r = some i := by
  split at h
  · exact .inl ⟨‹_›, Option.some.inj h⟩
  · exact .inr h

theorem b2n_bit (w k : Nat) : b2n (bit w k) = w / 2 ^ k % 2 := by
  unfold b2n bit
  have : w / 2 ^ k % 2 < 2 := Nat.mod_lt _ (by decide)
  split <;> simp_all

end Sys2Proof
end

