-- ==== Sys2Proof/Laws/Ops.lean ====
section
/-!
SUPPORT. What each shared operation of the meanings can do: queue sources, results, checks, packed elements, the operand
forms, and a micro-operation on the running call.
-/

namespace Sys2Proof.Machine

/-! ### Updates made one after another -/

theorem Cells.put_put {α : Type} (k : Nat) (v w : α) (c : Cells α) : Cells.put k v (Cells.put k w c) = Cells.put k v c := by
  induction c with
  | nil => simp [Cells.put]
  | cons e r ih =>
    obtain ⟨j, x⟩ := e
    simp only [Cells.put]
    split
    · simp [Cells.put]
    · split
      · simp [Cells.put]
      · simp [Cells.put, *]

theorem State.updPart_updPart (s : State) (p : Nat) (f g : Part → Part) :
    (s.updPart p f).updPart p g = s.updPart p fun x => g (f x) := by
  simp only [State.updPart, State.setPart, State.part, Cells.get_put_self, Cells.put_put]

theorem State.updCore_updCore (s : State) (n : Nat) (f g : Core → Core) :
    (s.updCore n f).updCore n g = s.updCore n fun x => g (f x) := by
  simp only [State.updCore, State.setCore, State.core, Cells.get_put_self, Cells.put_put]

theorem State.updPart_updCore (s : State) (p n : Nat) (f : Part → Part) (g : Core → Core) :
    (s.updPart p f).updCore n g = (s.updCore n g).updPart p f := rfl

/-! ### Queue sources (R30) -/

/-- A source whose queue holds an entry that the bundle has not taken reads it. -/
theorem readS_entry {q : Nat} {k : Bool} {s : State} {v : W64} (h : (Cells.get [] q s.me.sq)[s.takenOf q]? = some v) :
    readS q k s = (v, if k then s else s.take q) := by
  unfold readS; rw [h]

/-- A source whose queue holds none reads 0 and marks the slot. -/
theorem readS_empty {q : Nat} {k : Bool} {s : State} (h : (Cells.get [] q s.me.sq)[s.takenOf q]? = none) :
    readS q k s = (0, s.mark causeUnderflow 0 0) := by
  unfold readS; rw [h]

theorem readV_entry {q : Nat} {k : Bool} {s : State} {v : V1024}
    (h : (Cells.get [] q s.me.vq)[s.takenOf (vkey q)]? = some v) :
    readV q k s = (v, if k then s else s.take (vkey q)) := by
  unfold readV; rw [h]

theorem readV_empty {q : Nat} {k : Bool} {s : State} (h : (Cells.get [] q s.me.vq)[s.takenOf (vkey q)]? = none) :
    readV q k s = (0, s.mark causeUnderflow 0 0) := by
  unfold readV; rw [h]

/-- A source changes nothing but the bundle in progress. -/
theorem readS_frame (q : Nat) (k : Bool) (s : State) : (readS q k s).2 = { s with cur := (readS q k s).2.cur } := by
  unfold readS; split
  · rfl
  · cases k <;> rfl

theorem readV_frame (q : Nat) (k : Bool) (s : State) : (readV q k s).2 = { s with cur := (readV q k s).2.cur } := by
  unfold readV; split
  · rfl
  · cases k <;> rfl

theorem readWords_frame (q n : Nat) (s : State) : (readWords q n s).2 = { s with cur := (readWords q n s).2.cur } := by
  induction n generalizing s with
  | zero => rfl
  | succ n ih => unfold readWords; simp only; rw [ih, readS_frame q false s]

/-! ### Results, checks and waits -/

theorem emit_eq (lat flags : Nat) (a : LandAct) (s : State) : emit lat flags a s = { s with cur := { s.cur with
    out := s.cur.out ++ [⟨(s.core s.cur.core).tick + lat, (s.core s.cur.core).tick, s.cur.gpi, s.cur.slot, flags, a⟩] } } := rfl

theorem State.check_true (s : State) (c : Nat) : s.check true c = s := rfl
theorem State.check_false (s : State) (c : Nat) : s.check false c = s.mark c 0 0 := rfl
theorem State.waitIf_false (s : State) : s.waitIf false = s := rfl

/-- Outside a predicate block the check of R85 leaves the state as it is. -/
theorem notCovered_of {s : State} (h : s.cur.covered = false) : notCovered s = s := by
  unfold notCovered; rw [h]; rfl

/-- Outside recording and replay a read gives its value and changes nothing (R308). -/
theorem recorded_plain {s : State} {kind v : Nat}
    (h : ∀ k, s.ctxOf s.cur.core = some k → (s.ctx k).recording = false ∧ (s.ctx k).replaying = false) :
    recorded kind v s = (v, s) := by
  unfold recorded
  split
  · rfl
  · obtain ⟨h1, h2⟩ := h _ ‹_›
    simp [h1, h2]

/-! ### Scalar forms -/

theorem scalar1_next {d a lat : Nat} {k : Bool} {f : W64 → W64} {s u : State} {x : W64} (h : readS a k s = (x, u)) :
    scalar1 d a k lat f s = .next (pushS d lat 0 (f x) u) := by
  unfold scalar1; rw [h]

theorem scalar2_next {d a b lat : Nat} {k m : Bool} {f : W64 → W64 → W64} {s u v : State} {x y : W64}
    (h : readS a k s = (x, u)) (g : readS b m u = (y, v)) : scalar2 d a b k m lat f s = .next (pushS d lat 0 (f x y) v) := by
  unfold scalar2; simp only [h, g]

theorem scalarFlag2_next {d a b lat : Nat} {k m : Bool} {f : W64 → W64 → W64 × Nat} {s u v : State} {x y : W64}
    (h : readS a k s = (x, u)) (g : readS b m u = (y, v)) :
    scalarFlag2 d a b k m lat f s = .next (pushS d lat (f x y).2 (f x y).1 v) := by
  unfold scalarFlag2; simp only [h, g]

theorem compare2_next {p a b lat : Nat} {k m : Bool} {f : W64 → W64 → Bool} {s u v : State} {x y : W64}
    (h : readS a k s = (x, u)) (g : readS b m u = (y, v)) :
    compare2 p a b k m lat f s = .next (writeP p lat (f x y) v) := by
  unfold compare2; simp only [h, g]

/-! ### Packed elements (R101) -/

theorem packNat_lt (b : Nat) (xs : List Nat) : packNat b xs < 2 ^ (b * xs.length) := by
  induction xs with
  | nil => simp [packNat]
  | cons x r ih =>
    have hx : x % 2 ^ b < 2 ^ b := Nat.mod_lt _ (Nat.two_pow_pos b)
    have hm : 2 ^ b * (packNat b r + 1) ≤ 2 ^ b * 2 ^ (b * r.length) := Nat.mul_le_mul_left _ ih
    rw [packNat, List.length_cons, Nat.mul_add, Nat.mul_one, Nat.add_comm (b * r.length), Nat.pow_add]
    rw [Nat.mul_add] at hm
    omega

theorem packNat_elem (b i : Nat) (xs : List Nat) (h : i < xs.length) :
    packNat b xs / 2 ^ (b * i) % 2 ^ b = xs[i] % 2 ^ b := by
  induction xs generalizing i with
  | nil => simp at h
  | cons x r ih =>
    cases i with
    | zero => simp [packNat, Nat.add_mul_mod_self_left]
    | succ i =>
      have hx : x % 2 ^ b < 2 ^ b := Nat.mod_lt _ (Nat.two_pow_pos b)
      rw [packNat, Nat.mul_add, Nat.mul_one, Nat.add_comm (b * i), Nat.pow_add, ← Nat.div_div_eq_div_mul,
        Nat.add_mul_div_left _ _ (Nat.two_pow_pos b), Nat.div_eq_of_lt hx, Nat.zero_add]
      exact ih i (by simpa using h)

/-- Element i of packed elements that fit an entry. -/
theorem elem_pack {b i : Nat} {xs : List Nat} (h : i < xs.length) (hb : b * xs.length ≤ 1024) :
    elem b i (pack b xs) = xs[i] % 2 ^ b := by
  have hlt : packNat b xs < 2 ^ 1024 := lt_of_lt_of_le (packNat_lt b xs) (Nat.pow_le_pow_right Nat.zero_lt_two hb)
  unfold elem pack
  rw [BitVec.toNat_ofNat, Nat.mod_eq_of_lt hlt]
  exact packNat_elem b i xs h

/-- Above the elements an entry is 0. -/
theorem pack_lt {b : Nat} {xs : List Nat} (hb : b * xs.length ≤ 1024) : (pack b xs).toNat < 2 ^ (b * xs.length) := by
  unfold pack
  rw [BitVec.toNat_ofNat, Nat.mod_eq_of_lt (lt_of_lt_of_le (packNat_lt b xs) (Nat.pow_le_pow_right Nat.zero_lt_two hb))]
  exact packNat_lt b xs

theorem mapElems_length (s : State) (be n : Nat) (f : Nat → Res) : (mapElems s be n f).length = n := by
  simp [mapElems]

/-- Element i of a masked list of results. -/
theorem mapElems_get (s : State) (be n i : Nat) (f : Nat → Res) (h : i < n) :
    (mapElems s be n f)[i]? = some (if s.enabled be i then f i else ⟨0, 0⟩) := by
  simp [mapElems, h]

/-- The flags of a masked list are those of its enabled elements. -/
theorem mapElems_flags (s : State) (be n : Nat) (f : Nat → Res) :
    orFlags (mapElems s be n f) = ((List.range n).filter (s.enabled be)).foldl (fun a i => a ||| (f i).flags) 0 := by
  suffices h : ∀ (l : List Nat) (z : Nat),
      (l.map fun i => if s.enabled be i then f i else ⟨0, 0⟩).foldl (fun a r => a ||| r.flags) z =
        (l.filter (s.enabled be)).foldl (fun a i => a ||| (f i).flags) z from h _ _
  intro l
  induction l with
  | nil => intro z; rfl
  | cons i r ih =>
    intro z
    cases hi : s.enabled be i
    · simpa [hi] using ih z
    · simpa [hi] using ih (z ||| (f i).flags)

/-! ### The running call -/

/-- A micro-operation acts on its core and that core's running call. -/
theorem micro_next {s : State} {k : Call} {f : Core → Call → State → State} (h : s.myCore.running = some k) :
    micro f s = .next (f s.myCore k s) := by
  unfold micro; rw [h]

/-- Without a running call it changes nothing. -/
theorem micro_none {s : State} {f : Core → Call → State → State} (h : s.myCore.running = none) : micro f s = .next s := by
  unfold micro; rw [h]

end Sys2Proof.Machine
end

