-- ==== Sys2Proof/Laws/Engine.lean ====
section
/-!
SUPPORT. What the shared operations of engine commands, and of the accesses of harts, do: choices and charges leave everything but their counts, an access that
nothing holds goes on at once, and a write at its owner changes that owner alone.
-/

namespace Sys2Proof.Machine

/-! ### Choices and charges -/

/-- A state that differs from s in free choices drawn, requests held, rows in use and amounts charged alone. -/
structure Calm (s t : State) : Prop where
  parts : t.parts = s.parts
  clusters : t.clusters = s.clusters
  kernels : t.kernels = s.kernels
  hbm : t.hbm = s.hbm
  peers : t.peers = s.peers
  nextId : t.nextId = s.nextId
  agenda : t.agenda = s.agenda
  devid : t.devid = s.devid
  core : ∀ n, ∃ g h r u, t.core n = { s.core n with charge := g, holds := h, rowsNow := r, tilesNow := u }
  ctx : ∀ k, ∃ u, t.ctx k = { s.ctx k with used := u }

theorem Calm.refl (s : State) : Calm s s := ⟨rfl, rfl, rfl, rfl, rfl, rfl, rfl, rfl, fun _ => ⟨_, _, _, _, rfl⟩, fun _ => ⟨_, rfl⟩⟩

theorem Calm.trans {s t u : State} (a : Calm s t) (b : Calm t u) : Calm s u := by
  refine ⟨b.parts.trans a.parts, b.clusters.trans a.clusters, b.kernels.trans a.kernels, b.hbm.trans a.hbm, b.peers.trans a.peers,
    b.nextId.trans a.nextId, b.agenda.trans a.agenda, b.devid.trans a.devid, fun n => ?_, fun k => ?_⟩
  · obtain ⟨_, _, _, _, e⟩ := a.core n
    obtain ⟨_, _, _, _, f⟩ := b.core n
    exact ⟨_, _, _, _, by rw [f, e]⟩
  · obtain ⟨_, e⟩ := a.ctx k
    obtain ⟨_, f⟩ := b.ctx k
    exact ⟨_, by rw [f, e]⟩

theorem Calm.part {s t : State} (h : Calm s t) (p : Nat) : t.part p = s.part p := by unfold State.part; rw [h.parts]
theorem Calm.cluster {s t : State} (h : Calm s t) (c : Nat) : t.cluster c = s.cluster c := by unfold State.cluster; rw [h.clusters]
theorem Calm.cmd {s t : State} (h : Calm s t) (p i : Nat) : t.cmd p i = s.cmd p i := by unfold State.cmd; rw [h.part]

theorem Calm.slice {s t : State} (h : Calm s t) (n : Nat) : (t.core n).slice = (s.core n).slice := by
  obtain ⟨_, _, _, _, e⟩ := h.core n
  rw [e]

theorem Calm.farNow {s t : State} (h : Calm s t) (n : Nat) : (t.core n).farNow = (s.core n).farNow := by
  obtain ⟨_, _, _, _, e⟩ := h.core n
  rw [e]

theorem Calm.mem {s t : State} (h : Calm s t) (o : Owner) : t.mem o = s.mem o := by
  cases o with
  | slice n => exact h.slice n
  | hbm => exact h.hbm
  | peer d => show Cells.get _ d t.peers = Cells.get _ d s.peers; rw [h.peers]

theorem Calm.seen {s t : State} (h : Calm s t) (g i : Nat) (o : Owner) : t.seen g i o = s.seen g i o := by
  cases o with
  | slice n => show (t.core n).seen g i = (s.core n).seen g i; unfold Core.seen; rw [h.slice, h.farNow]
  | hbm => exact h.hbm
  | peer d => exact h.mem (.peer d)

theorem Calm.ctxOf {s t : State} (h : Calm s t) (n : Nat) : t.ctxOf n = s.ctxOf n := by
  obtain ⟨_, _, _, _, e⟩ := h.core n
  unfold State.ctxOf State.kernel
  rw [e, h.kernels]

theorem Calm.lock {s t : State} (h : Calm s t) (n : Nat) : (t.core n).lock = (s.core n).lock := by
  obtain ⟨_, _, _, _, e⟩ := h.core n
  rw [e]

theorem Calm.where {s t : State} (h : Calm s t) (c : Cmd) (va : Nat) (wr : Bool) : c.whereIs t va wr = c.whereIs s va wr := by
  have e : ∀ k, (t.ctx k).clmask = (s.ctx k).clmask := fun k => by obtain ⟨_, e⟩ := h.ctx k; rw [e]; rfl
  have w : ∀ k, t.windowVa k va = s.windowVa k va := fun k => by
    unfold State.windowVa
    cases k with
    | none => rfl
    | some k => simp only [e]
  unfold Cmd.whereIs
  rw [h.ctxOf, w]

/-- A draw. -/
theorem Calm.drawn (s : State) (n : Nat) : Calm s (s.draw n).2 :=
  ⟨rfl, rfl, rfl, rfl, rfl, rfl, rfl, rfl, fun _ => ⟨_, _, _, _, rfl⟩, fun _ => ⟨_, rfl⟩⟩

/-- A choice of a command (R284). -/
theorem Calm.chosen (tag n : Nat) (c : Cmd) (s : State) : Calm s (c.choose tag n s).2 := by
  unfold Cmd.choose
  split
  · exact Calm.refl s
  · exact Calm.drawn s n

/-- A core's counts changed. -/
theorem Calm.counted (s : State) (n : Nat) (f : Core → Core)
    (hf : ∀ c, ∃ g h r u, f c = { c with charge := g, holds := h, rowsNow := r, tilesNow := u }) : Calm s (s.updCore n f) := by
  refine ⟨rfl, rfl, rfl, rfl, rfl, rfl, rfl, rfl, fun m => ?_, fun k => ⟨_, rfl⟩⟩
  rw [State.core_updCore]
  split
  · subst m; exact hf _
  · exact ⟨_, _, _, _, rfl⟩

theorem State.ctx_updCtx (s : State) (k j : Nat) (f : Context → Context) :
    (s.updCtx k f).ctx j = if j = k then f (s.ctx k) else s.ctx j := by
  unfold State.updCtx State.ctx
  rw [Cells.get_put]

/-- Amounts charged to a context. -/
theorem Calm.charged (s : State) (k : Nat) (xs : List (Nat × Nat × Nat)) : Calm s (s.updCtx k fun y => y.charge xs) := by
  refine ⟨rfl, rfl, rfl, rfl, rfl, rfl, rfl, rfl, fun _ => ⟨_, _, _, _, rfl⟩, fun j => ?_⟩
  have e : ∀ (xs : List (Nat × Nat × Nat)) (c : Context), ∃ u, c.charge xs = { c with used := u } := by
    intro xs
    induction xs with
    | nil => exact fun c => ⟨_, rfl⟩
    | cons x r ih =>
      intro c
      obtain ⟨u, h⟩ := ih (c.spend x.1 x.2.1 x.2.2)
      exact ⟨u, h⟩
  rw [State.ctx_updCtx]
  split
  · subst j; exact e _ _
  · exact ⟨_, rfl⟩

/-- A codec's tile of the clock noted (R345). -/
theorem Calm.coded (n dir a : Nat) (s : State) : Calm s (useCodec n dir a s) :=
  Calm.counted s n _ fun _ => ⟨_, _, _, _, rfl⟩

/-- Rows noted as used, and charged where they are finished. -/
theorem Calm.used (c : Cmd) (o : Owner) (a n : Nat) (last : Bool) (s : State) : Calm s (useRows c o a n last s) := by
  cases o with
  | slice m =>
    have h : Calm s (s.updCore m fun x => x.useRows c.gpi c.id (rowsOf a n)) :=
      Calm.counted s m _ fun x => ⟨_, _, _, _, rfl⟩
    unfold useRows
    dsimp only
    split
    · exact h.trans (Calm.counted _ m _ fun x => ⟨_, _, _, _, rfl⟩)
    · exact h
  | hbm => exact Calm.refl s
  | peer d => exact Calm.refl s

/-! ### What nothing holds -/

/-- A context without a budget, on whose core no request waits that a command still makes (R302, R303). -/
structure Unmetered (s : State) (n : Nat) : Prop where
  budget : ∀ k, s.ctxOf n = some k → ∀ cls, (s.ctx k).budget cls = 0
  holds : ∀ h ∈ (s.core n).holds, ∀ c, s.cmd h.gpi h.id = some c → c.counts = false

theorem Unmetered.dead {s : State} {n : Nat} (h : Unmetered s n) : (s.core n).holds.filter s.holdLives = [] := by
  rw [List.filter_eq_nil_iff]
  intro x hx
  unfold State.holdLives
  split
  · rename_i c hc
    simp [h.holds x hx c hc]
  · simp

theorem Unmetered.calm {s t : State} {n : Nat} (h : Unmetered s n) (k : Calm s t) (hh : ∀ x ∈ (t.core n).holds, x ∈ (s.core n).holds) :
    Unmetered t n := by
  refine ⟨fun j hj cls => ?_, fun x hx c hc => h.holds x (hh x hx) c (by rw [← k.cmd]; exact hc)⟩
  obtain ⟨_, e⟩ := k.ctx j
  rw [e]
  exact h.budget j (by rw [← k.ctxOf]; exact hj) cls

/-- Such a context's requests pass at once (R303). -/
theorem spend_passes {c : Cmd} {side n : Nat} {xs : List (Nat × Nat × Nat)} {s : State} (h : Unmetered s c.core) :
    (spend c side n xs s).1 = true ∧ Calm s (spend c side n xs s).2 ∧
      ∀ x ∈ ((spend c side n xs s).2.core c.core).holds, x ∈ (s.core c.core).holds := by
  unfold spend
  rw [h.dead]
  split
  · exact ⟨rfl, Calm.refl s, fun _ h => h⟩
  · rename_i k hk
    have ha : (xs.any fun x => (s.ctx k).exceeds x.1 x.2.1 x.2.2) = false := by
      rw [List.any_eq_false]
      intro x _
      simp [Context.exceeds, h.budget k hk]
    dsimp only
    rw [ha]
    split
    · exact ⟨rfl, Calm.refl s, fun _ h => h⟩
    · refine ⟨rfl, ?_, ?_⟩
      · exact (Calm.counted s c.core _ fun x => ⟨_, _, _, _, rfl⟩).trans (Calm.charged _ k xs)
      · intro x hx
        have e : (((s.updCore c.core fun x => { x with holds := [] }).updCtx k fun y => y.charge xs).core c.core).holds = [] := by
          show ((s.updCore c.core fun x => { x with holds := [] }).core c.core).holds = []
          rw [State.core_updCore, if_pos rfl]
        have hx' : x ∈ (((s.updCore c.core fun x => { x with holds := [] }).updCtx k fun y => y.charge xs).core c.core).holds := hx
        rw [e] at hx'
        cases hx'

theorem again_of {c : Cmd} {s : State} (h : s.cmd c.gpi c.id = some c) : c.again s = c := by
  unfold Cmd.again
  rw [h]
  rfl

/-- An access outside a transaction, at an owner that is no peer, that no commit and no full bank holds is made at once. -/
theorem accessAt_passes {c : Cmd} {o : Owner} {a m side : Nat} {last : Bool} {xs : List (Nat × Nat × Nat)} {kind : Sys2Proof.FrameKind}
    {data : List W8} {f : State → List W8 × State} {s : State} (hc : s.cmd c.gpi c.id = some c) (hp : ∀ d, o ≠ .peer d)
    (h : Unmetered s c.core) (ht : s.heldTile c.gpi o a m = false) (hb : c.bankWait o a m s = false) :
    ∃ u, Calm s u ∧ accessAt c o a m side (some last) xs kind data none f s = (some (f u).1, (f u).2) := by
  unfold accessAt
  rw [again_of hc]
  simp only [ht, hb, Bool.and_false, Bool.or_false, Bool.false_eq_true, if_false]
  obtain ⟨h1, h2, -⟩ := spend_passes (side := side) (n := m) (xs := xs) h
  cases o with
  | peer d => exact absurd rfl (hp d)
  | slice k => exact ⟨_, h2.trans (Calm.used c (.slice k) a m last _), by simp only [h1, if_true]⟩
  | hbm => exact ⟨_, h2.trans (Calm.used c .hbm a m last _), by simp only [h1, if_true]⟩

/-- An access that a commit holds waits, and changes nothing (R261). -/
theorem accessAt_waits {c : Cmd} {o : Owner} {a m side : Nat} {rows : Option Bool} {xs : List (Nat × Nat × Nat)} {kind : Sys2Proof.FrameKind}
    {data : List W8} {mark : Option (Nat × Bool)} {f : State → List W8 × State} {s : State} (hc : s.cmd c.gpi c.id = some c)
    (h : s.heldTile c.gpi o a m = true) : accessAt c o a m side rows xs kind data mark f s = (none, s) := by
  unfold accessAt
  rw [again_of hc]
  simp only [h, Bool.true_or, if_true]

/-- A buffered access of an active transaction, at an owner that is no peer, that no commit holds is made at once, behind its class and
its marks; it uses no rows (R260, R262). -/
theorem accessAt_buffers {c : Cmd} {o : Owner} {a m side : Nat} {xs : List (Nat × Nat × Nat)} {kind : Sys2Proof.FrameKind} {data : List W8}
    {x : Nat × Bool} {f : State → List W8 × State} {s : State} (hc : s.cmd c.gpi c.id = some c) (hp : ∀ d, o ≠ .peer d)
    (h : Unmetered s c.core) (ht : s.heldTile c.gpi o a m = false) :
    ∃ u, Calm s u ∧ accessAt c o a m side none xs kind data (some x) f s =
      (some (f ((noteClass c o u).txTouches c.gpi o a x.1 m x.2)).1, (f ((noteClass c o u).txTouches c.gpi o a x.1 m x.2)).2) := by
  unfold accessAt
  rw [again_of hc]
  simp only [ht, Option.isSome_none, Bool.false_and, Bool.or_false, Bool.false_eq_true, if_false]
  obtain ⟨h1, h2, -⟩ := spend_passes (side := side) (n := m) (xs := xs) h
  cases o with
  | peer d => exact absurd rfl (hp d)
  | slice k => exact ⟨_, h2, by simp only [h1, if_true]⟩
  | hbm => exact ⟨_, h2, by simp only [h1, if_true]⟩

/-! ### Writes at their owners -/

/-- No rollback log is kept of a context's writes, nor of device memory (R335). -/
structure Unlogged (s : State) (k : Option Nat) : Prop where
  own : ∀ j, k = some j → (s.ctx j).ck.valid = false
  all : ∀ a, s.loggers a = []

theorem logEntry_off {k : Nat} {key : Option Nat × Nat} {s : State} (h : (s.ctx k).ck.valid = false) : logEntry k key s = s := by
  unfold logEntry
  simp [h]

theorem foldl_id {α β : Type} {f : α → β → α} {a : α} {l : List β} (h : ∀ b ∈ l, f a b = a) : l.foldl f a = a := by
  induction l with
  | nil => rfl
  | cons x r ih =>
    rw [List.foldl_cons, h x (List.mem_cons_self ..)]
    exact ih fun b hb => h b (List.mem_cons_of_mem _ hb)

theorem logWrite_off {k : Option Nat} {o : Owner} {a n : Nat} {s : State} (h : Unlogged s k) : s.logWrite k o a n = s := by
  have line : ∀ l, logLine k s l = s := fun l => by
    unfold logLine
    rw [h.all]
    cases k with
    | none => rfl
    | some j => exact logEntry_off (h.own j rfl)
  unfold State.logWrite
  cases o with
  | hbm => cases k <;> exact foldl_id fun b _ => line b
  | peer d => cases k <;> rfl
  | slice m =>
    cases k with
    | none => rfl
    | some j => exact foldl_id fun b _ => logEntry_off (h.own j rfl)

/-- A state that differs from s in the transactions that a write dooms alone. -/
theorem doomWrite_cmds (except : Option Nat) (o : Owner) (a n : Nat) (s : State) (p : Nat) :
    ∃ x, (s.doomWrite except o a n).part p = { s.part p with tx := x } := by
  unfold State.doomWrite State.part
  induction s.parts with
  | nil => exact ⟨_, rfl⟩
  | cons y r ih =>
    simp only [List.map_cons, Cells.get]
    by_cases e : p = y.1
    · subst e
      simp only [if_true]
      split
      · exact ⟨_, rfl⟩
      · split
        · exact ⟨_, rfl⟩
        · split <;> exact ⟨_, rfl⟩
    · simp only [e, if_false]
      exact ih

theorem doomWrite_cmd (except : Option Nat) (o : Owner) (a n : Nat) (s : State) (p i : Nat) :
    (s.doomWrite except o a n).cmd p i = s.cmd p i := by
  obtain ⟨x, h⟩ := doomWrite_cmds except o a n s p
  unfold State.cmd
  rw [h]

/-- What a write of bytes bs at a slice does on the clock: it takes its place among the clock's writes, and dooms transactions
(R232, R260). -/
theorem perform_slice {k except : Option Nat} {g i : Nat} {mc : Bool} {n a : Nat} {bs : List W8} {s : State} (h : Unlogged s k)
    (hb : bs ≠ []) :
    s.perform k except g i mc (.slice n) a bs =
      (s.doomWrite except (.slice n) a bs.length).updCore n fun c => { c with farNow := addFar ⟨g, i, mc, a, bs⟩ c.farNow } := by
  unfold State.perform
  rw [logWrite_off h]
  cases bs with
  | nil => exact absurd rfl hb
  | cons => rfl

/-- What a write of bytes bs at device memory does: the bytes change, and transactions are doomed. -/
theorem perform_hbm {k except : Option Nat} {g i : Nat} {mc : Bool} {a : Nat} {bs : List W8} {s : State} (h : Unlogged s k)
    (hb : bs ≠ []) :
    s.perform k except g i mc .hbm a bs = (s.doomWrite except .hbm a bs.length).poke .hbm a bs := by
  unfold State.perform
  rw [logWrite_off h]
  cases bs with
  | nil => exact absurd rfl hb
  | cons => rfl

/-- A write takes its place behind those of lower partitions and of its partition's earlier commands, and before the others
(R232). -/
theorem addFar_place (w : FarWrite) (ws : List FarWrite) : ∃ l r, ws = l ++ r ∧ addFar w ws = l ++ w :: r ∧
    (∀ x ∈ l, x.gpi < w.gpi ∨ (x.gpi = w.gpi ∧ x.id ≤ w.id)) ∧
    ∀ x, r.head? = some x → w.gpi < x.gpi ∨ (w.gpi = x.gpi ∧ w.id < x.id) := by
  induction ws with
  | nil => exact ⟨[], [], rfl, rfl, fun _ h => absurd h (List.not_mem_nil), fun _ h => by cases h⟩
  | cons x r ih =>
    unfold addFar
    split
    · rename_i h
      simp only [Bool.or_eq_true, decide_eq_true_eq, Bool.and_eq_true, beq_iff_eq] at h
      exact ⟨[], x :: r, rfl, rfl, fun _ h => absurd h (List.not_mem_nil), fun y hy => by cases hy; exact h⟩
    · rename_i h
      simp only [Bool.or_eq_true, decide_eq_true_eq, Bool.and_eq_true, beq_iff_eq] at h
      obtain ⟨l, q, rfl, e, hl, hr⟩ := ih
      refine ⟨x :: l, q, rfl, by rw [e]; rfl, fun y hy => ?_, hr⟩
      rcases List.mem_cons.mp hy with rfl | hy
      · omega
      · exact hl y hy

/-! ### Accesses of harts at their owners (R282) -/

@[simp] theorem hartPerform_load (h a pa n v : Nat) (o : Owner) (w : Nat → State → State) (s : State) :
    hartPerform h .load o a pa n v w s = hartReturn h (joinBytes (s.rd o a n)) s := rfl

@[simp] theorem hartPerform_store (h a pa n v : Nat) (o : Owner) (w : Nat → State → State) (s : State) :
    hartPerform h .store o a pa n v w s = w v s := rfl

@[simp] theorem hartPerform_amo (h a pa n v op : Nat) (o : Owner) (w : Nat → State → State) (s : State) :
    hartPerform h (.amo op) o a pa n v w s =
      hartReturn h (joinBytes (s.rd o a n)) (w (atomicNew op (8 * n) (joinBytes (s.rd o a n)) v) s) := rfl

/-- A store-conditional writes exactly where its hart's reservation covers it, and ends the reservation either way. -/
theorem hartPerform_conditional (h a pa n v : Nat) (o : Owner) (w : Nat → State → State) (s : State) :
    hartPerform h .storeConditional o a pa n v w s =
      if s.reserved h pa then hartReturn h 0 (w v { s with resv := Cells.del h s.resv })
      else hartReturn h 1 { s with resv := Cells.del h s.resv } := by
  unfold hartPerform
  cases s.reserved h pa <;> rfl

end Sys2Proof.Machine
end

