-- ==== Sys2Proof/Laws/Landing.lean ====
section
/-!
SUPPORT. Which result of a core lands next, and what stopping a core and taking a trap leave as it is.
-/

namespace Sys2Proof.Machine

/-! ### The order of R28 -/

theorem firstLanding_mem {l : Landing} {ls : List Landing} (h : firstLanding ls = some l) : l ∈ ls := by
  induction ls generalizing l with
  | nil => cases h
  | cons x r ih =>
    simp only [firstLanding] at h
    split at h
    · exact List.mem_cons.mpr (.inl (Option.some.inj h).symm)
    · split at h
      · cases h; exact List.mem_cons_of_mem _ (ih ‹_›)
      · exact List.mem_cons.mpr (.inl (Option.some.inj h).symm)

/-- The landing that comes before all those listed ahead of it, and that none after it comes before, is the first. -/
theorem firstLanding_of {a b : List Landing} {l : Landing} (ha : ∀ m ∈ a, l.before m = true)
    (hn : ∀ m ∈ b, m.before l = false) :
    firstLanding (a ++ l :: b) = some l := by
  induction a with
  | nil =>
    simp only [List.nil_append, firstLanding]
    split
    · rfl
    · rw [if_neg]
      rw [hn _ (firstLanding_mem ‹_›)]
      exact Bool.false_ne_true
  | cons x r ih =>
    simp only [List.cons_append, firstLanding]
    rw [ih fun m hm => ha m (List.mem_cons_of_mem _ hm)]
    exact if_pos (ha x (by simp))

/-! ### Stopping a core, taking a trap and returning leave the bundle in progress as it is -/

theorem foldl_keeps {α β γ : Type} (f : α → β → α) (g : α → γ) (h : ∀ a b, g (f a b) = g a) (l : List β) (a : α) :
    g (l.foldl f a) = g a := by
  induction l generalizing a with
  | nil => rfl
  | cons b r ih => rw [List.foldl_cons, ih, h]

theorem State.updParts_cur (n : Nat) (f : Part → Part) (s : State) : (s.updParts n f).cur = s.cur := by
  unfold State.updParts; refine foldl_keeps _ State.cur (fun t q => ?_) _ _; rfl

theorem capture_cur (n : Nat) (nest : Bool) (s : State) : (capture n nest s).cur = s.cur := by
  unfold capture; rw [State.updCore_cur]; refine foldl_keeps _ State.cur (fun t l => ?_) _ _; rfl

theorem holdAll_cur (n : Nat) (s : State) : (holdAll n s).cur = s.cur := by
  unfold holdAll; rw [State.updCore_cur, State.updParts_cur]

theorem doomCore_cur (n : Nat) (s : State) : (doomCore n s).cur = s.cur := by
  unfold doomCore; rw [State.updParts_cur]

theorem stopCore_cur (n : Nat) (quiet : Bool) (s : State) : (stopCore n quiet s).cur = s.cur := by
  unfold stopCore
  dsimp only
  split
  · split
    · rw [State.updCore_cur]
      split
      · rw [holdAll_cur, doomCore_cur, capture_cur]
      · rw [doomCore_cur, capture_cur]
    · rfl
  · rw [State.updCore_cur]
    split
    · rw [holdAll_cur, doomCore_cur, capture_cur]
    · rw [doomCore_cur, capture_cur]

theorem stopPeers_cur (n cyc : Nat) (s : State) : (stopPeers n cyc s).cur = s.cur := by
  refine foldl_keeps _ State.cur (fun t m => ?_) _ _
  split <;> rfl

theorem State.raise_cur (i : Nat) (s : State) : (s.raise i).cur = s.cur := by
  unfold State.raise; dsimp only; split
  · rfl
  · split <;> rfl

theorem takeTrap_cur (p : Nat) (t : TrapInfo) (s : State) : (takeTrap p t s).cur = s.cur := by
  unfold takeTrap
  dsimp only
  split_ifs <;> simp only [State.raise_cur, State.updCore_cur, stopPeers_cur, State.updPart_cur, stopCore_cur]

theorem setResume_cur (n : Nat) (f : Nat → Nat) (s : State) : (setResume n f s).cur = s.cur := by
  unfold setResume
  refine foldl_keeps _ State.cur (fun t m => ?_) _ _
  split <;> rfl

theorem scheduleResume_cur (n d : Nat) (s : State) : (scheduleResume n d s).cur = s.cur := setResume_cur _ _ _

theorem eretCommit_cur (n : Nat) (s : State) : (eretCommit n s).cur = s.cur := by
  unfold eretCommit; split
  · rfl
  · exact setResume_cur _ _ _

end Sys2Proof.Machine
end

