-- ==== Sys2Proof/Tests/Slice0.lean ====
section
/-!
SUPPORT. Tests of the model: ill-formed terms that the checks refuse, words that decode, single steps on a small state, and for each
statement with hypotheses a state and operands that meet them. Expected values are worked out by hand from the rules named.
-/

namespace Sys2Proof.Tests

open Sys2Proof Sys2Proof.Machine Sys2Proof.Says

/-! ### A small state -/

/-- Partition 0 of core 0 with entries in four scalar and three vector queues and tile bank 0 on. -/
def part0 : Part := { Part.initial 0 with
  sq := [(1, [5, 9]), (2, [7]), (3, [0x3F800000]), (4, [0x7FC00001])],
  vq := [(1, [0x030201, 0x40]), (2, [0x0102FF]), (3, [0x3F800000])],
  banks := [(0, ⟨.on, .on, .on, 0, false, false, 0⟩)], preds := 0x05 }

/-- Core 0 with codebook bank 0 of two valid entries of one 8-bit element. -/
def core0 : Core := { Core.initial with cbcfg := [(0, 0x10000000002)], cbook := [(0, 3), (1, 5)] }

/-- A bundle of partition 0 in progress, slot 1, lanes of 256 bits. -/
def demo : State := { State.reset with
  parts := [(0, part0)], cores := [(0, core0)],
  cur := { Cursor.empty with slot := 1, mod := { Machine.Mod.plain with width := 256 } } }

/-- demo with its core changed. -/
def demoCore (f : Core → Core) : State := { demo with cores := [(0, f core0)] }

/-- demo with its partition changed. -/
def demoPart (f : Part → Part) : State := { demo with parts := [(0, f part0)] }

/-! ### Ill-formed terms, one for each check (R65, R67, R88, R220) -/

theorem illFormed_checks_1 : (([
    .uWld 8 0 false false false, .uWld 0 8 false false false, .uStrm 8 0 0 0 0, .uStrm 0 32 0 0 0, .uStrm 0 0 32 0 0,
    .uStrm 0 0 0 8 0, .uStrm 0 0 0 0 4294967296, .uStrm 0 16 16 0 0, .uStrm 0 0 0 0 8, .uAclr 8, .uDrn 8 0 0 0, .uDrn 0 32 0 0,
    .uDrn 0 0 32 0, .uDrn 0 0 0 8, .uDrn 0 16 16 0, .uAdv 8 0, .uAdv 0 65536, .uIdxa 65536, .uLset 4 0, .uLset 0 65536,
    .uLdec 4 16, .uLdec 0 1024, .uLdec 0 15, .uJmp 1024, .uJmp 15, .add 32 0 0 false false, .add 0 32 0 false false,
    .add 0 0 32 false false, .mov 32 0 false, .mov 0 32 false, .addi 32 0 false 0, .addi 0 32 false 0, .addi 0 0 false 8192,
    .lui 32 0 0, .lui 0 32 0, .lui 0 0 8192, .feq 8 0 0 false false, .feq 0 32 0 false false, .feq 0 0 32 false false,
    .ceqi 8 0 false 0, .ceqi 0 32 false 0, .ceqi 0 0 false 8192, .sel 32 0 0 false false 0, .sel 0 32 0 false false 0,
    .sel 0 0 32 false false 0, .sel 0 0 0 false false 8, .pand 8 0 0, .pand 0 8 0, .pand 0 0 8, .brt 8 0, .brt 0 8192,
    .jump 8192, .jr 32 false, .loop 1024 1, .loop 0 8192, .loop 0 0 ] : List Instr).all fun i => !i.wf) = true := by decide

theorem illFormed_checks_2 : (([
    .loopQ false 32 1, .loopQ false 0 8192, .loopQ false 0 0, .pblk 8 0 0, .pblk 0 256 0, .pblk 0 0 8, .pblk 0 2 0, .pfork 8 0,
    .pfork 1 8192, .pfork 0 0, .pjoin 4, .sempost 4 1, .sempost 0 4096, .sempost 0 0, .barw 4 0, .barw 0 64, .barw 3 0,
    .barw 0 16, .crget 32 0, .crget 0 256, .crget 0 7, .crset 32 false 0, .crset 0 false 256, .crset 0 false 5, .trap 256,
    .vadd 64 0 0 false false 0, .vadd 0 64 0 false false 0, .vadd 0 0 64 false false 0, .vadd 0 0 0 false false 5,
    .vsplati 64 0 0, .vsplati 0 512 0, .vsplati 0 0 4, .vaddi 64 0 false 0 0, .vaddi 0 64 false 0 0, .vaddi 0 0 false 512 0,
    .vaddi 0 0 false 0 4, .vfadd 64 0 0 false false 0, .vfadd 0 64 0 false false 0, .vfadd 0 0 64 false false 0,
    .vfadd 0 0 0 false false 3, .vfabs 64 0 false 0, .vfabs 0 64 false 0, .vfabs 0 0 false 3, .vand 64 0 0 false false,
    .vand 0 64 0 false false, .vand 0 0 64 false false, .vshl 64 0 0 false false 0, .vshl 0 64 0 false false 0,
    .vshl 0 0 64 false false 0, .vshl 0 0 0 false false 4, .vnot 64 0 false, .vnot 0 64 false, .vcmp 8 0 0 false false 0 0,
    .vcmp 0 64 0 false false 0 0, .vcmp 0 0 64 false false 0 0, .vcmp 0 0 0 false false 8 0 ] : List Instr).all fun i => !i.wf) = true := by decide

theorem illFormed_checks_3 : (([
    .vcmp 0 0 0 false false 0 8, .vcmp 0 0 0 false false 4 0, .mcnt 32 0, .mcnt 0 8, .vred 64 0 1 false 0 0,
    .vred 0 64 1 false 0 0, .vred 0 0 8 false 0 0, .vred 0 0 1 false 3 0, .vred 0 0 1 false 0 6, .vred 0 0 0 false 0 0,
    .vmaxe 64 false false 0, .vmaxe 0 false false 3, .vcvt 64 0 0 false 0, .vcvt 0 64 0 false 0, .vcvt 0 0 16 false 0,
    .vcvt 0 0 0 false 16, .vqnt 64 0 false false 1, .vqnt 0 64 false false 1, .vqnt 0 0 false false 16, .vqnt 0 0 false false 0,
    .vqnt 0 0 false false 14, .vcvtsr 64 0 0 false false 0 1, .vcvtsr 0 64 0 false false 0 1, .vcvtsr 0 0 32 false false 0 1,
    .vcvtsr 0 0 0 false false 3 1, .vcvtsr 0 0 0 false false 0 16, .vcvtsr 0 0 0 false false 0 0, .vcbx 64 0 0 false 0,
    .vcbx 0 64 0 false 0, .vcbx 0 0 8 false 0, .vcbx 0 0 0 false 4, .vrng 64 0 false 0, .vrng 0 32 false 0, .vrng 0 0 false 3,
    .vtwr 16 0 0 false false, .vtwr 0 64 0 false false, .vtwr 0 0 32 false false, .vtwrCvt 16 0 0 false false 1,
    .vtwrCvt 0 64 0 false false 1, .vtwrCvt 0 0 32 false false 1, .vtwrCvt 0 0 0 false false 16, .vtwrCvt 0 0 0 false false 0,
    .vtrd 64 0 0 false, .vtrd 0 16 0 false, .vtrd 0 0 32 false, .vtrdCvt 64 0 0 false 1, .vtrdCvt 0 16 0 false 1,
    .vtrdCvt 0 0 32 false 1, .vtrdCvt 0 0 0 false 16, .vtrdCvt 0 0 0 false 0, .vtcr 64 0 0 false 0, .vtcr 0 16 0 false 0,
    .vtcr 0 0 32 false 0, .vtcr 0 0 0 false 3, .vacrd 64 0 0 false 0, .vacrd 0 8 0 false 0 ] : List Instr).all fun i => !i.wf) = true := by decide

theorem illFormed_checks_4 : (([
    .vacrd 0 0 32 false 0, .vacrd 0 0 0 false 16, .vsplat 64 0 false 0, .vsplat 0 32 false 0, .vsplat 0 0 false 4,
    .vext 32 0 0 false false 0, .vext 0 64 0 false false 0, .vext 0 0 32 false false 0, .vext 0 0 0 false false 4,
    .vsel 64 0 0 false false 0, .vsel 0 64 0 false false 0, .vsel 0 0 64 false false 0, .vsel 0 0 0 false false 8,
    .lds false 32 false 0 0 0, .lds false 0 false 32 0 0, .lds false 0 false 0 2048 0, .lds false 0 false 0 0 4,
    .lds true 0 false 0 0 3, .sts 32 false 0 false 0 0, .sts 0 false 32 false 0 0, .sts 0 false 0 false 2048 0,
    .sts 0 false 0 false 0 4, .ldv 64 false 0 0, .ldv 0 false 32 0, .ldv 0 false 0 8192, .stv 64 false 0 false 0,
    .stv 0 false 32 false 0, .stv 0 false 0 false 8192, .ldt 16 false 0 0 0, .ldt 0 false 32 0 0, .ldt 0 false 0 64 0,
    .ldt 0 false 0 0 128, .natom 32 false 0 false 0 false 0, .natom 0 false 32 false 0 false 0,
    .natom 0 false 0 false 256 false 0, .natom 0 false 0 false 0 false 9, .ncas 32 false 0 0, .ncas 0 false 32 0,
    .ncas 0 false 0 256, .mcall 64 0 0 0, .mcall 0 64 0 0, .mcall 0 0 64 0, .mcall 0 0 0 64, .mpset 8 0 false,
    .mpset 0 32 false, .scld 4 0 false, .scld 0 32 false, .scldi 16 0, .scldi 0 8192, .acdrn 64 0 0 false 0,
    .acdrn 0 64 0 false 0, .acdrn 0 0 64 false 0, .acdrn 0 0 0 false 32, .fld 64 0 0 0 0, .fld 0 64 0 0 0, .fld 0 0 64 0 0 ] : List Instr).all fun i => !i.wf) = true := by decide

theorem illFormed_checks_5 : (([
    .fld 0 0 0 7 0, .fld 0 0 0 0 32, .copy 64 0 0 0, .copy 0 64 0 0, .copy 0 0 64 0, .copy 0 0 0 32, .drn 64 0 0 0,
    .drn 0 64 0 0, .drn 0 0 64 0, .drn 0 0 0 6, .txb 64 0 0, .txb 0 64 0, .txb 0 0 64, .txb 0 1 0, .txb 0 0 1 ] : List Instr).all fun i => !i.wf) = true := by decide

/-! ### Hypotheses met: the scalar, vector and tile blocks -/

/-- Two entries of one queue, the second peeked. -/
theorem two_sources : ∃ u v, source demo 1 false 5 u ∧ source u 1 true 9 v := ⟨_, _, ⟨rfl, rfl⟩, ⟨rfl, rfl⟩⟩

/-- A number and a NaN. -/
theorem a_nan_source : ∃ u v, source demo 3 false 0x3F800000 u ∧ source u 4 false 0x7FC00001 v ∧ nan32 0x7FC00001 :=
  ⟨_, _, ⟨rfl, rfl⟩, ⟨rfl, rfl⟩, by decide, by decide⟩

/-- Two vector sources and a scalar one. -/
theorem vector_sources : wide demo ∧ ∃ u v w, vsource demo 1 false 0x030201 u ∧ vsource u 2 true 0x0102FF v ∧
    vsource v 3 false 0x3F800000 w := ⟨.inl rfl, _, _, _, ⟨rfl, rfl⟩, ⟨rfl, rfl⟩, ⟨rfl, rfl⟩⟩

theorem vector_and_scalar_source : wide demo ∧ ∃ u v, vsource demo 1 false 0x030201 u ∧ source u 2 false 7 v :=
  ⟨.inl rfl, _, _, ⟨rfl, rfl⟩, ⟨rfl, rfl⟩⟩

theorem witness_IntegerSumsLogicAndShifts : ∃ u v, source demo 1 false 5 u ∧ source u 1 true 9 v := two_sources

theorem witness_IntegerOperationsOfOneSource : ∃ u, source demo 1 false 5 u := ⟨_, rfl, rfl⟩

theorem witness_PredicatesFromIntegersAndPredicates : ∃ u v, source demo 1 false 5 u ∧ source u 1 true 9 v := two_sources

theorem witness_FloatComparesToPredicates : ∃ u v, source demo 3 false 0x3F800000 u ∧ source u 4 false 0x7FC00001 v ∧
    nan32 0x7FC00001 := a_nan_source

theorem witness_ScalarFloatArithmetic : ∃ u v, source demo 3 false 0x3F800000 u ∧ source u 4 false 0x7FC00001 v ∧
    nan32 0x7FC00001 := a_nan_source

theorem witness_VectorIntegerArithmetic : 4 ≤ 4 ∧ wide demo ∧ ∃ u v w, vsource demo 1 false 0x030201 u ∧
    vsource u 2 true 0x0102FF v ∧ vsource v 3 false 0x3F800000 w := ⟨le_refl 4, vector_sources⟩

theorem witness_VectorLogicShiftsAndImmediates : 3 ≤ 3 ∧ wide demo ∧ ∃ u v w, vsource demo 1 false 0x030201 u ∧
    vsource u 2 true 0x0102FF v ∧ vsource v 3 false 0x3F800000 w := ⟨le_refl 3, vector_sources⟩

/-- Of the sums of special values: binary32's first NaN, and its greatest finite number. -/
theorem witness_VectorFloatSums : (2 ≤ 2 ∧ wide demo ∧ ∃ u v w, vsource demo 1 false 0x030201 u ∧ vsource u 2 true 0x0102FF v ∧
      vsource v 3 false 0x3F800000 w) ∧ (readFlt (vfloat 0) 0x7F800001).isNan = true ∧
    (readFlt (vfloat 0) 0x7F7FFFFF).isNan = false ∧ (readFlt (vfloat 0) 0x7F7FFFFF).isInf = false :=
  ⟨⟨le_refl 2, vector_sources⟩, by decide, by decide, by decide⟩

theorem witness_VectorComparesAndMasks : 4 ≤ 4 ∧ 7 ≤ 7 ∧ wide demo ∧ ∃ u v w, vsource demo 1 false 0x030201 u ∧
    vsource u 2 true 0x0102FF v ∧ vsource v 3 false 0x3F800000 w := ⟨le_refl 4, le_refl 7, vector_sources⟩

theorem witness_VectorPermutesAndMoves : (wide demo ∧ ∃ u v w, vsource demo 1 false 0x030201 u ∧ vsource u 2 true 0x0102FF v ∧
      vsource v 3 false 0x3F800000 w) ∧ wide demo ∧ ∃ u v, vsource demo 1 false 0x030201 u ∧ source u 2 false 7 v :=
  ⟨vector_sources, vector_and_scalar_source⟩

theorem witness_VectorReductionsAndScaleLatch : 2 ≤ 2 ∧ 5 ≤ 5 ∧ wide demo ∧ ∃ u v w, vsource demo 1 false 0x030201 u ∧
    vsource u 2 true 0x0102FF v ∧ vsource v 3 false 0x3F800000 w := ⟨le_refl 2, le_refl 5, vector_sources⟩

/-- A staged VRED of 32 elements of 16 bits, 512 bits, in lanes of 256. -/
theorem witness_VectorReductionsAndScaleLatch_too_large :
    let r : RawSlot := ⟨3, 0b010111_000001_000010_000_101_0_0_01_0_000, [], Machine.Mod.plain, 1, 4, 4⟩
    let s := { demo with cur := { demo.cur with staged := [r] } }
    r ∈ s.cur.staged ∧ r.wcode < 4 ∧ r.instr = some (.vred 1 2 5 false 1 0) ∧ laneWidth s r < 2 ^ 5 * 32 :=
  ⟨List.mem_cons_self .., by decide, rfl, by decide⟩

theorem witness_VectorConversions : (wide demo ∧ ∃ u v w, vsource demo 1 false 0x030201 u ∧ vsource u 2 true 0x0102FF v ∧
      vsource v 3 false 0x3F800000 w) ∧ wide demo ∧ ∃ u v, vsource demo 1 false 0x030201 u ∧ source u 2 false 7 v :=
  ⟨vector_sources, vector_and_scalar_source⟩

/-- The clauses of the sums: unlike magnitudes, a zero on either side, and a number with its negation. -/
theorem witness_LogarithmicNumbers : (lnsL 0x0400 ≠ lnsL 0x0000 ∧ lnsZero 0x0400 = false ∧ lnsZero 0 = false) ∧
    lnsZero 0x4000 = true ∧ lnsZero 0xC000 = true ∧ lnsL 0x0400 = lnsL 0x8400 ∧ bit 0x0400 15 ≠ bit 0x8400 15 := by decide

/-- Indices 1, 0, 2 and 0 of a bank with two valid entries: the first two are valid and the third, 2, is not. The first entry of
queue 2 has no index above 1 in its lowest place. -/
theorem witness_CodebooksAndGenerator :
    (∃ u, vsource (demoPart fun p => { p with vq := [(1, [0x01])] }) 1 false 0x01 u ∧
      (∀ i, i < min (256 / 8) (256 / indexBits 0) → elem (indexBits 0) i 0x01 < cbValid 0x10000000002)) ∧
    (∃ u, vsource (demoPart fun p => { p with vq := [(1, [0x0201])] }) 1 false 0x0201 u ∧
      (∀ j, j < 2 → elem (indexBits 0) j 0x0201 < cbValid 0x10000000002) ∧
      cbValid 0x10000000002 ≤ elem (indexBits 0) 2 0x0201) ∧
    (mine demo).cbcfgOf 0 = 0x10000000002 ∧ 0 < cbValid 0x10000000002 ∧
    ∃ u, source demo 1 false 5 u ∧ (5 : W64).toNat / 2 ^ 48 ≠ 0xFFFF :=
  ⟨⟨_, ⟨rfl, rfl⟩, by decide +kernel⟩, ⟨_, ⟨rfl, rfl⟩, by decide +kernel, by decide +kernel⟩, by decide, by decide, _, ⟨rfl, rfl⟩,
    by decide⟩

theorem witness_TileReadsAndWrites : awake demo 3 ∧ wide demo ∧ (∃ u v, vsource demo 1 false 0x030201 u ∧ source u 2 false 7 v) ∧
    3 ≤ 3 := ⟨⟨rfl, rfl, rfl⟩, .inl rfl, ⟨_, _, ⟨rfl, rfl⟩, ⟨rfl, rfl⟩⟩, le_refl 3⟩

/-- A tile that no call clears or writes, and one that a call in flight clears at its completion. -/
theorem witness_OperatorContractionAndAccumulatorRead : awake demo 0 ∧ wide demo ∧ (∃ u, vsource demo 1 false 0x030201 u) ∧
    (∃ u, source demo 2 false 7 u) ∧ (mine demo).accBusy 7 (7 % 32) = false ∧
    (let s := demoCore fun c => { c with calls := [{ newCall demo (.mcall 0) (some 1) [] with acm := 0x80 }] }
     wide s ∧ (∃ u, source s 2 false 7 u) ∧ (mine s).accBusy 7 (7 % 32) = true) :=
  ⟨⟨rfl, rfl, rfl⟩, .inl rfl, ⟨_, rfl, rfl⟩, ⟨_, rfl, rfl⟩, rfl, .inl rfl, ⟨_, rfl, rfl⟩, by decide⟩


/-! ### Hypotheses met: control, partitions, slot 2 and slot 3 -/

/-- A bundle of partition 1 of core 0, in a predicate block. -/
def demo1 : State := { demo with
  parts := [(0, part0), (1, { part0 with loops := [⟨2, 16, 0⟩] })], cur := { demo.cur with gpi := 1, covered := true } }

/-- n levels of the loop stack, none of which ends at offset 0. -/
def levels (n : Nat) : List LoopLevel := List.replicate n ⟨2, 16, 32⟩

theorem witness_TransfersOfControl : demo.cur.covered = false ∧ (∃ u, source demo 1 false 5 u) ∧ (me demo).loops = [] :=
  ⟨rfl, ⟨_, rfl, rfl⟩, rfl⟩

/-- With five levels held and a count that is not 0; with six and the count 0; with a level to pop; and with none. -/
theorem witness_LoopsAndPredicateBlocks :
    (let s := demoPart fun p => { p with loops := levels 5 }
     s.cur.covered = false ∧ (∀ l r, (me s).loops = l :: r → l.stop ≠ (me s).pc) ∧ (me s).loops.length = 5 ∧
      ∃ u, source s 1 false 5 u ∧ (5 : W64).toNat % 2 ^ 32 ≠ 0) ∧
    (let s := demoPart fun p => { p with loops := levels 6 }
     s.cur.covered = false ∧ (∀ l r, (me s).loops = l :: r → l.stop ≠ (me s).pc) ∧ (me s).loops.length = 6) ∧
    demo.cur.covered = false ∧ (me demo).loops = [] := by
  refine ⟨⟨rfl, ?_, rfl, ⟨_, ⟨rfl, rfl⟩, by decide⟩⟩, ⟨rfl, ?_, rfl⟩, rfl, rfl⟩ <;>
  · intro l r h
    have : l = ⟨2, 16, 32⟩ := (List.cons.inj h).1.symm
    subst this
    decide

/-- All three other partitions named and idle; a semaphore filled to its bound; a join by partition 1. -/
theorem witness_ForksSemaphoresAndFences :
    (demo.cur.gpi = 4 * demo.cur.core ∧ ∀ q, q < 4 → bit (2 * 7) q = true → (demo.part (4 * demo.cur.core + q)).run = .idle) ∧
    posted demo 3 + 65535 ≤ 65535 ∧ demo1.cur.gpi % 4 ≠ 0 ∧ posted demo1 3 + 1 ≤ 65535 := by decide

/-- A covered bundle; a loop level held; six of them; one that ends at the bundle; a count popped that is not 0; a full semaphore, at a
post and at a join by partition 1; a fork by partition 1, and one of a partition that runs; a join by partition 0; a unit that names no
one. -/
theorem witness_SequenceAndSystemFaults :
    demo1.cur.covered = true ∧ (me demo1).loops ≠ [] ∧
    (let s := demoPart fun p => { p with loops := levels 6 }
     s.cur.covered = false ∧ 6 ≤ (me s).loops.length ∧ ∃ u, source s 1 false 5 u ∧ (5 : W64).toNat % 2 ^ 32 ≠ 0) ∧
    (let s := demoPart fun p => { p with loops := [⟨1, 16, 0⟩] }
     s.cur.covered = false ∧ (me s).loops = [⟨1, 16, 0⟩] ∧ (0 : Nat) = (me s).pc ∧ ∃ u, source s 1 false 5 u) ∧
    (let s := demoCore fun c => { c with sema := [(3, 65535)] }
     65535 < posted s 3 + 1) ∧
    (let s := { demo1 with cores := [(0, { core0 with sema := [(3, 65534)], pend := [⟨9, 8, 2, 0, 0, .sema 3 1⟩] })] }
     s.cur.gpi % 4 ≠ 0 ∧ 65535 < posted s 3 + 1) ∧
    demo1.cur.gpi % 4 ≠ 0 ∧
    (let s := { demo with parts := [(0, part0), (3, part0)] }
     ∃ q, q < 4 ∧ bit (2 * 4) q = true ∧ (s.part (4 * s.cur.core + q)).run ≠ .idle) ∧
    demo.cur.gpi % 4 = 0 ∧ demo.cur.gpi ∉ (demo.barUnit demo.cur.core 0 63).parts := by
  refine ⟨rfl, by decide, ⟨rfl, by decide, _, ⟨rfl, rfl⟩, by decide⟩, ⟨rfl, rfl, rfl, _, rfl, rfl⟩, by decide, by decide, by decide,
    ⟨3, by decide⟩, by decide, by decide⟩

/-- A context that replays, with an entry of stream 0 and number 0 in its ring: the ring stands in a window that leads to core 0's
slice, its write index 1 and its read index 0. -/
def replaying : State := { demo with
  cores := [(0, { core0 with kernel := some 0, slice := ⟨0, [(0, 1), (80, 7)]⟩ })],
  kernels := [(0, ⟨0, 0, 3, [], [], .running, 0, 0, 0, 0, [0], 0, [], none, none, 0, 0, false, none⟩)],
  ctxs := [(3, { Context.initial with
    active := true, record := [1 + 2 ^ 22, 0, 0, 4096, 0, 0, 0xFF000000000000, 6] })] }

/-- A context that records, in the same ring, its next place given. -/
def recording (next : Nat) : State := { replaying with
  ctxs := [(3, { Context.initial with
    active := true, record := [1 + 2 ^ 21, 0, 0, 4096, 0, 0, 0xFF000000000000, 6], recNext := next })] }

theorem unrecorded_demo : unrecorded demo := by
  intro k h
  have e : demo.ctxOf demo.cur.core = none := rfl
  rw [e] at h
  cases h

theorem witness_CycleReadsAndControlRegisters :
    (unrecorded demo ∧ crListed 0x00 = true ∧ crListed 0x26 = true) ∧
    (∃ u, source demo 1 false 5 u ∧ ∀ c ∈ (mine demo).calls, ∀ b ∈ c.cbs, b.k ≠ 0x1F - 0x18) ∧
    ((recording 0).ctxOf (recording 0).cur.core = some 3 ∧ ((recording 0).ctx 3).recording = true ∧
      ((recording 0).ctx 3).replaying = false ∧ (recording 0).ringFull 3 = false ∧ (recording 64).ringFull 3 = true) ∧
    (replaying.ctxOf replaying.cur.core = some 3 ∧ (replaying.ctx 3).replaying = true ∧
      replaying.findEntry 3 replaying.cur.gpi (number replaying 3) = some [0, 0, 7, 0, 0, 0, 0, 0]) ∧
    (let s := { replaying with cores := [(0, { core0 with kernel := some 0 })] }
     s.ctxOf s.cur.core = some 3 ∧ (s.ctx 3).replaying = true ∧ s.findEntry 3 s.cur.gpi (number s 3) = none) := by
  refine ⟨⟨?_, rfl, rfl⟩, ⟨_, ⟨rfl, rfl⟩, ?_⟩, by decide +kernel, by decide +kernel, by decide +kernel⟩
  · exact unrecorded_demo
  · intro c h; cases h

/-- Offsets at the top of the slice: 2^23 - 8 for a load of 8 bytes, and the last vector. -/
theorem witness_SlotTwoIssue :
    (∃ u, source demo 1 false 5 u ∧ free demo (offset demo 5 2047 11 8)) ∧
    (∃ t u, source demo 1 false 5 t ∧ source t 2 false 7 u ∧ free demo (offset demo 7 0 11 1)) ∧
    (∃ t u, vsource demo 1 false 0x030201 t ∧ source t 2 true 7 u ∧ free demo (offset demo 7 8191 13 128)) ∧
    (∃ u, source demo 2 false 7 u ∧ free demo (offset demo 7 63 6 128) ∧ awake demo 3) ∧
    ∃ t u, source demo 1 false 5 t ∧ source t 1 false 9 u ∧ free demo (offset demo 9 255 8 4) := by
  have hf : ∀ a, free demo a := fun a c h => absurd h (by intro h; cases h)
  exact ⟨⟨_, ⟨rfl, rfl⟩, hf _⟩, ⟨_, _, ⟨rfl, rfl⟩, ⟨rfl, rfl⟩, hf _⟩, ⟨_, _, ⟨rfl, rfl⟩, ⟨rfl, rfl⟩, hf _⟩,
    ⟨_, ⟨rfl, rfl⟩, hf _, rfl, rfl, rfl⟩, ⟨_, _, ⟨rfl, rfl⟩, ⟨rfl, rfl⟩, hf _⟩⟩

/-- A core whose oldest listed access is a given one, its slice holding one byte. -/
def nearly (a : Near) : State := demoCore fun c => { c with near := [⟨0, 2, 0, a⟩], slice := ⟨0, [(16, 5)]⟩ }

/-- An access of each kind listed; a compare-and-swap that finds its value, and one that does not. -/
theorem witness_SlotTwoAccessPerforms :
    (∀ a ∈ [Near.load 1 8 true 16, .loadV 1 0, .loadT 3 127 0, .store (2 ^ 23 - 8) 8 1, .atomic 1 4 8 16 7, .cas 1 16 5, .cas 1 16 6],
      ((nearly a).core 0).near = [⟨0, 2, 0, a⟩] ∧ ((nearly a).part 0).tx = none ∧ ((nearly a).core 0).slice.wf) ∧
    ((nearly (.cas 1 16 5)).core 0).slice.readN 16 4 = 5 % 2 ^ 32 ∧
    ((nearly (.cas 1 16 6)).core 0).slice.readN 16 4 ≠ 6 % 2 ^ 32 := by decide

/-- The same accesses of a partition whose transaction is active, doomed or not, its buffer holding the first byte they read. -/
theorem witness_SlotTwoAccessPerforms_in_a_transaction :
    ∀ c ∈ [0, 3], ∀ a ∈ [Near.load 1 8 true 16, .loadV 1 0, .loadT 3 127 0, .store (2 ^ 23 - 8) 8 1, .atomic 1 4 8 16 7, .cas 1 16 5,
        .cas 1 16 6],
      let y : Tx := ⟨0, c, 0, [⟨.slice 0, 16, 6⟩], [⟨.slice 0, 0, 0, true, 0⟩], 24, false, false⟩
      let s := { nearly a with parts := [(0, { part0 with tx := some y })] }
      (s.core 0).near = ⟨0, 2, 0, a⟩ :: [] ∧ (s.part 0).tx = some y ∧ y.gone = false ∧ throughBuffer y (.slice 0) (s.core 0).slice 16 = 6 := by
  decide

/-- A queue with room, all its places but one held; a drain field in order; one and two words popped; a call whose routine's entry is
valid, of words in order. -/
theorem witness_MatrixParametersAndCalls :
    roomy demo ∧ drainBad (me demo).pcw = false ∧ (∃ u, pops demo 2 [7] u) ∧ (∃ u, pops demo 1 [5, 9] u) ∧
    (let s := { demoCore (fun c => { c with mpst := [(0, 16 + 2 ^ 26)] }) with
       parts := [(0, { part0 with mps := [(1, BitVec.ofNat 64 (2 ^ 21))] })] }
     mcallFault s false ((mine s).routine 0) = none ∧ tableInFlight s s.cur.core (fun t => t == 2) = false) ∧
    ∃ u, source demo 1 false 5 u :=
  ⟨Nat.zero_lt_succ 7, by decide, ⟨_, _, _, ⟨rfl, rfl⟩, rfl, rfl⟩, ⟨_, _, _, ⟨rfl, rfl⟩, rfl, _, _, ⟨rfl, rfl⟩, rfl, rfl⟩, by decide, ⟨_, rfl, rfl⟩⟩

/-- Queue 5 of partition 0 holds three words. -/
def withWords (a b c : Nat) : State := demoPart fun p => { p with sq := [(5, [BitVec.ofNat 64 a, BitVec.ofNat 64 b, BitVec.ofNat 64 c])] }

theorem popped_one (a b c : Nat) (h : a < 2 ^ 64) : ∃ u, pops (withWords a b c) 5 [a] u :=
  ⟨_, _, _, ⟨rfl, rfl⟩, (Nat.mod_eq_of_lt h).symm, rfl⟩

theorem popped_two (a b c : Nat) (h : a < 2 ^ 64 ∧ b < 2 ^ 64) : ∃ u, pops (withWords a b c) 5 [a, b] u :=
  ⟨_, _, _, ⟨rfl, rfl⟩, (Nat.mod_eq_of_lt h.1).symm, _, _, ⟨rfl, rfl⟩, (Nat.mod_eq_of_lt h.2).symm, rfl⟩

theorem popped_three (a b c : Nat) (h : a < 2 ^ 64 ∧ b < 2 ^ 64 ∧ c < 2 ^ 64) : ∃ u, pops (withWords a b c) 5 [a, b, c] u :=
  ⟨_, _, _, ⟨rfl, rfl⟩, (Nat.mod_eq_of_lt h.1).symm, _, _, ⟨rfl, rfl⟩, (Nat.mod_eq_of_lt h.2.1).symm, _, _, ⟨rfl, rfl⟩,
    (Nat.mod_eq_of_lt h.2.2).symm, rfl⟩

/-- An address that is not in the slice window can be reached. -/
theorem reachable_below (s : State) (va : Nat) (h : va < windowBase) : reachable s va := by
  intro x hx
  unfold State.windowVa at hx
  rw [if_pos h] at hx
  cases hx

/-- Greatest words of each form. -/
theorem witness_FarAccessesAndEngineCommands :
    spacious demo ∧ outsideTx demo ∧ unrecorded demo ∧
    (let v := 2 ^ 47
     let w := 2 ^ 37 - 1 - 2 ^ 23
     (∃ u, pops (withWords v w 0) 5 [v, w] u) ∧ w < 2 ^ 45 ∧ bit w 23 = false ∧ fld w 37 8 = 0 ∧
      reachable (withWords v w 0) (v % 2 ^ 56 / 8 * 8)) ∧
    (let v := 2 ^ 47
     let w := 9 * 2 ^ 46 + 2 ^ 45 + 2 ^ 23 - 1
     (∃ u, pops (withWords v w 0) 5 [v, w, 0] u) ∧ w < 2 ^ 50 ∧ bit w 23 = false ∧ fld w 24 13 = 0 ∧ fld w 37 8 = 0 ∧
      fld w 46 4 ≤ 9 ∧ reachable (withWords v w 0) (v % 2 ^ 56 / (if bit w 45 then 8 else 4) * if bit w 45 then 8 else 4)) ∧
    (∃ u, pops (withWords (2 ^ 23 - 1) 0 0) 5 [2 ^ 23 - 1] u) ∧ (∃ u, pops (withWords (2 ^ 23 - 32) 0 0) 5 [2 ^ 23 - 32] u) ∧
    (2 ^ 23 - 32) % 32 = 0 ∧ (∃ u, pops (withWords (2 ^ 56 - 64) 0 0) 5 [2 ^ 56 - 64] u) ∧ (2 ^ 56 - 64) % 64 = 0 ∧
    (∃ u, pops (withWords (2 ^ 52 - 1) (2 ^ 24) 0) 5 [2 ^ 52 - 1, 2 ^ 24] u) ∧ (2 ^ 24) % 16 = 0 ∧
    (∃ u, pops (withWords 0 (2 ^ 56 - 1) 0) 5 [0, 2 ^ 56 - 1] u) ∧
    ∃ u, pops (withWords (2 ^ 56 - 1) (2 ^ 46 - 1) (2 ^ 56 - 1)) 5 [2 ^ 56 - 1, 2 ^ 46 - 1, 2 ^ 56 - 1] u := by
  refine ⟨⟨Nat.zero_lt_succ 31, Nat.zero_lt_succ 511⟩, ?_, ?_, ⟨popped_two _ _ _ (by decide), by decide, by decide, by decide, reachable_below _ _ (by decide)⟩,
    ⟨popped_three _ _ _ (by decide), by decide, by decide, by decide, by decide, by decide, reachable_below _ _ (by decide)⟩,
    popped_one _ _ _ (by decide), popped_one _ _ _ (by decide), by decide, popped_one _ _ _ (by decide), by decide,
    popped_two _ _ _ (by decide), by decide, popped_two _ _ _ (by decide), popped_three _ _ _ (by decide)⟩
  · intro x h; cases h
  · exact unrecorded_demo

/-- The greatest offset of a TAKE whose context records, with a place free in its ring and with none, and of one whose context replays an
entry of another kind, of its kind, and none. -/
theorem witness_RecordedTakesIssue :
    (∀ n ∈ [0, 64],
      let s := { recording n with parts := (withWords (2 ^ 23 - 1) 0 0).parts }
      spacious s ∧ outsideTx s ∧ s.ctxOf s.cur.core = some 3 ∧ (s.ctx 3).recording = true ∧ (s.ctx 3).replaying = false ∧
        s.ringFull 3 = decide (n = 64) ∧ ∃ u, pops s 5 [2 ^ 23 - 1] u) ∧
    ∀ v ∈ [((1 : W8), (0 : W8)), (1, 7), (0, 0)],
      let s := { replaying with
        parts := (withWords (2 ^ 23 - 1) 0 0).parts,
        cores := [(0, { core0 with kernel := some 0, slice := ⟨0, [(0, v.1), (64, v.2)]⟩ })] }
      spacious s ∧ outsideTx s ∧ s.ctxOf s.cur.core = some 3 ∧ (s.ctx 3).replaying = true ∧
        (s.findEntry 3 s.cur.gpi (number s 3)).map (fun e => e.getD 0 0 % 16) = (if v.1 = 0 then none else some v.2.toNat) ∧
        ∃ u, pops s 5 [2 ^ 23 - 1] u := by
  have o : ∀ s : State, (me s).tx = none → outsideTx s := fun s h x e => by rw [h] at e; cases e
  refine ⟨fun n hn => ?_, fun v hv => ?_⟩
  · simp only [List.mem_cons, List.not_mem_nil, or_false] at hn
    rcases hn with rfl | rfl <;>
      exact ⟨⟨Nat.zero_lt_succ 31, Nat.zero_lt_succ 511⟩, o _ rfl, rfl, rfl, rfl, by decide +kernel, _, _, _, ⟨rfl, rfl⟩, rfl, rfl⟩
  · simp only [List.mem_cons, List.not_mem_nil, or_false] at hv
    rcases hv with rfl | rfl | rfl <;>
      exact ⟨⟨Nat.zero_lt_succ 31, Nat.zero_lt_succ 511⟩, o _ rfl, rfl, rfl, by decide +kernel, _, _, _, ⟨rfl, rfl⟩, rfl, rfl⟩

/-- An MCST asks for a window whose free fields hold its rows. Where the free mask of window 0x1 is not 0 and its size takes one row,
such a command issues; the spec gives no entry's fields a place (assumption log 12), so the hypotheses are met for such values of
them. -/
theorem witness_MulticastIssue (h1 : mcMask 1 ≠ 0) (h2 : 128 ≤ mcSize 1) :
    let s := { withWords 0 0 0 with clusters := [(0, { Cluster.initial with mcwin := [(0, 1)] })] }
    let e := Cells.get 0 (fld 0 23 4) (s.cluster (s.cur.core / 16)).mcwin
    (∃ u, pops s 5 [0] u) ∧ mcMask e ≠ 0 ∧ 16 * fld 0 27 12 + 128 * (fld 0 39 5 + 1) ≤ mcSize e :=
  ⟨⟨_, _, _, ⟨rfl, rfl⟩, rfl, rfl⟩, h1, h2⟩

/-! ### Hypotheses met: refusals, tags, landings, the call queue -/

/-- Demo with a call of a kind, issued a clock ago, that reserves bank groups 0 and 1. -/
def withCalls (n : Nat) : State := demoCore fun c => { c with
  calls := List.replicate n { newCall demo (.mcall 0) (some 1) [] with age := 1, agrp := 0, bgrp := 1 } }

/-- Demo with n commands of its partition. -/
def withCmds (n : Nat) : State := demoPart fun p => { p with cmds := List.replicate n (newCmd demo .drn 0 1 0 0 []) }

/-- Demo in a transaction. -/
def inTx : State := demoPart fun p => { p with tx := some ⟨0, 0, 0, [], [], 24, false, false⟩ }

/-- Demo whose partition has a command that counts its time with 512 rows to move: an FLD of 65,536 bytes. -/
def withRows : State := demoPart fun p => { p with
  cmds := [{ newCmd demo .fld 0 1 0 0 [0, 8191 * 2 ^ 24] with counting := true, looked := true }] }

theorem not_free (a : Nat) (h : a / 2 ^ 21 = 0) : ¬ free (withCalls 1) a := fun f =>
  (f _ (List.mem_singleton.mpr rfl) 0 rfl (le_refl 1)).1 h.symm

/-- A bank that is off. A reserved group at its first bytes, for an access of each form: of one scalar source, of a scalar data source
and of a vector one. A routine without an entry; a full call queue; a load of the routine store in flight. 32 commands, and 512 rows
that one command has still to move. Argument words with a reserved bit set, or out of their range. A transaction. -/
theorem witness_BanksCallsAndCommandsRefused :
    ¬ awake demo 4 ∧
    (∃ u, source (withCalls 1) 2 false 7 u ∧ awake (withCalls 1) 3 ∧ ¬ free (withCalls 1) (offset (withCalls 1) 7 0 11 (2 ^ 3)) ∧
      ¬ free (withCalls 1) (offset (withCalls 1) 7 0 13 128) ∧ ¬ free (withCalls 1) (offset (withCalls 1) 7 0 6 128)) ∧
    (∃ t u, source (withCalls 1) 1 false 5 t ∧ source t 2 true 7 u ∧ ¬ free (withCalls 1) (offset (withCalls 1) 7 0 11 (2 ^ 3)) ∧
      ¬ free (withCalls 1) (offset (withCalls 1) 7 0 8 8) ∧ ¬ free (withCalls 1) (offset (withCalls 1) 7 0 8 4)) ∧
    (∃ t u, vsource (withCalls 1) 1 false 0x030201 t ∧ source t 2 true 7 u ∧ ¬ free (withCalls 1) (offset (withCalls 1) 7 0 13 128)) ∧
    mcallFault demo (tableInFlight demo demo.cur.core fun t => t == 2) ((mine demo).routine 0) = some 0x1B ∧
    ¬ roomy (withCalls 8) ∧
    (let s := demoCore fun c => { c with pend := [⟨6, 0, 0, 3, 0, .table 2 0 0 [] 1 0⟩] }
     tableInFlight s s.cur.core (fun t => t == 2) = true) ∧
    (¬ spacious (withCmds 32) ∧ ¬ spacious withRows ∧ withRows.ctxOf withRows.cur.core = none) ∧
    (∀ v ∈ [2 ^ 23, 16, 4, 2 ^ 56, 32, 2 ^ 44, 2 ^ 39, 2 ^ 23, 4096 * 2 ^ 23, 2 ^ 36, 510 * 2 ^ 23, 1020 * 2 ^ 23, 768 * 2 ^ 23, 64 * 2 ^ 23],
      ∃ u, pops (withWords v 0 0) 5 [v] u) ∧
    (∀ w ∈ [(0, 2 ^ 23), (0, 2 ^ 37), (0, 2 ^ 45), (2 ^ 52, 16), (0, 15), (0, 2 ^ 24 + 16), (0, 17), (0, 2 ^ 56)],
      ∃ u, pops (withWords w.1 w.2 0) 5 [w.1, w.2] u) ∧
    (∀ w ∈ [(0, 2 ^ 24, 0), (0, 10 * 2 ^ 46, 0), (0, 2 ^ 50, 0), (2 ^ 56, 0, 0), (0, 2 ^ 46, 0), (0, 0, 2 ^ 56)],
      ∃ u, pops (withWords w.1 w.2.1 w.2.2) 5 [w.1, w.2.1, w.2.2] u) ∧
    ¬ outsideTx inTx := by
  refine ⟨fun h => absurd h.1 (by decide),
    ⟨_, ⟨rfl, rfl⟩, ⟨rfl, rfl, rfl⟩, not_free _ (by decide), not_free _ (by decide), not_free _ (by decide)⟩,
    ⟨_, _, ⟨rfl, rfl⟩, ⟨rfl, rfl⟩, not_free _ (by decide), not_free _ (by decide), not_free _ (by decide)⟩,
    ⟨_, _, ⟨rfl, rfl⟩, ⟨rfl, rfl⟩, not_free _ (by decide)⟩, by decide, Nat.lt_irrefl 8, by decide,
    ⟨fun h => Nat.lt_irrefl 32 h.1, fun h => absurd h.2 (by decide), rfl⟩, ?_, ?_, ?_,
    fun h => absurd (h _ rfl) (by decide)⟩
  · have h : ∀ v ∈ [2 ^ 23, 16, 4, 2 ^ 56, 32, 2 ^ 44, 2 ^ 39, 2 ^ 23, 4096 * 2 ^ 23, 2 ^ 36, 510 * 2 ^ 23, 1020 * 2 ^ 23, 768 * 2 ^ 23,
      64 * 2 ^ 23], v < 2 ^ 64 := by decide
    exact fun v hv => popped_one _ _ _ (h v hv)
  · have h : ∀ w ∈ [(0, 2 ^ 23), (0, 2 ^ 37), (0, 2 ^ 45), (2 ^ 52, 16), (0, 15), (0, 2 ^ 24 + 16), (0, 17), (0, 2 ^ 56)],
      w.1 < 2 ^ 64 ∧ w.2 < 2 ^ 64 := by decide
    exact fun w hw => popped_two _ _ _ (h w hw)
  · have h : ∀ w ∈ [(0, 2 ^ 24, 0), (0, 10 * 2 ^ 46, 0), (0, 2 ^ 50, 0), (2 ^ 56, 0, 0), (0, 2 ^ 46, 0), (0, 0, 2 ^ 56)],
      w.1 < 2 ^ 64 ∧ w.2.1 < 2 ^ 64 ∧ w.2.2 < 2 ^ 64 := by decide
    exact fun w hw => popped_three _ _ _ (h w hw)

theorem outsideTx_demo : outsideTx demo := by
  intro x h
  cases h

/-- The last aligned offset of a TXC's word; a transaction open. -/
theorem witness_TagsAndTransactions :
    (∃ u, source demo 1 false 5 u) ∧ spacious demo ∧ outsideTx demo ∧ spacious inTx ∧
    (me inTx).tx = some ⟨0, 0, 0, [], [], 24, false, false⟩ ∧
    (let s := demoPart fun p => { p with sq := [(5, [BitVec.ofNat 64 (2 ^ 23 - 8)])], tx := (me inTx).tx }
     ∃ u, pops s 5 [2 ^ 23 - 8] u) ∧ (2 ^ 23 - 8) % 8 = 0 :=
  ⟨⟨_, rfl, rfl⟩, ⟨Nat.zero_lt_succ 31, Nat.zero_lt_succ 511⟩, outsideTx_demo, ⟨Nat.zero_lt_succ 31, Nat.zero_lt_succ 511⟩,
    rfl, ⟨_, _, _, ⟨rfl, rfl⟩, rfl, rfl⟩, by decide⟩

/-- The word of a table load from bank 0 with a first index. -/
def firstAt (i : Nat) : Nat := 2 ^ 23 * i

/-- The last first index of each of the five tables. -/
theorem witness_TableLoadsIssue :
    (∀ i ∈ [4080, 508, 1016, 736, 32],
      (∃ u, pops (withWords (firstAt i) 0 0) 5 [firstAt i] u) ∧ firstAt i < 2 ^ 39 ∧ fld (firstAt i) 36 3 = 0 ∧
        fld (firstAt i) 23 13 = i ∧ cbldBusy (withWords (firstAt i) 0 0) (firstAt i) = false) ∧
    spacious (withWords 0 0 0) ∧ outsideTx (withWords 0 0 0) ∧ (mine (withWords 0 0 0)).calls = [] ∧
    4080 % 16 = 0 ∧ 508 % 4 = 0 ∧ 1016 % 8 = 0 ∧ 736 % 32 = 0 ∧ 32 % 32 = 0 ∧
    (let s := demoPart fun p => { p with tags := BitVec.allOnes 64 }
     (∀ g ∈ needs s 1 2 63, (me s).tags.getLsbD g = true) ∧ (me s).acquiring (me s).bno = false) := by
  refine ⟨fun i hi => ?_, ⟨Nat.zero_lt_succ 31, Nat.zero_lt_succ 511⟩, ?_, rfl, rfl, rfl, rfl, rfl, rfl, by decide⟩
  · simp only [List.mem_cons, List.not_mem_nil, or_false] at hi
    rcases hi with rfl | rfl | rfl | rfl | rfl <;>
      exact ⟨popped_one _ _ _ (by decide), by decide, by decide, by decide, by decide⟩
  · intro x h
    cases h

/-- Demo's core with a result due and one that is not. -/
def landing (a : LandAct) : State := demoCore fun c => { c with tick := 6, pend := [⟨7, 0, 1, 0, 0, .pred 0 true⟩, ⟨6, 1, 0, 2, 1, a⟩] }

/-- A result due that is not a table load's is next, behind one that is not due; and so is a table load's. -/
theorem witness_LandingsOfResultsAndTables :
    (∀ a, ¬ ofTable a → nextLanding (landing a) 0 false [⟨7, 0, 1, 0, 0, .pred 0 true⟩] ⟨6, 1, 0, 2, 1, a⟩ []) ∧
    (∀ a ∈ [LandAct.spush 31 0, .vpush 63 0, .tileRow 15 127 0 0, .pred 7 false, .mask 7 0, .creg 0x23 0xFF 0, .sema 3 1, .cbsel 7,
      .mparam 15 0, .tagClear 0], ¬ ofTable a) ∧
    nextLanding (landing (.table 4 0 32 [] 63 0)) 0 true [⟨7, 0, 1, 0, 0, .pred 0 true⟩] ⟨6, 1, 0, 2, 1, .table 4 0 32 [] 63 0⟩ [] := by
  refine ⟨fun a h => ⟨rfl, le_refl 6, ⟨fun x => absurd x h, fun x => by cases x⟩, ?_, fun m hm => by cases hm⟩, ?_,
    rfl, le_refl 6, ⟨fun _ => rfl, fun _ => ⟨_, _, _, _, _, _, rfl⟩⟩, ?_, fun m hm => by cases hm⟩
  · intro m hm h7
    rw [List.mem_singleton.mp hm] at h7
    exact absurd (show (7 : Nat) ≤ 6 from h7) (by decide)
  · intro a ha ⟨_, _, _, _, _, _, h⟩
    subst h
    simp at ha
  · intro m hm h7
    rw [List.mem_singleton.mp hm] at h7
    exact absurd (show (7 : Nat) ≤ 6 from h7) (by decide)

/-- A unit of cluster 0 whose other participant has not arrived, and has; a bank about to begin, and about to end, a transition; a
release about to reach its partition at each scope. -/
theorem witness_BarriersAndBankPower :
    (let s := { demo with clusters := [(0, { Cluster.initial with bars := [(15, ⟨[0, 4], [], false⟩)] })] }
     s.cur.gpi ∈ (s.barUnit s.cur.core 0 15).parts ∧
      ∃ p ∈ (s.barUnit s.cur.core 0 15).parts, p ≠ s.cur.gpi ∧ p ∉ (s.barUnit s.cur.core 0 15).arrived) ∧
    (let s := { demo with clusters := [(0, { Cluster.initial with bars := [(15, ⟨[0, 4], [4], false⟩)] })] }
     s.cur.gpi ∈ (s.barUnit s.cur.core 0 15).parts ∧
      ∀ p ∈ (s.barUnit s.cur.core 0 15).parts, p ≠ s.cur.gpi → p ∈ (s.barUnit s.cur.core 0 15).arrived) ∧
    (let x : TBank := ⟨.off, .on, .on, 0, true, false, 0⟩
     let s := demoPart fun p => { p with banks := [(3, x)] }
     x = Cells.get TBank.idle 3 (s.part 0).banks ∧ x.pending = true ∧ x.state = x.target ∧ x.req ≠ x.state ∧
      (∀ l ∈ (s.core (0 / 4)).pend, l.gpi = 0 → ∀ t r e v, l.act = .tileRow t r e v → t / 4 ≠ 3) ∧
      ∀ e ∈ (s.part 0).snap, ∀ t r en v, e.act = .tileRow t r en v → t / 4 ≠ 3) ∧
    (let x : TBank := ⟨.off, .on, .off, 0, false, false, 0⟩
     let s := demoPart fun p => { p with banks := [(3, x)] }
     x = Cells.get TBank.idle 3 (s.part 0).banks ∧ x.left = 0 ∧ x.state ≠ x.target) ∧
    ∀ w ∈ [BarWait.mk 0 15 0 (some 0), ⟨1, 63, 96, some 0⟩, ⟨2, 63, 224, some 0⟩],
      let s := demoPart fun p => { p with barw := some w }
      (s.part 0).barw = some w ∧ (s.part 0).held = none ∧ w.left = some 0 ∧
        (w.scope = 0 ∨ (w.scope = 1 ∧ 96 ≤ w.own) ∨ (w.scope = 2 ∧ 224 ≤ w.own)) := by
  refine ⟨by decide, by decide, ⟨rfl, rfl, rfl, by decide, ?_, ?_⟩, ⟨rfl, rfl, by decide⟩, ?_⟩
  · intro l h; cases h
  · intro e h; cases h
  intro w hw
  simp only [List.mem_cons, List.not_mem_nil, or_false] at hw
  rcases hw with rfl | rfl | rfl <;> exact ⟨rfl, rfl, rfl, by decide⟩

/-- A call that may write tile 7 and reads through windows of 8 blocks in parameters 0 and 1, formats INT8 and INT8. -/
def call0 : Call := { newCall demo (.mcall 0) (some 1) [] with
  stage := .running, awm := 0x80, acm := 0x81, pcw := 0xE7, mps := [(0, BitVec.ofNat 64 (7 * 2 ^ 40))], loops := [(3, 1)] }

/-- Demo with call0 running. -/
def running : State := demoCore fun c => { c with calls := [call0] }

theorem witness_MicroSequencing : runs running call0 ∧ (0 : Nat) = ((Cells.get 0 3 call0.loops - 1 : Int) % 2 ^ 16).toNat :=
  ⟨rfl, rfl⟩

/-! ### Hypotheses met: the matrix unit's work and the engine's -/

/-- Is an answer a value? -/
def answers {α : Type} (x : Except LateFault α) : Bool :=
  match x with
  | .ok _ => true
  | .error _ => false

theorem ok_of_answers {α : Type} {x : Except LateFault α} (h : answers x = true) : ∃ a, x = .ok a := by
  cases x with
  | ok a => exact ⟨a, rfl⟩
  | error e => cases h

/-- The descriptor of a window of 8 blocks at offset 0. -/
def window8 : W64 := BitVec.ofNat 64 (7 * 2 ^ 40)

theorem error_of_answers {α : Type} {x : Except LateFault α} (h : answers x = false) : ∃ f, x = .error f := by
  cases x with
  | ok a => cases h
  | error e => exact ⟨e, rfl⟩

theorem a_bank_loads : answers (loadBank (mine running) call0 0 0 false false) = true := by decide +kernel

theorem a_row_streams : answers (streamRow (mine running) call0 ⟨0, [], [], [], 0⟩ window8 0 0) = true := by decide +kernel

/-- A compressed window at a place whose group is not that of parameter 0. -/
def window1 : W64 := BitVec.ofNat 64 (2 ^ 22 + 7 * 2 ^ 40 + 2 ^ 39)

theorem a_row_fails : answers (streamRow (mine running) call0 ⟨0, [], [], [], 0⟩ window1 0 1) = false := by decide +kernel

/-- A free bank, a load that answers a bank and ones whose descriptor has a reserved bit and whose member is reserved; a stream whose tile
it may not write, whose bank's scales cannot be used, and one of a block beyond its window; a row
that answers contributions, and one whose operand lies outside its group. -/
theorem witness_WeightLoadsAndStreams :
    (runs running call0 ∧ 0 = (if call0.btag = false then 0 else 1) ∧ Cells.get 0 0 (mine running).bankFree ≤ (mine running).lclk) ∧
    ((bit (param call0 1).toNat 39 = true → call0.primed = true ∨ call0.row ≠ 0) ∧
      (∃ r, loadBank (mine running) call0 0 0 false false = .ok r) ∧
      loadBank (mine running) call0 (BitVec.ofNat 64 (2 ^ 45)) 0 false false = .error ⟨0x1B, 0, 0⟩) ∧
    (Cells.get 0 0 (mine running).bankDone ≤ (mine running).lclk ∧ Cells.get 0 7 (mine running).addDone ≤ (mine running).lclk ∧
      bit call0.awm 6 = false ∧ bit call0.awm 7 = true) ∧
    (let k := { call0 with mps := [(0, BitVec.ofNat 64 (2 ^ 45))] }
     runs (demoCore fun c => { c with calls := [k] }) k ∧ 2 ^ 45 ≤ (param k 0).toNat ∧
      bit (param k 0).toNat 39 = false) ∧
    (let k := { call0 with pcw := BitVec.ofNat 64 (2 ^ 30), mem := 0xFFFF }
     runs (demoCore fun c => { c with calls := [k] }) k ∧ bit k.pcw.toNat 30 = true ∧ (param k 0).toNat < 2 ^ 45 ∧ k.mem = 0xFFFF) ∧
    (let k := { call0 with pcw := 0, sctab := [(0, 0xFF00)] }
     runs (demoCore fun c => { c with calls := [k] }) k ∧ k.row = 0 ∧ bankScalesOk k ⟨0, [], [], [], 0⟩ = false) ∧
    (fld (param call0 0).toNat 40 5 < 0 + 8 * fld 1 0 2 ∧ bit 1 2 = false) ∧
    (usable call0 (param call0 0) ∧ (∀ b < 8, bit 0 (4 * b + 2) = false → b + 8 * fld 0 (4 * b) 2 ≤ fld (param call0 0).toNat 40 5) ∧
      (19 ≤ fld call0.pcw.toNat 5 5 → fld (param call0 0).toNat 40 5 % 2 = 1) ∧
      (call0.row = 0 → bankScalesOk call0 ⟨0, [], [], [], 0⟩ = true) ∧
      ∃ r, streamRow (mine running) call0 ⟨0, [], [], [], 0⟩ (param call0 0) 0 call0.row = .ok r) ∧
    ∃ f, streamRow (mine running) call0 ⟨0, [], [], [], 0⟩ window1 0 1 = .error f :=
  ⟨⟨rfl, rfl, le_refl 0⟩, ⟨by decide, ok_of_answers a_bank_loads, rfl⟩, ⟨le_refl 0, le_refl 0, rfl, rfl⟩,
    ⟨rfl, by decide, by decide⟩, ⟨rfl, by decide, by decide, rfl⟩, ⟨rfl, rfl, by decide +kernel⟩, by decide,
    ⟨⟨by decide, by decide⟩, by decide, by decide, fun _ => rfl, ok_of_answers a_row_streams⟩,
    error_of_answers a_row_fails⟩

theorem zero_bytes (a n : Nat) : ∀ b ∈ Mem.zero.bytes a n, b = 0 := by
  induction n generalizing a with
  | zero => intro b h; cases h
  | succ n ih =>
    intro b h
    rcases List.mem_cons.mp h with rfl | h
    · rfl
    · exact ih (a + 1) b h

theorem joined_zeros (l : List W8) (h : ∀ b ∈ l, b = 0) : joinBytes l = 0 := by
  induction l with
  | nil => rfl
  | cons x r ih =>
    rw [joinBytes, h x (List.mem_cons_self ..), ih fun b hb => h b (List.mem_cons_of_mem _ hb)]
    rfl

/-- Zero bytes read as 256 exact forms of EA 0, the EA of call0. -/
theorem exact_zeros : ∀ x ∈ (List.range 256).map (fun j => joinBytes (((Mem.zero.bytes 0 4096).drop (16 * j)).take 16)),
    fld x 88 8 = fld call0.pcw.toNat 14 8 := by
  intro x hx
  obtain ⟨j, -, rfl⟩ := List.mem_map.mp hx
  rw [joined_zeros _ fun b hb => zero_bytes 0 4096 b (List.mem_of_mem_drop (List.mem_of_mem_take hb))]
  rfl

theorem operand_in_place (c : Core) (l n : Nat) (hl : l = 0) (hn : n ≤ 2 ^ 23) :
    operandBytes c window8 l n = .ok (c.slice.bytes 0 n) := by
  subst hl
  have h0 : (dOfs window8 + 0) % 2 ^ 23 = 0 := by decide
  unfold operandBytes sliceBytes
  rw [if_neg (by decide), h0, if_pos (by omega)]

/-- A tile that the call may write, its landings past; an AADDM's operand read; a tile of the same format added; a row written at a
place of the slice. -/
theorem witness_TileMicroOperations :
    runs running call0 ∧ bit call0.awm 7 = true ∧
    ((mine running).lclk + 1 ≤ 1 ∧ (∀ i < 32, Cells.get 0 (32 * 7 + i) (mine running).accReady ≤ 1)) ∧
    (let k := { call0 with primed := true }
     let s := demoCore fun c => { c with calls := [k] }
     runs s k ∧ window8 = param k 0 ∧ bit k.awm 7 = true ∧ window8.toNat < 2 ^ 45 ∧ k.primed = true ∧
      operandBytes (mine s) window8 (k.row * (fld window8.toNat 23 16 * 128)) 4096 = .ok (Mem.zero.bytes 0 4096)) ∧
    (settled running 3 31 31 ∧ ((Cells.get ⟨false, 0⟩ 3 (mine running).accTag).hold = true →
      (Cells.get ⟨false, 0⟩ 3 (mine running).accTag).ea = fld call0.pcw.toNat 14 8)) ∧
    (settled running 7 31 31 ∧ usable call0 window8 ∧
      ∃ t, writeOperand running.cur.core window8 (call0.row * (fld window8.toNat 23 16 * 128)) [0, 1] running = .ok t) := by
  have h : ∀ t r, settled running t r 31 := fun t r i _ => Nat.zero_le 0
  exact ⟨rfl, rfl, ⟨le_refl 1, fun i _ => Nat.zero_le 1⟩, ⟨rfl, rfl, rfl, by decide, rfl, operand_in_place _ _ _ rfl (by decide)⟩,
    ⟨h 3 31, by decide⟩, h 7 31, ⟨by decide, by decide⟩, ⟨_, rfl⟩⟩

/-- Demo's core with one call of a kind at a stage, and one matrix result. -/
def calling (kind : CallKind) (stage : CallStage) : State := demoCore fun c => { c with
  calls := [{ call0 with kind := kind, stage := stage, id := 5 }], lclk := 9,
  matPend := [⟨10, 5, .clearTile 1⟩, ⟨9, 5, .addRow 7 31 true 64 (List.replicate 256 ([2 ^ 79, -1], true))⟩, ⟨9, 5, .clearTile 7⟩],
  loads := [⟨10, 5, 0, ⟨0, [], [], [], 0⟩⟩, ⟨9, 5, 1, ⟨0, [], [], [], 0⟩⟩] }

/-- An entry of each kind that starts, one that runs, and one that has ended with its landings past; a background load and matrix results
that are due behind others that are not. -/
theorem witness_CallQueueAndAccumulators :
    (∀ k ∈ [CallKind.wswap, .mcall 0, .aclr 255, .acdrn (2 ^ 63) 0],
      ((calling k .queued).core 0).calls.find? (fun c => c.stage == .queued) = some { call0 with kind := k, stage := .queued, id := 5 } ∧
      ((calling k .running).core 0).calls.find? (fun c => c.stage == .running) =
        some { call0 with kind := k, stage := .running, id := 5 }) ∧
    (∀ k ∈ [CallKind.mcall 0, .acdrn (2 ^ 63) 0],
      let x := { call0 with kind := k, stage := .ended, id := 5 }
      ((calling k .ended).core 0).calls = [] ++ x :: [] ∧ x.stage = .ended ∧ x.tag = some 1 ∧
        x.ended ≤ ((calling k .ended).core 0).lclk ∧ x.land + 1 ≤ ((calling k .ended).core 0).lclk) ∧
    (let c := (calling .wswap .queued).core 0
     c.loads = [⟨10, 5, 0, ⟨0, [], [], [], 0⟩⟩] ++ ⟨9, 5, 1, ⟨0, [], [], [], 0⟩⟩ :: [] ∧
      (∀ x ∈ [(⟨10, 5, 0, ⟨0, [], [], [], 0⟩⟩ : BankLoad)], c.lclk < x.due) ∧
      c.matPend = [⟨10, 5, .clearTile 1⟩] ++ ⟨9, 5, .addRow 7 31 true 64 (List.replicate 256 ([2 ^ 79, -1], true))⟩ ::
        [⟨9, 5, .clearTile 7⟩] ∧
      (∀ x ∈ [(⟨10, 5, .clearTile 1⟩ : MatLanding)], c.lclk < x.due) ∧ c.lclk = 9) ∧
    (List.replicate 256 (([2 ^ 79, -1] : List Int), true)).length = 256 := by
  refine ⟨fun k hk => ?_, fun k hk => ?_, ⟨rfl, ?_, rfl, ?_, rfl⟩, List.length_replicate⟩
  · simp only [List.mem_cons, List.not_mem_nil, or_false] at hk
    rcases hk with rfl | rfl | rfl | rfl <;> exact ⟨rfl, rfl⟩
  · simp only [List.mem_cons, List.not_mem_nil, or_false] at hk
    rcases hk with rfl | rfl <;> exact ⟨rfl, rfl, rfl, by decide, by decide⟩
  · intro x hx; rw [List.mem_singleton.mp hx]; exact Nat.lt_succ_self 9
  · intro x hx; rw [List.mem_singleton.mp hx]; exact Nat.lt_succ_self 9

/-- A command of partition 0 of a kind, with argument words, that counts its time. -/
def cmd0 (kind : EngKind) (words : List Nat) : Cmd := { newCmd demo kind 0 1 0 0 words with id := 7, counting := true, looked := true }

/-- Demo with one command. -/
def commanding (d : Cmd) (slice : List Host.Cell) : State := { demo with
  parts := [(0, { part0 with cmds := [d] })], cores := [(0, { core0 with slice := ⟨0, slice⟩ })],
  clusters := [(0, { Cluster.initial with tq := [(1023, 9)], tqTail := 0 })] }

/-- A core that holds no request and a device with no context: no budget, no log. -/
theorem quiet (s : State) (n : Nat) (hc : s.ctxs = []) (hh : (s.core n).holds = []) : unmetered s n ∧ unlogged s n := by
  have e : ∀ k, s.ctx k = Context.initial := fun k => by unfold State.ctx; rw [hc]; rfl
  refine ⟨⟨fun k _ cls => ?_, fun h hm => ?_⟩, fun k _ => ?_, fun a => ?_⟩
  · rw [e]; simp [Context.budget, Context.word, Context.initial, fld]
  · rw [hh] at hm; cases hm
  · rw [e]; rfl
  · simp [State.loggers, e, Context.initial]

/-- A descriptor to append, one that is zero, and a full queue's length; an entry to take, and one to deliver; a table load. -/
theorem witness_FarAccessesPerform_tasks :
    (let d := cmd0 .spawn [2 ^ 23 - 32]
     let s := commanding d [(2 ^ 23 - 32, 1)]
     held s 0 d ∧ moving d ∧ unhindered s d (.slice 0) (d.word 0) 32 ∧
      (found s 0 d.id (.slice 0)).readN (d.word 0) 32 % 2 ^ 64 ≠ 0 ∧ (s.cluster (home d)).tq.length < 1024) ∧
    (let d := cmd0 .spawn [0]
     let s := commanding d []
     held s 0 d ∧ moving d ∧ unhindered s d (.slice 0) (d.word 0) 32 ∧ (found s 0 d.id (.slice 0)).readN (d.word 0) 32 % 2 ^ 64 = 0) ∧
    (let d := cmd0 .spawn [0]
     let s := { commanding d [(0, 1)] with
       clusters := [(0, { Cluster.initial with tq := (List.range 1024).map fun i => (i, 1) })] }
     held s 0 d ∧ moving d ∧ 1024 ≤ (s.cluster (home d)).tq.length) ∧
    (let d := cmd0 .take [0]
     let s := commanding d []
     held s 0 d ∧ moving d ∧ d.out = [] ∧ d.words.length < 3 ∧ unmetered s 0 ∧ (d.rotation s)[d.rd]? = some 0 ∧
      (s.cluster 0).tq = [(1023, 9)]) ∧
    (let d := { cmd0 .take [2 ^ 23 - 32] with out := List.replicate 32 1 }
     let s := commanding d []
     held s 0 d ∧ moving d ∧ d.out.length = 32 ∧ (s.core 0).lock = false ∧ d.word 0 + 32 ≤ 2 ^ 23 ∧
      unhindered s d (.slice 0) (d.word 0) 32 ∧ unlogged s 0) ∧
    (∀ b ∈ [false, true],
     let d := cmd0 .table [255]
     let l : Landing := ⟨6, 0, 0, 3, 0, .table 2 0 0 [] 1 d.id⟩
     let s := { commanding d [] with
       parts := [(0, { part0 with cmds := [d] }), (4, { part0 with tx := some ⟨0, 0, 0, [], [⟨.slice 0, 0, 0, true, 0⟩], 24, b, false⟩ })],
       cores := [(0, { core0 with pend := [l] })] }
     held s 0 d ∧ moving d ∧ l ∈ (s.core 0).pend ∧ s.heldTile 0 (.slice 0) (d.word 0 % 2 ^ 23 / 128 * 128) 128 = b) := by
  have m : ∀ k ws, moving (cmd0 k ws) := fun k ws => ⟨rfl, rfl, rfl, rfl, rfl⟩
  refine ⟨⟨⟨rfl, rfl⟩, m _ _, by decide, by decide, by decide⟩, ⟨⟨rfl, rfl⟩, m _ _, by decide, by decide⟩,
    ⟨⟨rfl, rfl⟩, m _ _, by decide +kernel⟩, ⟨⟨rfl, rfl⟩, m _ _, rfl, by decide, (quiet _ _ rfl rfl).1, rfl, rfl⟩,
    ⟨⟨rfl, rfl⟩, ⟨rfl, rfl, rfl, rfl, rfl⟩, rfl, rfl, by decide, by decide, (quiet _ _ rfl rfl).2⟩, fun b hb => ?_⟩
  simp only [List.mem_cons, List.not_mem_nil, or_false] at hb
  rcases hb with rfl | rfl <;> exact ⟨⟨rfl, rfl⟩, m _ _, by decide, by decide⟩

/-- A command whose first page leads to an owner's first bytes. -/
def paged (o : Owner) (d : Cmd) : Cmd := { d with pages := [(0, Xlate.page o 0 12 true)] }

/-- The last 8 bytes of a page of device memory, of the own cluster's last core and of a core of the next cluster; the phase in which
the writes of a clock enter the slices. -/
theorem witness_FarAccessesPerform_reads_and_writes :
    (∀ o ∈ [Owner.slice 15, .hbm, .slice 16],
      let d := paged o (cmd0 .fld [0, 0])
      let s := commanding d []
      d.intx = none ∧ s.cmd d.gpi d.id = some d ∧ (∀ x, o ≠ .peer x) ∧ unmetered s (d.gpi / 4) ∧ unlogged s (d.gpi / 4) ∧
        d.whereIs s 4088 false = .at o 4088 ∧ d.whereIs s 4088 true = .at o 4088 ∧ unhindered s d o 4088 8 ∧
        (s.cluster (home d)).posted.length < 256) ∧
    outside 0 (.slice 15) = false ∧ outside 0 .hbm = true ∧ outside 0 (.slice 16) = true ∧
    (let s := { demo with phase := 27 }
     s.agenda = [] ∧ s.phase = 27) := by
  refine ⟨fun o ho => ?_, rfl, rfl, rfl, rfl, rfl⟩
  simp only [List.mem_cons, List.not_mem_nil, or_false] at ho
  rcases ho with rfl | rfl | rfl <;>
    exact ⟨rfl, rfl, nofun, (quiet _ _ rfl rfl).1, (quiet _ _ rfl rfl).2, by decide, by decide, by decide, by decide⟩

/-- An addition, a compare-and-swap of each size that finds its value and one that does not; a counter at 0, at 1 with a continuation
and at 2. -/
theorem witness_FarAccessesPerform_updates :
    (∀ w ∈ [2 ^ 45, 9 * 2 ^ 46, 9 * 2 ^ 46 + 2 ^ 45], ∀ v ∈ [0, 1],
      let d := paged .hbm { cmd0 .fatom [0, w, v] with desc := [v] }
      let s := commanding d []
      let b := if bit (d.word 1) 45 then 8 else 4
      held s 0 d ∧ moving d ∧ d.intx = none ∧ d.out = [] ∧ unmetered s (0 / 4) ∧ unlogged s (0 / 4) ∧
        d.whereIs s (d.word 0 % 2 ^ 56 / b * b) true = .at .hbm 0 ∧ unhindered s d .hbm 0 b ∧ (found s 0 d.id .hbm).readN 0 b = 0) ∧
    ∀ n ∈ [0, 1, 2],
      let d := paged .hbm (cmd0 .join [0])
      let s := { commanding d [] with hbm := ⟨0, [(0, BitVec.ofNat 8 n), (8, 1)]⟩ }
      held s 0 d ∧ moving d ∧ d.intx = none ∧ d.out = [] ∧ unmetered s (0 / 4) ∧ unlogged s (0 / 4) ∧
        d.whereIs s (d.word 0 % 2 ^ 56) true = .at .hbm 0 ∧ unhindered s d .hbm 0 40 ∧ (found s 0 d.id .hbm).readN 0 8 = n ∧
        (found s 0 d.id .hbm).readN 8 32 % 2 ^ 64 ≠ 0 ∧ (s.cluster (home d)).tq.length < 1024 := by
  refine ⟨fun w hw v hv => ?_, fun n hn => ?_⟩
  · simp only [List.mem_cons, List.not_mem_nil, or_false] at hw hv
    rcases hw with rfl | rfl | rfl <;> rcases hv with rfl | rfl <;>
      exact ⟨⟨rfl, rfl⟩, ⟨rfl, rfl, rfl, rfl, rfl⟩, rfl, rfl, (quiet _ _ rfl rfl).1, (quiet _ _ rfl rfl).2, by decide, by decide,
        by decide⟩
  · simp only [List.mem_cons, List.not_mem_nil, or_false] at hn
    rcases hn with rfl | rfl | rfl <;>
      exact ⟨⟨rfl, rfl⟩, ⟨rfl, rfl, rfl, rfl, rfl⟩, rfl, rfl, (quiet _ _ rfl rfl).1, (quiet _ _ rfl rfl).2, by decide, by decide,
        by decide, by decide, by decide⟩

/-- A COPY of 8 bytes from 4088 to 8184 with a transform. -/
def copy0 (xf : Nat) : Cmd := { cmd0 .copy [0] with desc := [4088, 8184, 8 + 2 ^ 25 * xf, 0, 0] }

/-- Commands of 8 and 16 bytes: one that reads its slice, and one that reads global memory; one with bytes to pass on; one that writes
its slice, one that writes an owner in its cluster and one outside, and one that writes the scratchpad; one that has done and one
that owes its checksum. -/
theorem witness_FarAccessesPerform_row_moves :
    (∀ d, d.gpi = 0 →
      held (commanding d []) 0 d ∧ unmetered (commanding d []) (0 / 4) ∧ unlogged (commanding d []) (0 / 4)) ∧
    (∀ d ∈ [cmd0 .fst [0, 0], cmd0 .fld [0, 0], cmd0 .ovld [0, 0], copy0 0, copy0 4, cmd0 .gath [0, 0, 0], cmd0 .scat [0, 0, 0]],
      streaming d [0, 1, 2, 3, 4] ∧ moving d ∧ d.codec = [] ∧ d.intx = none ∧ d.gpi = 0) ∧
    streaming (copy0 5) [0, 4, 5] ∧ streaming (copy0 7) [0, 1, 2, 3, 5, 7] ∧ streaming (copy0 6) (List.range 8) ∧
    (let d := cmd0 .fst [0, 2 ^ 23 - 8]
     d.rd < d.srcLen ∧ d.wr < d.dstLen ∧ d.data = [] ∧ d.out = [] ∧ comesFrom d d.rd = (.near (2 ^ 23 - 8), 8) ∧
      unhindered (commanding d []) d (.slice 0) (2 ^ 23 - 8) 8) ∧
    (∀ o ∈ [Owner.slice 0, .hbm],
      let d := paged o (cmd0 .fld [4088, 0])
      d.rd < d.srcLen ∧ d.wr < d.dstLen ∧ d.data = [] ∧ d.out = [] ∧ comesFrom d d.rd = (.far 4088, 8) ∧
        d.whereIs (commanding d []) 4088 false = .at o 4088 ∧ unhindered (commanding d []) d o 4088 8) ∧
    (let d := { cmd0 .fld [0, 0] with rd := 8, data := List.replicate 8 1 }
     d.wr < d.dstLen ∧ d.data ≠ [] ∧ d.out = []) ∧
    (let d := { cmd0 .fld [0, 2 ^ 23 - 8] with rd := 8, out := List.replicate 8 1 }
     d.srcLen ≤ d.rd ∧ d.wr < d.dstLen ∧ inRow (2 ^ 23 - 8) 8 ≤ d.out.length ∧ goesWhere d d.wr = (.near (2 ^ 23 - 8), 8) ∧
      d.due (commanding d []) = true ∧ unhindered (commanding d []) d (.slice 0) (2 ^ 23 - 8) 8) ∧
    (∀ o ∈ [Owner.slice 15, .hbm],
      let d := paged o { cmd0 .fst [4088, 0] with rd := 8, out := List.replicate 8 1 }
      d.srcLen ≤ d.rd ∧ d.wr < d.dstLen ∧ inRow 4088 8 ≤ d.out.length ∧ goesWhere d d.wr = (.far 4088, 8) ∧
        d.whereIs (commanding d []) 4088 true = .at o 4088 ∧ unhindered (commanding d []) d o 4088 8 ∧
        d.due (commanding d []) = true ∧ ((commanding d []).cluster (home d)).posted.length < 256) ∧
    (let d := { cmd0 .ovld [0, 0] with rd := 16, out := List.replicate 16 1 }
     d.srcLen ≤ d.rd ∧ d.wr < d.dstLen ∧ inRow 0 16 ≤ d.out.length ∧ goesWhere d d.wr = (.code 0, 16) ∧
      d.due (commanding d []) = true) ∧
    (let d := { cmd0 .fld [0, 0] with rd := 8, wr := 8 }
     d.dstLen ≤ d.wr ∧ d.srcLen ≤ d.rd ∧ d.wantCrc = false) ∧
    (let d := { cmd0 .ovld [0, 2 ^ 55 + (2 ^ 23 - 4) * 2 ^ 32] with rd := 16, wr := 16 }
     d.dstLen ≤ d.wr ∧ d.srcLen ≤ d.rd ∧ d.wantCrc = true ∧ d.due (commanding d []) = true ∧ d.cofs + 4 ≤ 2 ^ 23 ∧
      unhindered (commanding d []) d (.slice 0) d.cofs 4) := by
  refine ⟨fun d h => ⟨⟨h, ?_⟩, quiet _ _ rfl rfl⟩, ?_, by unfold streaming; decide, by unfold streaming; decide,
    by unfold streaming; decide, by decide, ?_, by decide, by decide, ?_, by decide, by decide, by decide⟩
  · show [d].find? (fun c => c.id == d.id) = some d
    simp
  · intro d hd
    simp only [List.mem_cons, List.not_mem_nil, or_false] at hd
    rcases hd with rfl | rfl | rfl | rfl | rfl | rfl | rfl <;>
      exact ⟨by unfold streaming; decide, ⟨rfl, rfl, rfl, rfl, rfl⟩, rfl, rfl, rfl⟩
  · decide
  · decide

/-! ### Hypotheses met: posted writes, walks, traps, contexts and kernels -/

/-- No context of a state whose contexts hold no valid checkpoint keeps a log. -/
theorem unkept_of (s : State) (h : (s.ctxs.all fun c => !c.2.ck.valid) = true) : unkept s := by
  intro k
  unfold State.ctx
  revert h
  induction s.ctxs with
  | nil => intro _; rfl
  | cons x r ih =>
    intro h
    rw [List.all_cons, Bool.and_eq_true] at h
    show (if k = x.1 then x.2 else Cells.get Context.initial k r).ck.valid = false
    split
    · simpa using h.1
    · exact ih h.2

/-- A kernel of context 3 on cluster 0, at a stage. -/
def kernel0 (g : KStage) : Kernel := ⟨0, 0, 3, [], [], g, 0, 0, 256, 0, [0], 0, [], none, none, 0, 0, false, none⟩

/-- Demo with kernel 0 at a stage in context 3, which may use cluster 0 and whose page table, at 0x1000, maps the first 2 MiB of
device memory. -/
def kerneled (g : KStage) : State := { demo with
  cores := [(0, { core0 with kernel := some 0 })], kernels := [(0, kernel0 g)],
  ctxs := [(3, { Context.initial with
    active := true, record := [1, 0x1000, 0, 4096, 0, 0, 0, 0], savebase := 16 })],
  hbm := ⟨0, [(0x1000, 1), (0x1001, 0x20), (0x2000, 1), (0x2001, 0x30), (0x3000, 1), (0x3001, 0x40), (0x4000, 7)]⟩ }

theorem unlogged_kerneled (g : KStage) : unlogged (kerneled g) 0 := by
  refine ⟨fun k h => ?_, fun a => rfl⟩
  cases h
  rfl

/-- Of three buffered writes the one of the lowest partition that goes: of a command that is gone, to device memory's last bytes, and of
one that counts its time, to a slice; a multicast from the top of the slice; of two rows of contributions the first by rank, of the right
size and of another; and a context of one kernel whose one running partition has arrived at its checkpoint. -/
theorem witness_PostedMulticastAndCollectiveRows :
    (∀ x ∈ [(⟨0, false, true, 0, 9, hbmSize - 2, true, .hbm, hbmSize - 2, [1, 2]⟩ : Posted),
        ⟨0, false, true, 0, 7, 2 ^ 23, true, .slice 16, 2 ^ 23 - 2, [1, 2]⟩],
      let l : List Posted := [⟨1, false, true, 4, 9, 0, true, .slice 16, 0, [3]⟩]
      let r : List Posted := [⟨2, false, false, 0, 7, 0, true, .hbm, 0, [3]⟩]
      let s := { commanding (cmd0 .fst []) [] with clusters := [(0, { Cluster.initial with posted := l ++ x :: r })] }
      (s.cluster 0).posted = l ++ x :: r ∧ x.go = true ∧ x.sent = false ∧ (∀ d, x.owner ≠ .peer d) ∧ x.data ≠ [] ∧
        (∀ y ∈ l ++ r, y.id ≠ x.id) ∧
        (∀ y ∈ l, y.go = true → y.sent = false → x.gpi < y.gpi ∨ (x.gpi = y.gpi ∧ x.cmd < y.cmd)) ∧
        (∀ y ∈ r, y.go = true → y.sent = false → x.gpi < y.gpi ∨ (x.gpi = y.gpi ∧ x.cmd ≤ y.cmd)) ∧
        unlogged s (x.gpi / 4) ∧ unmetered s (x.gpi / 4) ∧ s.heldTile x.gpi x.owner x.addr x.data.length = false ∧
        ∀ n, x.owner = .slice n → ∀ w ∈ rowsOf x.addr x.data.length, (s.core n).bankFull x.gpi x.cmd w = false) ∧
    (let d := cmd0 .mcst [2 ^ 23 - 1]
     let s := commanding d []
     held s 0 d ∧ unlogged s (0 / 4) ∧ unmetered s (0 / 4) ∧
      s.heldTile 0 (.slice (0 / 4)) ((d.word 0 + 128 * d.rows) % 2 ^ 23) 128 = false ∧
      ∀ a, ∀ j < 16, s.heldTile 0 (.slice (16 * home d + j)) a 128 = false) ∧
    (∀ n ∈ [200, 100],
      let d := cmd0 .cgath [5 * 2 ^ 46, 200]
      let g : Gather := ⟨3, 5, 1, 0, 1, n, [7], none⟩
      let h : Gather := ⟨3, 5, 2, 0, 0, n, [8], none⟩
      let s := { kerneled .running with parts := [(0, { part0 with cmds := [d] })], gathers := [h, g] }
      let s := { s with parts := [(0, { part0 with cmds := [{ d with id := 6, landed := [2 ^ 20, 2 ^ 20 + 1] }, d] })] }
      let key := fun (h : Gather) => h.rank * 2 ^ 20 + h.row
      let awaits := fun (x : Cmd) (h : Gather) => key h ∉ x.landed ∧
        (x.landed.filter fun y => y / 2 ^ 20 == h.rank).length < (fld (x.word 1) 0 25 + 127) / 128
      let mine := fun (h : Gather) => h.ctx = 3 ∧ h.grp = fld (d.word 0) 46 6 ∧ h.dst = 0 ∧ awaits d h ∧
        ∀ x ∈ (s.part 0).cmds, x.kind = .cgath → x.id < d.id → fld (x.word 0) 46 6 = h.grp → ¬ awaits x h
      held s 0 d ∧ s.gathers = [h] ++ g :: [] ∧ s.ctxOf (0 / 4) = some 3 ∧ mine g ∧
        (∀ x ∈ [h], mine x → key g < key x) ∧ d.cgBytes = 200 ∧ unlogged s (0 / 4) ∧
        g.data.length ≤ 128 ∧ unhindered s d (.slice (0 / 4)) ((0 + 200 + 128) % 2 ^ 23) 128 ∧ unhindered s d (.slice (0 / 4)) 0 128) ∧
    (let d := { cmd0 .ckpt [] with aux := 1, rows := 1 }
     let s := { kerneled .running with
       parts := (0, { part0 with ckpt := true, cmds := [d] }) :: (List.range 15).map fun n => (4 * n + 4, { part0 with run := .idle }) }
     s.newArrivals 3 = [] ∧ s.ckptReady 3 = true ∧ (s.ctx 3).lock = false) := by
  refine ⟨fun x hx => ?_, ⟨⟨rfl, rfl⟩, (quiet _ _ rfl rfl).2, (quiet _ _ rfl rfl).1, by decide, fun a j _ => rfl⟩, fun n hn => ?_,
    by decide +kernel⟩
  · simp only [List.mem_cons, List.not_mem_nil, or_false] at hx
    rcases hx with rfl | rfl <;>
    · refine ⟨rfl, rfl, rfl, nofun, by decide, by decide, by decide, by decide, (quiet _ _ rfl rfl).2, (quiet _ _ rfl rfl).1,
        by decide, fun n h => ?_⟩
      cases h
      try decide
  · simp only [List.mem_cons, List.not_mem_nil, or_false] at hn
    have u := unlogged_kerneled .running
    rcases hn with rfl | rfl <;>
      exact ⟨⟨rfl, rfl⟩, rfl, rfl, by decide, by decide, by decide, ⟨fun k h => by cases h; rfl, fun a => rfl⟩, by decide, by decide,
        by decide⟩

theorem settled_demo (d : Cmd) (xs : List Host.Cell) : settledFor (commanding d xs) 0 := fun _ _ n => by
  show (n != 0 && false) = false
  exact Bool.and_false _

/-- A command of demo that stands before its clocks: nothing of it has moved, and nothing holds it. -/
def startsIn (d : Cmd) : Prop :=
  let s := commanding d []
  held s 0 d ∧ d.rows = 0 ∧ d.rd = 0 ∧ d.wr = 0 ∧ d.waits = [] ∧ d.counting = false ∧ settledFor s 0 ∧
    (s.cluster (home d)).posted = [] ∧
    ((d.looked = true ∧ (d.desc ≠ [] ∨ (d.kind ≠ .copy ∧ d.kind ≠ .gath ∧ d.kind ≠ .scat))) ∨
      (d.looked = false ∧ d.kind ≠ .copy ∧ d.kind ≠ .cgath ∧ d.desc = []))

/-- R237's clocks of a command of demo. -/
def clocksAre (d : Cmd) (T : Nat) : Prop := clocks (commanding d []) d T

/-- A range in one page is of one class where the page is. -/
theorem of_one_page (s : State) (d : Cmd) (L a n : Nat) (o : Owner) (b : Nat) (h : (a + (n - 1)) / 4096 = a / 4096)
    (hw : d.whereIs s (a / 4096 * 4096) false = .at o b) (hc : ofClass s d o L) : allOfClass s d L a n := by
  intro g hl hu
  obtain rfl : g = a / 4096 := by omega
  exact ⟨o, b, hw, hc⟩

/-- A command that has looked up its pages; one, a load from the slice window's first byte, that has not; a completion; of two walks
the one that waits, with a walker free and with none, and one at its end; two invalidations, one of them at its end. -/
theorem witness_CommandsAndPageWalks :
    (∀ d ∈ [paged (.slice 15) (cmd0 .fld [0, 0]), { copy0 1 with pages := [(0, Xlate.page .hbm 0 12 true), (1, Xlate.page .hbm 4096 12 true)] },
        paged .hbm (cmd0 .fatom [0, 0]), paged (.slice 16) { cmd0 .gath [0, 0, 0] with desc := [0] },
        paged (.slice 160) { cmd0 .scat [0, 0, 0] with desc := [0] }, cmd0 .spawn [0], cmd0 .take [0], cmd0 .txc [0]],
      startsIn { d with counting := false, started := true }) ∧
    (let d := { cmd0 .fld [windowBase, 0] with counting := false, looked := false, age := 2, needs := [] }
     startsIn d ∧ ∀ g ∈ ({ d with desc := d.fetch (commanding d []) } : Cmd).farPages, windowBase ≤ g * 4096) ∧
    clocksAre (paged (.slice 15) (cmd0 .fld [0, 0])) 24 ∧
    clocksAre { copy0 1 with pages := [(0, Xlate.page .hbm 0 12 true), (1, Xlate.page .hbm 4096 12 true)] } 2064 ∧
    clocksAre (paged .hbm (cmd0 .fatom [0, 0])) 1024 ∧ clocksAre (paged (.slice 16) { cmd0 .gath [0, 0, 0] with desc := [0] }) 104 ∧
    clocksAre (paged (.slice 160) { cmd0 .scat [0, 0, 0] with desc := [0] }) 232 ∧ clocksAre (cmd0 .mcst [2 ^ 44 - 1]) 57 ∧
    clocksAre (cmd0 .spawn [0]) 128 ∧ clocksAre (cmd0 .take [0]) 256 ∧
    (let d := cmd0 .drn []
     held (commanding d []) 0 d ∧ d.kind ≠ .take ∧ d.kind ≠ .txa) ∧
    (∀ n ∈ [0, 31, 32],
     let w : Walk := ⟨0, 0, 7, 8, none, 0⟩
     let l : List Walk := (List.range n).map fun i => ⟨0, 4, i, 0, some 5, 0⟩
     let s := { demo with walks := l ++ w :: [] }
     w.left = none ∧ w ∉ l ++ [] ∧ (∀ v ∈ l, v.gpi = 0 → v.cmd = 7 → v.left ≠ none) ∧
      (s.walks.filter fun x => x.die == w.die && x.left.isSome).length = n ∧ s.ctxOf (0 / 4) = none) ∧
    (let w : Walk := ⟨0, 0, 7, 8, none, 1⟩
     let s := { kerneled .running with walks := [w], clock := 4096 }
     s.ctxOf (0 / 4) = some 3 ∧ w.due ≤ s.period 3 ∧ 0 < w.due) ∧
    (let d := { cmd0 .fld [0, 0] with waits := [0] }
     let w : Walk := ⟨0, 0, 7, 8, some 0, 0⟩
     let s := { kerneled .running with parts := [(0, { part0 with cmds := [d] })], walks := [w] }
     held s 0 d ∧ s.ctxOf (0 / 4) = some 3 ∧ s.walks = [w] ∧ w.gpi = 0 ∧ w.cmd = d.id ∧ w.left = some 0) ∧
    (let e : TlbEntry := ⟨3, 8, .page .hbm 0 12 true, 0, 0, 0⟩
     let j := 3 * 2 ^ 56 + 2 ^ 60
     let s := { demo with tlbJobs := [(j, 0), (0, 4)], dieTlb := [(0, [e])] }
     (j, 0) ∈ s.tlbJobs ∧ invalidated j e ∧ ¬ invalidated 0 e) := by
  refine ⟨fun d hd => ?_, ⟨⟨⟨rfl, rfl⟩, rfl, rfl, rfl, rfl, rfl, settled_demo _ _, rfl, .inr ⟨rfl, by decide, by decide, rfl⟩⟩, by decide⟩,
    ⟨24, of_one_page _ _ _ _ _ (.slice 15) 0 (by decide) (by decide) rfl, by decide⟩,
    ⟨_, 1024, 1024, rfl, by decide, by decide, .inr ⟨by decide, of_one_page _ _ _ _ _ .hbm 0 (by decide) (by decide) rfl⟩,
      of_one_page _ _ _ _ _ .hbm 4096 (by decide) (by decide) rfl, by decide⟩,
    ⟨1024, _, rfl, of_one_page _ _ _ _ _ .hbm 0 (by decide) (by decide) rfl, rfl⟩,
    ⟨96, fun j hj => ?_, by decide⟩, ⟨224, fun j hj => ?_, by decide⟩, rfl, rfl, rfl, ⟨⟨rfl, rfl⟩, by decide, by decide⟩, ?_, by decide,
    ⟨⟨rfl, rfl⟩, rfl, rfl, rfl, rfl, rfl⟩,
    ⟨List.mem_cons_self .., ⟨by decide, .inl (by decide)⟩, fun h => absurd h.1 (by decide)⟩⟩
  · simp only [List.mem_cons, List.not_mem_nil, or_false] at hd
    rcases hd with rfl | rfl | rfl | rfl | rfl | rfl | rfl | rfl <;>
      exact ⟨⟨rfl, rfl⟩, rfl, rfl, rfl, rfl, rfl, settled_demo _ _, rfl, .inl ⟨rfl, by decide⟩⟩
  · obtain rfl : j = 0 := Nat.le_zero.mp hj
    exact of_one_page _ _ _ _ _ (.slice 16) 0 (by decide) (by decide) rfl
  · obtain rfl : j = 0 := Nat.le_zero.mp hj
    exact of_one_page _ _ _ _ _ (.slice 160) 0 (by decide) (by decide) rfl
  · decide +kernel

/-- Demo at a phase, with commands, and with a buffered write of command 9 under number 4. -/
def ordered (ph : Nat) (ds : List Cmd) : State := { demo with
  phase := ph, parts := [(0, { part0 with cmds := ds })],
  clusters := [(0, { Cluster.initial with posted := [⟨4, false, false, 0, 9, 0, true, .hbm, 0, [1]⟩] })] }

/-- A load that has performed, and behind it: a release at DEV with nothing noted yet, with the buffer's writes of its clock gone, and
one that waits for the write still there; a load that may start; one whose time has run out; a drain that comes to be alone, not
counting and counting, one that waits for no one any more, and one that waits for a command that is left. -/
theorem witness_CommandsAndPageWalks_order :
    let e := { cmd0 .fld [0, 0] with id := 5, fn := 5, aux := 1 }
    let r := { cmd0 .fst [0, 0] with fn := 5, counting := false, age := 2, needs := [] }
    let a := { cmd0 .fld [0, 0] with counting := false, age := 2, needs := [] }
    (∀ ph < 36, ∀ d ∈ [r, a], let s := ordered ph [{ e with fn := 0 }, d]
      s.agenda = [] ∧ s.phase = ph ∧ s.partList.Nodup ∧ held s 0 d ∧ (∀ y ∈ (s.part 0).cmds, y.id = d.id → y = d) ∧
        (s.core (0 / 4)).frozen = false ∧ (s.core (0 / 4)).poised = false ∧ d.counting = false ∧ d.fault = none ∧ d.held = false ∧
        d.waits = []) ∧
    startable (ordered 14 [{ e with fn := 0 }, a]) a ∧ ¬ startable (ordered 14 [e, { a with bno := 1 }]) { a with bno := 1 } ∧
    startable (ordered 14 [{ e with fn := 0 }, { r with gate := some [3] }]) { r with gate := some [3] } ∧
    ¬ startable (ordered 14 [{ e with fn := 0 }, { r with gate := some [4] }]) { r with gate := some [4] } ∧
    (let s := ordered 10 [{ e with fn := 0 }, r]
     isRelease r ∧ 3 ≤ scopeOf r ∧ r.gate = none ∧ r.started = false ∧ earlierPerformed s r) ∧
    (let d := { cmd0 .fld [0, 0] with left := 0, aux := 1 }
     let s := ordered 13 [d]
     d.kind ≠ .take ∧ d.counting = true ∧ d.held = false ∧ d.fault = none ∧ d.owed = [] ∧ d.sent = 0 ∧
      ∀ x ∈ (s.cluster (home d)).posted, x.cmd ≠ d.id) ∧
    (∀ b ∈ [false, true], let d := { cmd0 .drn [] with fn := 4, counting := b }
      let s := ordered 16 [{ d with id := 6 }, d]
      d.kind = .drn ∧ d.aux = 0 ∧ d.gate = none ∧ ∀ y ∈ (s.part 0).cmds, y.id < d.id → y.kind = .drn) ∧
    (∀ k ∈ [0, 2048 * 7], let d := { cmd0 .drn [] with fn := 4, gate := some [k] }
      let s := ordered 16 [d]
      d.aux = 0 ∧ d.counting = true ∧ ((s.cmd (k % 2048) (k / 2048)).isSome = decide (k ≠ 0))) := by
  refine ⟨?_, ?_, ?_, ?_, ?_, ?_, by decide, ?_, ?_⟩
  · unfold held; decide
  · exact ⟨by decide, by decide, by unfold isAcquire; decide, fun h => absurd h (by unfold isRelease; decide), by decide⟩
  · exact fun h => absurd (h.2.2.1 _ (List.mem_cons_self ..)) (by unfold isAcquire; decide)
  · exact ⟨by decide, by decide, by unfold isAcquire; decide, fun _ => ⟨by unfold earlierPerformed performed; decide,
      fun _ => ⟨_, rfl, by decide⟩⟩, by decide⟩
  · rintro ⟨-, -, -, h, -⟩
    obtain ⟨ids, e, h⟩ := (h (.inr ⟨.inl rfl, by decide⟩)).2 (by decide)
    cases e
    exact absurd h (by decide)
  · exact ⟨.inr ⟨.inl rfl, by decide⟩, by decide, rfl, rfl, by unfold earlierPerformed performed; decide⟩
  · decide
  · decide

/-- The trap of a software TRAP 255. -/
def trap255 : TrapInfo := ⟨0x30, false, 0, 0xF, false, 0, 255, 0, false, 0, 0, 0, 0, 0, 0⟩

/-- A pending trap with results in flight on an elastic core and on a lockstep one. -/
theorem witness_TakingATrap : ∀ l ∈ [false, true],
    let s := { demo with
      parts := [(0, { part0 with trapNow := some trap255 })],
      cores := [(0, { core0 with lock := l, pend := [⟨3, 0, 0, 0, 0, .spush 1 5⟩] })] }
    (s.part 0).trapNow = some trap255 ∧ (s.core (0 / 4)).stop = none ∧ (s.core (0 / 4)).lock = l := by
  intro l _
  exact ⟨rfl, rfl, rfl⟩

/-- Demo's core with a stop. -/
def stoppedCore (h : Stop) : State := demoCore fun c => { c with stop := some h }

/-- What a test finds of every stop of a list of cores holds of each of them. -/
theorem of_stops {s : State} {l : List Nat} {P : Stop → Prop} [DecidablePred P]
    (h : (l.all fun m => (s.core m).stop.all fun g => decide (P g)) = true) : ∀ m ∈ l, ∀ g, (s.core m).stop = some g → P g := by
  intro m hm g hg
  have x := List.all_eq_true.mp h m hm
  rw [hg] at x
  exact of_decide_eq_true x

/-- A core that runs its program; one that stands in state 01; one whose resumption is under way; one whose handler, in partition 3,
runs alone in its bundle and with others; a lockstep kernel, one of whose cores stopped two clocks before another; words of CORECTL
with HPC on the last bundle and HROFS on the last 64 bytes, and with HPC and HROFS off them; a kernel with no partition in handler
state, and with one. -/
theorem witness_StopsHandlersAndResumption :
    (∀ h, (mine demo).stop = some h → h.handler ≠ some (demo.cur.gpi % 4)) ∧
    (let h : Stop := ⟨0, none, false, some 0, true, 0, false, false⟩
     (mine (stoppedCore h)).stop = some h ∧ h.handler = some ((stoppedCore h).cur.gpi % 4) ∧ (stoppedCore h).cur.others = 0) ∧
    (demo.core 0).stop = none ∧
    (let h : Stop := ⟨9, none, false, none, false, 0, true, false⟩
     atRest (stoppedCore h) 0 h ∧ ((stoppedCore h).core 0).lock = false ∧ unlogged (stoppedCore h) 0 ∧
      ∀ m ∈ (stoppedCore h).kin 0, ∀ g, ((stoppedCore h).core m).stop = some g → g.handler = none) ∧
    (let h : Stop := ⟨9, none, false, none, false, 0, true, false⟩
     let s := { kerneled .running with cores :=
       [(0, { core0 with kernel := some 0, lock := true, stop := some h }),
        (1, { core0 with kernel := some 0, lock := true, stop := some { h with cyc := 7 } })] }
     atRest s 0 h ∧ (s.core 0).lock = true ∧ (∀ m ∈ s.kin 0, ∀ g, (s.core m).stop = some g → g.active = false → h.cyc ≤ g.cyc + 9) ∧
      1 ∈ s.kin 0 ∧ ∀ m ∈ s.kin 0, ∀ g, (s.core m).stop = some g → g.handler = none) ∧
    (let h : Stop := ⟨9, some 10, false, none, false, 0, true, false⟩
     ((stoppedCore h).core 0).stop = some h ∧ (h.active = true ∨ h.resume.isSome = true)) ∧
    (let h : Stop := ⟨9, none, false, some 3, true, 0, true, true⟩
     0 ∈ (stoppedCore h).kin 0 ∧ ((stoppedCore h).core 0).stop = some h ∧ h.handler.isSome = true) ∧
    (let v := 2 + 3 * 2 ^ 3 + 2 ^ 5 + (2 ^ 17 - 16) * 2 ^ 6 + (2 ^ 23 - 64) * 2 ^ 23
     fld v 6 4 = 0 ∧ fld v 23 6 = 0) ∧ fld (2 ^ 6) 6 4 ≠ 0 ∧ fld (2 ^ 23) 23 6 ≠ 0 ∧
    (let h : Stop := ⟨9, none, false, some 3, true, 0, true, false⟩
     let y : SeqState := ⟨16, true, [], ⟨0, 0, 0⟩, .running, none, 0, none, false⟩
     let s := { stoppedCore h with parts := [(3, { part0 with held := some y })] }
     (s.core 0).stop = some h ∧ (s.part (4 * 0 + 3)).held = some y ∧ (s.core 0).lock = false) := by
  refine ⟨?_, by decide, rfl, ⟨⟨rfl, rfl, rfl, rfl⟩, rfl, (quiet _ _ rfl rfl).2, of_stops (by decide)⟩,
    ⟨⟨rfl, rfl, rfl, rfl⟩, rfl, of_stops (P := fun g => g.active = false → 9 ≤ g.cyc + 9) (by decide), by decide, of_stops (by decide)⟩,
    by decide, ⟨by decide, rfl, rfl⟩, by decide, by decide, by decide, rfl, rfl, rfl⟩
  intro h e
  cases e

/-- Demo with the record of context 15 in device memory, its CLMASK and its word 0's byte 2 given, and another context active on
cluster 1. -/
def records (mask top : W8) : State := { demo with
  hbm := ⟨0, [(960, mask), (962, top), (985, 0x10)]⟩,
  ctxs := [(3, { Context.initial with active := true, record := [2] })] }

/-- A record in order; one with word 0's first reserved bit set; one that names a cluster held elsewhere; a context to deactivate; an
active lockstep context under an alarm; a kernel that has waited 256 periods. -/
theorem witness_ContextRegisters :
    (((records 1 8).ctx 15).active = false ∧ recordBad ((List.range 8).map fun i => recordWord (records 1 8) 15 i) = false ∧
      ∀ j < 16, j ≠ 15 → ((records 1 8).ctx j).active = true →
        ∀ c < 20, ¬ (bit (recordWord (records 1 8) 15 0) c = true ∧ bit ((records 1 8).ctx j).clmask c = true)) ∧
    2 ^ 23 ≤ recordWord (records 1 0x80) 15 0 ∧
    (∃ j < 16, j ≠ 15 ∧ ((records 2 8).ctx j).active = true ∧ ∃ c < 20,
      bit (recordWord (records 2 8) 15 0) c = true ∧ bit ((records 2 8).ctx j).clmask c = true) ∧
    (let s := records 1 8
     (s.ctx 3).active = true ∧ s.ctxen.getLsbD 3 = false ∧ ∀ x ∈ s.kernels, x.2.ctx ≠ 3) ∧
    (let s := { kerneled .running with alarm := true, ctxs := [(3, { Context.initial with active := true, record := [2 ^ 20] })] }
     (s.alarm && (s.ctx 3).active && (s.ctx 3).lock) = true) ∧
    ∀ x ∈ (kerneled .waiting).kernels, x.1 = 0 → 256 ≤ x.2.periods := by
  refine ⟨by decide +kernel, by decide +kernel, ⟨3, by decide +kernel⟩, by decide, by decide, by decide⟩

/-- Queue 0 of two places, enabled, of context 3, its ring in the first slice of cluster 0, whose first packet's word 0 is given. -/
def queued (lo hi : W8) (live : List Nat) : State := { kerneled .running with
  kernels := [], queues := [(0, ⟨some 1, live⟩)], hbm := ⟨0, [(6, 0xFF), (8, 0x13), (9, 2)]⟩,
  cores := [(0, { core0 with slice := ⟨0, [(0, lo), (1, hi)]⟩ })] }

/-- A write index at the end of the ring, and one beyond it; a packet of type 0; a marker with a reserved bit; a marker in order; and
one with BAR, with a packet before it and without. -/
theorem witness_QueuesAndDispatchBegin :
    (let s := queued 2 0 []
     unkept s ∧ s.qEn 0 = true ∧ s.qBad 0 = false ∧ (2 % 2 ^ 64 + 2 ^ 64 - s.qRd 0) % 2 ^ 64 ≤ 2 ^ fld (s.qword 0 1) 4 5 ∧
      2 ^ fld (s.qword 0 1) 4 5 < (3 % 2 ^ 64 + 2 ^ 64 - s.qRd 0) % 2 ^ 64) ∧
    (queued 2 0 []).nextPacket 0 = some [2, 0, 0, 0, 0, 0, 0, 0] ∧ (queued 0 0 []).nextPacket 0 = some [0, 0, 0, 0, 0, 0, 0, 0] ∧
    (queued 2 4 [5]).nextPacket 0 = some [0x402, 0, 0, 0, 0, 0, 0, 0] ∧ ((queued 2 4 [5]).uqueue 0).live ≠ [] ∧
    (queued 2 8 []).checkPacket 0 [0x802, 0, 0, 0, 0, 0, 0, 0] = .inl 2 ∧
    (∃ k, (queued 2 4 []).checkPacket 0 [0x402, 0, 0, 0, 0, 0, 0, 0] = .inr k ∧ k.fwd = false) ∧
    ((queued 2 4 []).uqueue 0).live = [] ∧ unowed (queued 2 4 []) 0 :=
  ⟨⟨unkept_of _ rfl, by decide +kernel⟩, by decide +kernel, by decide +kernel, by decide +kernel, by decide, by decide, ⟨_, rfl, rfl⟩, rfl,
    fun x h => by cases h⟩

/-! ### Hypotheses met: transforms and transactions -/

/-- A transfer of context 3 that counts its time, its core's slice given; the slice window begins with that slice. Codebook bank 0 has 16
valid entries of one bfloat16 element. -/
def transferring (d : Cmd) (xs : List Host.Cell) : State := { kerneled .running with
  parts := [(0, { part0 with cmds := [d] })], cores := [(0, { core0 with kernel := some 0, slice := ⟨0, xs⟩, cbcfg := [(0, 16 + 4 * 2 ^ 32)] })] }

/-- No write of another command, no budget, no log, no row of the clock and no buffered write meets a transfer there. -/
theorem at_peace (d : Cmd) (xs : List Host.Cell) (h : d.gpi = 0) : held (transferring d xs) 0 d ∧
    unmetered (transferring d xs) (0 / 4) ∧ unlogged (transferring d xs) (0 / 4) ∧ settledFor (transferring d xs) 0 ∧
    freshClock (transferring d xs) ∧ (∀ m, ((transferring d xs).core m).side.wf) ∧
    ((transferring d xs).cluster 0).posted = [] := by
  have z : Mem.zero.wf := ⟨rfl, fun _ h => absurd h (List.not_mem_nil)⟩
  refine ⟨⟨h, ?_⟩, ⟨fun k hk cls => ?_, fun x hx => by cases hx⟩, ⟨fun k hk => ?_, fun a => rfl⟩, fun _ _ n => ?_, fun n => ?_, fun n => ?_, rfl⟩
  · show [d].find? (fun c => c.id == d.id) = some d
    simp
  · cases hk
    show fld ((([1, 0x1000, 0, 4096, 0, 0, 0, 0] : List Nat)).getD (4 + cls / 2) 0) (32 * (cls % 2)) 32 = 0
    have g : ∀ i, (([1, 0x1000, 0, 4096, 0, 0, 0, 0] : List Nat)).getD (4 + i) 0 = 0 := fun i => by
      rcases i with _ | _ | _ | _ | i <;> first | rfl | (rw [List.getD_eq_default]; simp; omega)
    rw [g]
    simp [fld]
  · cases hk
    rfl
  · show (n != 0 && false) = false
    exact Bool.and_false _
  · cases n <;> exact ⟨rfl, rfl⟩
  · cases n <;> exact z

/-- A COPY of so many bytes between places of the first slice of the window, with a transform and the other fields of its word 2. -/
def xcopy (src dst len xf more : Nat) : Cmd := { cmd0 .copy [0] with
  desc := [windowBase + src, windowBase + dst, len + 2 ^ 25 * xf + more, 0, windowBase + 2 ^ 22 - 1] }

/-- A region of one tile at offset 0, its header and its entry, whose tile is zero, and one whose entry has a reserved bit. -/
def region0 (e : W8) : List Host.Cell := [(0, 1), (4, 0x10), (8, 0x10), (131, e)]

/-- Planes of 9 bits from bytes and back; a block with a codebook of fewer than 16 valid entries, and of 16, with a NaN, all zero, and
with a greatest element; a byte of two side-bank entries, and entries to read; a tile of a region, and one in error; tiles that leave the
expander and the compressor, and that a region takes and has no room for; a tile to compress; rows whose side-bank entries are set; the
scales of a block, in the own cluster and outside. -/
theorem witness_FarAccessesPerform_transforms :
    (∀ d ∈ [{ xcopy 0 4096 32 1 (2 ^ 36 * 7) with data := List.replicate 16 128, rd := 16 },
        { xcopy 0 4096 18 2 (2 ^ 36 * 7) with data := List.replicate 18 255, rd := 18 },
        { xcopy 0 4096 128 3 0 with data := List.replicate 128 255, rd := 128 },
        { xcopy 0 4096 128 3 0 with data := List.replicate 128 0, rd := 128 },
        { xcopy 0 4096 128 3 0 with data := (List.replicate 32 [0, 0, 128, 63]).flatten, rd := 128 },
        { xcopy 0 4096 4 7 0 with data := [5, 6], rd := 2 }, xcopy 254 4096 3 7 0, xcopy 0 4096 256 5 0],
      moving d ∧ d.kind = .copy ∧ d.intx = none ∧ d.gpi = 0 ∧ d.codec = [] ∧ d.out = [] ∧ d.wr < d.dstLen) ∧
    (let c := (transferring (xcopy 0 4096 128 3 0) []).core 0
     let g := c.cbcfgOf 0
     let cs := ((List.range 16).map fun i => (i, searchNum (cbEtype g)
       (c.cbEntry 0 (cbEntryNo (cbWhole g) (cbAct g) i) % 2 ^ etypeBits (cbEtype g)))).filter fun z => !z.2.isNan
     let x := fun (v : List W8) => (readFmt (fmtOf 0) (joinBytes v)).1
     let r := convertNum (.flt fmtBF16) .rne 0 false ((x [0, 0, 128, 63]).withSign false)
     cbValid (c.cbcfgOf 7) < 16 ∧ 16 ≤ cbValid g ∧ (x [255, 255, 255, 255]).isNan = true ∧ (x [0, 0, 0, 0]).isZero = true ∧
      (nearest (.fin false 0 1) cs).isSome = true ∧ (x [0, 0, 128, 63]).isNan = false ∧ (x [0, 0, 128, 63]).isInf = false ∧
      ltNum false ((x [0, 0, 128, 63]).withSign false) ((x [0, 0, 128, 63]).withSign false) = false ∧
      (x [0, 0, 128, 63]).isZero = false ∧ (readFlt fmtBF16 r.pat).isZero = false ∧
      (nearest (divNum (x [0, 0, 128, 63]) (readFlt fmtBF16 r.pat)).1 cs).isSome = true) ∧
    (let d := xcopy 254 4096 3 7 0
     d.rd < d.srcLen ∧ d.whereIs (transferring d []) (d.src / 2 * 2 + 2 * d.rd) false = .at (.slice 0) 254) ∧
    (∀ e ∈ [(0 : W8), 0x40], let d := xcopy 0 4096 256 5 0
      d.data = [] ∧ d.rd < d.srcLen ∧ d.whereIs (transferring d (region0 e)) d.src false = .at (.slice 0) 0 ∧
        answers (readTile (found (transferring d (region0 e)) 0 d.id (.slice 0)) 0 (d.tile0 + d.rd / 256)) = decide (e = 0)) ∧
    (let d := { xcopy 0 4096 256 5 0 with codec := [(4, [1, 2])], ran := 4 }
     d.codec = (4, [1, 2]) :: [] ∧ 4 ≤ d.ran ∧ moving d) ∧
    (∀ b ∈ [(0x10 : W8), 0x30], let d := { xcopy 4096 0 256 4 0 with rd := 256, codec := [(4, List.replicate 256 1)], ran := 4 }
      let s := transferring d [(0, 1), (4, b), (8, 0x10)]
      d.whereIs s d.dst true = .at (.slice 0) 0 ∧
        answers (storeTile (found s 0 d.id (.slice 0)) 0 (d.tile0 + d.wr / 256) d.kzs (List.replicate 256 1)) = decide (b = 0x30)) ∧
    (let d := { xcopy 4096 0 256 4 0 with rd := 256, out := List.replicate 256 1 }
     d.srcLen ≤ d.rd ∧ d.wr < d.dstLen ∧ d.due (transferring d []) = true ∧ 256 ≤ d.out.length ∧
      d.whereIs (transferring d []) d.dst true = .at (.slice 0) 0) ∧
    (let d := { xcopy 0 (2 ^ 23 - 18) 16 1 (2 ^ 36 * 7) with rd := 16, out := List.replicate 18 1 }
     d.srcLen ≤ d.rd ∧ d.wr < d.dstLen ∧ d.due (transferring d []) = true ∧
      inRow ((d.dst + d.wr) % 2 ^ 56) (d.dstLen - d.wr) ≤ d.out.length ∧ windowBase ≤ d.dst ∧ d.dst + d.dstLen ≤ 2 ^ 56 ∧
      d.whereIs (transferring d []) ((d.dst + d.wr) % 2 ^ 56) true = .at (.slice 0) (2 ^ 23 - 18)) ∧
    (let d := xcopy 0 (2 ^ 23 - 1) 1 6 (2 ^ 39 * 15)
     d.srcLen ≤ d.rd ∧ d.wr < d.dstLen ∧ d.due (transferring d []) = true ∧ windowBase ≤ d.dst + d.wr ∧
      d.whereIs (transferring d []) (d.dst + d.wr) true = .at (.slice 0) (2 ^ 23 - 1)) ∧
    (let x := windowBase + 2 ^ 22 - 1
     let d := { xcopy 0 4096 128 3 0 with rd := 128, owed := [(x, [1]), (x + 1, [2])] }
     let s := transferring d []
     held s 0 d ∧ d.counting = true ∧ (s.core 0).lock = false ∧ d.whereIs s x true = .at (.slice 0) (2 ^ 22 - 1)) ∧
    (let d := { xcopy 0 4096 128 3 0 with rd := 128, owed := [(0, [1, 2])], pages := [(0, Xlate.page .hbm 0 12 true)] }
     let s := transferring d []
     d.rd = d.srcLen ∧ d.data = [] ∧ d.whereIs s 0 true = .at .hbm 0 ∧ outside (home d) .hbm = true) := by
  refine ⟨?_, by decide +kernel, by decide +kernel, by decide +kernel, ⟨rfl, by decide, rfl, rfl, rfl, rfl, rfl⟩, by decide +kernel, by decide +kernel, by decide,
    by decide, ⟨⟨rfl, rfl⟩, rfl, rfl, by decide⟩, by decide +kernel⟩
  unfold moving
  decide

/-- The transaction number 3 of demo's command 7, its buffer, marks, doom and largest class given. -/
def tx7 (b : List TxByte) (m : List TxMark) (code : Nat) : Tx := ⟨3, code, 0x1FF, b, m, 24, false, false⟩

/-- Demo with command 7, issued in that transaction. -/
def transacting (d : Cmd) (y : Tx) : State := { commanding { d with intx := some 3 } [] with
  parts := [(0, { part0 with cmds := [{ d with intx := some 3 }], tx := some y })] }

theorem unheld (d : Cmd) (y : Tx) : unmetered (transacting d y) 0 ∧ unlogged (transacting d y) 0 ∧ settledFor (transacting d y) 0 ∧
    freshClock (transacting d y) := by
  refine ⟨(quiet _ _ rfl rfl).1, (quiet _ _ rfl rfl).2, fun _ _ n => ?_, fun n => ?_⟩
  · show (n != 0 && false) = false
    exact Bool.and_false _
  · cases n <;> exact ⟨rfl, rfl⟩

/-- Accesses of a transaction, doomed and not, to a slice and to device memory: a load, a store, and an addition and compare-and-swaps of
both sizes; a commit with bytes still to apply, one with none, and one of a doomed transaction, its status in the slice's last word. -/
theorem witness_TagsAndTransactions_accesses :
    (∀ o ∈ [Owner.slice 0, .hbm], ∀ code ∈ [0, 2],
      let y := tx7 [⟨o, 16, 6⟩] [⟨o, 0, 16, true, 0⟩] code
      (∀ d ∈ [cmd0 .fld [0, 0], cmd0 .fst [0, 0]], let c := paged o { d with intx := some 3 }
        let s := transacting (paged o d) y
        s.cmd c.gpi c.id = some c ∧ (s.part c.gpi).tx = some y ∧ c.intx = some y.no ∧ (∀ x, o ≠ .peer x) ∧
          c.whereIs s 4088 false = .at o 4088 ∧ c.whereIs s 4088 true = .at o 4088) ∧
      ∀ w ∈ [2 ^ 45, 9 * 2 ^ 46, 9 * 2 ^ 46 + 2 ^ 45], let c := paged o { cmd0 .fatom [16, w, 6] with intx := some 3 }
        let s := transacting (paged o (cmd0 .fatom [16, w, 6])) y
        s.cmd c.gpi c.id = some c ∧ c.kind = .fatom ∧ moving c ∧ c.out = [] ∧
          c.whereIs s (c.word 0 % 2 ^ 56 / (if bit (c.word 1) 45 then 8 else 4) * if bit (c.word 1) 45 then 8 else 4) true = .at o 16) ∧
    ∀ y ∈ [tx7 [⟨.hbm, 16, 6⟩, ⟨.slice 0, 127, 1⟩, ⟨.slice 0, 128, 2⟩] [] 0, tx7 [] [] 0, tx7 [⟨.hbm, 16, 6⟩] [] 1],
      let d := { cmd0 .txc [2 ^ 23 - 8] with intx := some 3 }
      let s := transacting (cmd0 .txc [2 ^ 23 - 8]) y
      held s 0 d ∧ d.counting = true ∧ d.fault = none ∧ d.held = false ∧ d.aux = 0 ∧ d.owed = [] ∧ (s.part 0).tx = some y ∧
        d.intx = some y.no ∧ (s.core 0).lock = false ∧ d.word 0 + 8 ≤ 2 ^ 23 ∧ ∀ b ∈ y.buf, ∀ x, b.owner ≠ .peer x := by
  refine ⟨fun o ho c hc => ⟨fun d hd => ?_, fun w hw => ?_⟩, fun y hy => ?_⟩
  · simp only [List.mem_cons, List.not_mem_nil, or_false] at ho hc hd
    rcases ho with rfl | rfl <;> rcases hd with rfl | rfl <;> exact ⟨rfl, rfl, rfl, nofun, rfl, rfl⟩
  · simp only [List.mem_cons, List.not_mem_nil, or_false] at ho hc hw
    rcases ho with rfl | rfl <;> rcases hc with rfl | rfl <;> rcases hw with rfl | rfl | rfl <;> exact ⟨rfl, rfl, ⟨rfl, rfl, rfl, rfl, rfl⟩, rfl, by decide⟩
  · simp only [List.mem_cons, List.not_mem_nil, or_false] at hy
    rcases hy with rfl | rfl | rfl <;>
    · refine ⟨⟨rfl, rfl⟩, rfl, rfl, rfl, rfl, rfl, rfl, rfl, rfl, by decide, fun b hb x => ?_⟩
      simp only [tx7, List.mem_cons, List.not_mem_nil, or_false] at hb
      try rcases hb with rfl | rfl | rfl <;> nofun
/-- A kernel that ends, whose completion word lies at virtual address 8 of device memory. -/
def kernel8 : Kernel := { kernel0 .running with packet := [1, 0, 0, 0, 8] }

/-- A kernel that waits, with two spatial levels of four parts each: a count of 10 outside one of 6. -/
def kernelOfLevels : Kernel := { kernel0 .waiting with
  desc := List.replicate 14 0 ++ [2, 10 + 2 ^ 32 + 2 ^ 37 * 4, 6 + 2 ^ 32 + 2 ^ 34 + 2 ^ 37 * 4] }

/-- A kernel that can be placed, whose code is one bundle at address 0 and whose other images are absent, with no level and with two, of
which core 13 of the kernel is delivered the parts that its rank names; kernels that end with no completion word and with one in device memory. -/
theorem witness_KernelStartAndEnd :
    (let s := { kerneled .waiting with cores := [] }
     s.kernel 0 = some (kernel0 .waiting) ∧ (kernel0 .waiting).report = 0 ∧ (kernel0 .waiting).fwd = false ∧
      s.placeFor [] (kernel0 .waiting) = some [0] ∧ s.images (kernel0 .waiting) = some [List.replicate 16 0, [], [], [], [], [], [], []]) ∧
    (let s := { kerneled .waiting with cores := [], kernels := [(0, kernelOfLevels)] }
     s.kernel 0 = some kernelOfLevels ∧ s.placeFor [] kernelOfLevels = some [0] ∧ (s.images kernelOfLevels).isSome = true ∧
      (∀ e ∈ kernelOfLevels.levels, fld e 32 2 ≠ 3) ∧
      (∀ l ∈ [1, 2], ((kernelOfLevels.levels.filter fun e => fld e 32 2 == l).map fun e => fld e 34 3).Nodup) ∧
      s.vbytes 3 (kernelOfLevels.dw 0) (16 * (fld (kernelOfLevels.dw 1) 0 13 + 1)) = some (List.replicate 16 0) ∧
      (∀ w ∈ [2, 4, 6, 8, 9, 11], kernelOfLevels.dw w = 0) ∧
      kernelOfLevels.levels.map (fun e => deliveredTo kernelOfLevels (List.range 16) 13 e) = [[7, 3], [1, 2]]) ∧
    ((kerneled .running).kernel 0 = some (kernel0 .running) ∧ (kernel0 .running).stage ≠ .ending ∧ (kernel0 .running).report = 0 ∧
      (kernel0 .running).fwd = false ∧ (kernel0 .running).pw 4 = 0) ∧
    (let s := { kerneled .running with kernels := [(0, kernel8)] }
     s.kernel 0 = some kernel8 ∧ kernel8.pw 4 ≠ 0 ∧ s.place kernel8.ctx (kernel8.pw 4) true = .at .hbm 8 ∧
      unkept s) := by
  refine ⟨by decide +kernel, by decide +kernel, by decide +kernel, by decide +kernel, by decide +kernel, by decide +kernel, unkept_of _ rfl⟩

/-- A kernel whose cores issue; one that is stopping, a core of it not yet; one whose sixteen cores stand still; and one pre-empted. -/
theorem witness_PreemptionAndResumption :
    ((kerneled .running).kernel 0 = some (kernel0 .running) ∧ (kernel0 .running).stage = .running ∧
      ∀ n ∈ (kernel0 .running).cores, ((kerneled .running).core n).stop = none) ∧
    ((kerneled .stopping).kernel 0 = some (kernel0 .stopping) ∧ 0 = (kerneled .stopping).cur.core ∧ 0 ∈ (kernel0 .stopping).cores ∧
      ((kerneled .stopping).core 0).stop = none) ∧
    (let s := { kerneled .stopping with
       cur := { Cursor.empty with core := 16 },
       cores := (List.range 16).map fun n => (n, { core0 with kernel := some 0, stop := some ⟨0, some 1, true, none, false, 0, true, false⟩ }) }
     (kernel0 .stopping).cores.contains s.cur.core = false ∧ s.quiesced (kernel0 .stopping) = true ∧ s.hbm.wf = true ∧
      (kernel0 .stopping).cores[15]? = some 15 ∧ unkept s) ∧
    (let x := { kernel0 .preempted with image := some ⟨[], [], [], []⟩, slot := some 3 }
     let s := { kerneled .preempted with cores := [], kernels := [(0, x)] }
     s.kernel 0 = some x ∧ x.stage = .preempted ∧ s.placeFor [] x = some [0] ∧ x.image = some ⟨[], [], [], []⟩ ∧ x.slot = some 3 ∧
      x.clusters.Nodup ∧ x.clusters[0]? = some 0 ∧ x.cores[15]? = some 15) := by
  refine ⟨by decide +kernel, by decide +kernel, ⟨by decide +kernel, by decide +kernel, by decide +kernel, by decide +kernel,
    unkept_of _ rfl⟩, by decide +kernel⟩

/-- A context with no checkpoint, one with a checkpoint whose log overflowed, one of whose writes is unlogged, and one whose checkpoint
can be used; a partition and a cluster that no kernel holds; a cleared cluster; repair requests that are taken, as an event and as written
with further fields, turned away and done. -/
theorem witness_MemoryErrorsAndRepair :
    ((demo.ctx 3).ck.valid = false ∧ ∀ k < 16, (demo.ctx k).ck.valid = false) ∧ (∀ k < 16, (demo.ctx k).active = false) ∧
    (let f := fun (o l : Bool) => { demo with
       ctxs := [(3, { Context.initial with
         ck := ⟨0, true, o, false, false, l, 0, 0, [], [(0, { kernel0 .running with image := some ⟨[], [], [], []⟩ })], 0⟩ })] }
     (((f true false).ctx 3).ck.ovf = true ∧ ((f false true).ctx 3).ck.short = true ∧ ((f false false).ctx 3).ck.valid = true ∧
      ((f false false).ctx 3).ck.ovf = false ∧ ((f false false).ctx 3).ck.short = false ∧
      ∀ y ∈ ((f false false).ctx 3).ck.kernels, y.2.image.isSome = true)) ∧
    (demo.core (5 / 4)).kernel = none ∧
    (∀ x ∈ (kerneled .running).kernels, x.2.stage = .preempted ∨ x.2.stage = .running ∨ x.2.stage = .stopping → 19 ∉ x.2.clusters) ∧
    (let s := { demo with clusters := [(19, { Cluster.initial with clearing := some 0 })] }
     (s.cluster 19).clearing = some 0) ∧
    (demo.repair.asked = [] ∧ repairable demo 19 ∧ (demo.cluster 19).out = 16 ∧ Cells.get 16 7 (demo.core 319).outrow = 16 ∧
      ∀ x ∈ demo.kernels, x.2.stage = .preempted → 19 ∉ x.2.clusters) ∧
    (let v := 1 + 2 ^ 3 * 19 + 2 ^ 8 * 16 + 2 ^ 13 * 5
     let s := { demo with repair := { demo.repair with asked := [v] } }
     s.repair.asked = [v] ∧ v % 2 ^ 3 = 1 ∧ fld v 3 5 = 19 ∧ fld v 8 5 = 16 ∧ repairable s 19 ∧ (s.cluster 19).out = 16) ∧
    ¬ repairable demo 20 ∧
    (∃ x ∈ (kerneled .preempted).kernels, x.2.stage = .preempted ∧ 0 ∈ x.2.clusters) ∧
    ∀ w ∈ [1 + 2 ^ 3 * 31 + 2 ^ 8 * 31, 2 + 2 ^ 13 * 511 + 2 ^ 22 * 7 + 2 ^ 25 * 31, 3 + 2 ^ 3 * 31],
      let s := { demo with repair := ⟨0, some 0, false, w, []⟩ }
      s.repair.left = some 0 ∧ s.repair.job = w := by
  refine ⟨by decide, by decide, by decide, rfl, by decide, rfl, ⟨rfl, ⟨rfl, by decide, rfl⟩, rfl, rfl, by decide⟩,
    ⟨rfl, by decide, by decide, by decide, ⟨rfl, by decide, rfl⟩, rfl⟩, fun h => absurd h.2.1 (by decide), by decide, ?_⟩
  intro w _
  exact ⟨rfl, rfl⟩

/-- A write frame of context 3 from device 9 to a group, with a sequence number. -/
def frame0 (g q : Nat) : Sys2Proof.Frame := ⟨9, 0, g, 3, q, .write, 16, [1]⟩

/-- Device memory whose group 2 names device 9, a context of that group, and its window 0, which takes writes of the first 2 MiB. -/
def windowed : State := { demo with
  hbm := ⟨0, [(1025, 2)]⟩,
  ctxs := [(3, { Context.initial with
    active := true, record := [0, 0, 0, 4096 + 2 * 2 ^ 32], windows := [(0, BitVec.ofNat 64 (2 ^ 63 + 2 ^ 57 + 21 * 2 ^ 52))] })] }

/-- A frame of command 7 of partition 0 that awaits its acknowledgement, sent a number of times. -/
def waiting0 (tries : Nat) : OutFrame := ⟨frame0 2 0, 5, tries, 0, some (0, 7), none, none⟩

/-- A flow of context 3 to device 9 whose frames are given; partition 0 has command 7. -/
def flowing (out : List OutFrame) : State := { windowed with
  parts := [(0, { part0 with cmds := [cmd0 .fld [0, 0]] })], flows := [⟨3, 9, 1, out, 0, [], [], false⟩] }

theorem sole (out : List OutFrame) : soleFlow (flowing out) 0 ⟨3, 9, 1, out, 0, [], [], false⟩ :=
  ⟨rfl, fun _ h _ _ => List.mem_singleton.mp h⟩

/-- A frame in sequence to a window, a contribution to a collective, and a frame to no context that is active; the last early one and the
first duplicate; a flow with a frame out of time, with tries left and without, and one with none; the holder of management semaphore 3. -/
theorem witness_FabricFrames :
    (∀ f ∈ [frame0 2 0, { frame0 2 0 with kind := .collective 5 1 0, addr := 7 + 2 ^ 11 * 200 }],
     f.seq < 2 ^ 32 ∧ (windowed.flow f.ctx f.src).expect = f.seq ∧ (windowed.flow f.ctx f.src).early = [] ∧
      (∀ y ∈ windowed.flows, y.owed = []) ∧ (windowed.flows.filter fun y => y.ctx == f.ctx && y.peer == f.src).length ≤ 1 ∧
      (windowed.ctx f.ctx).active = true ∧ f.group = (windowed.ctx f.ctx).fgrp ∧ f.group ≠ 255 ∧ windowed.inGroup f.group f.src = true ∧
      (Cells.get 0 0 (windowed.ctx f.ctx).windows).getLsbD 63 = true ∧ (Cells.get 0 0 (windowed.ctx f.ctx).windows).getLsbD 57 = true ∧
      windowed.heldAt .hbm f.addr f.data.length = false) ∧
    windowTakes (Cells.get 0 0 (windowed.ctx 3).windows) (frame0 2 0) = true ∧ unkept windowed ∧
    (demo.ctx 3).active = false ∧ windowed.inGroup 2 8 = false ∧
    (∀ w < 4, windowTakes (Cells.get 0 w (demo.ctx 3).windows) (frame0 2 0) = false) ∧
    (let d := ((2 ^ 31 - 1) + 2 ^ 32 - (windowed.flow 3 9).expect) % 2 ^ 32
     0 < d ∧ d < 2 ^ 31 ∧ ∀ g ∈ (windowed.flow 3 9).early, g.seq ≠ 2 ^ 31 - 1) ∧
    2 ^ 31 ≤ (2 ^ 31 + 2 ^ 32 - (windowed.flow 3 9).expect) % 2 ^ 32 ∧
    (∀ n ∈ [1, 3, 63], ∃ x, soleFlow (flowing [waiting0 n]) 0 x ∧ x.out = [waiting0 n] ∧ n < 64 ∧ n % 4 ≠ 0) ∧
    ((waiting0 1).cmd = some (0, 7) ∧ (flowing [waiting0 1]).cmd 0 7 = some (cmd0 .fld [0, 0])) ∧
    (∃ x, soleFlow (flowing [waiting0 64]) 0 x ∧ ∃ o ∈ x.out, o.left = 0 ∧ 64 ≤ o.tries) ∧
    (∃ x, soleFlow (flowing []) 0 x ∧ (∀ o ∈ x.out, o.left ≠ 0) ∧ x.ctx < 16 ∧ ((flowing []).ctx x.ctx).ck.valid = false) ∧
    ¬ owns demo 1 3 ∧ owns { demo with msem := [(3, ⟨1, 5, false⟩)] } 1 3 ∧ 2 % 4 ≠ 3 := by
  refine ⟨by decide +kernel, by decide +kernel, unkept_of _ rfl, rfl, by decide +kernel, by decide +kernel, by decide, by decide,
    fun n hn => ⟨_, sole _, rfl, ?_⟩, ⟨rfl, rfl⟩, ⟨_, sole _, _, List.mem_cons_self .., rfl, le_refl 64⟩,
    ⟨⟨3, 9, 1, [], 0, [], [], false⟩, sole [], fun o h => absurd h (List.not_mem_nil), by decide, rfl⟩, fun x => absurd x.2 (by decide), ⟨by decide, rfl⟩, by decide⟩
  simp only [List.mem_cons, List.not_mem_nil, or_false] at hn
  rcases hn with rfl | rfl | rfl <;> decide

/-- Demo with the root-of-trust controller at a stage. -/
def booted (b : Boot) : State := { demo with amvin := { demo.amvin with boot := b } }

/-- The first and the last register offset with the device running, and the two windows that recovery state leaves; a device before its
boot; a semaphore that is free and one whose lease has run out; holders and others; an interrupt held and one that is not. -/
theorem witness_ManagementAndInterrupts :
    (booted .off).amvin.boot = .off ∧ (booted .running).amvin.boot = .running ∧ (booted .running).amvin.boot ≠ .off ∧
    0xFF00000000000 ≤ 0xFF00000000000 ∧ 2 ^ 52 - 8 < 2 ^ 52 ∧ (2 ^ 52 - 8) % 8 = 0 ∧
    ((booted .recovery).amvin.boot = .recovery ∧ ∀ a ∈ [0xFF00000030000, 0xFF00000080000, 0xFF00000080FF8],
      (a = 0xFF00000030000 ∨ (0xFF00000080000 ≤ a ∧ a < 0xFF00000081000)) ∧ a % 8 = 0) ∧
    (Cells.get ⟨0, 0, false⟩ 7 demo.msem).owner = 0 ∧
    (let m := Cells.get ⟨0, 0, false⟩ 7 ({ demo with msem := [(7, ⟨2, 0, false⟩)] } : State).msem
     m.owner ≠ 0 ∧ m.lease = 0) ∧
    ¬ owns demo 1 0 ∧ owns { demo with msem := [(0, ⟨1, 5, false⟩)] } 1 0 ∧ ¬ owns demo 1 2 ∧
    (let s := { demo with msem := [(2, ⟨3, 5, false⟩)] }
     owns s 3 2 ∧ (s.cluster 19).kernel = none) ∧
    bit (2 ^ 16) 16 = true ∧ 9 ∉ demo.irqHeld ∧ 9 ∈ ({ demo with irqHeld := [9] } : State).irqHeld :=
  ⟨rfl, rfl, by decide, by decide, by decide, by decide, ⟨rfl, by decide⟩, rfl, by decide, fun x => absurd x.2 (by decide),
    ⟨by decide, rfl⟩, fun x => absurd x.2 (by decide), ⟨⟨by decide, rfl⟩, rfl⟩, by decide, by decide, by decide⟩

/-- Demo with released harts and one port up, and with the frames of hart 3 to device 9 that are given. -/
def harted (out : List OutFrame) : State := { demo with
  amvin := { demo.amvin with released := true }, pcfg := [(0, 0x11)], flows := [⟨16, 9, 1, out, 0, [], [], false⟩] }

theorem a_frame_is_sent (s : State) (peer : Nat) (k : Sys2Proof.FrameKind) (a : Nat) (bs : List W8) (h : Option (Nat × Sys2Proof.HartOp))
    (hp : s.upPorts = [0]) (hx : (s.flow 16 peer).dead = false) (hr : s.replayHeld 0 = 0) (hb : bs.length ≤ 64) :
    ∃ t, s.sendFrame 16 peer k a bs none none h = some t := by
  unfold State.sendFrame State.draw
  simp only [hp, List.length_singleton, Nat.mod_one, List.getElem?_cons_zero, hx, Nat.zero_div, hr, Bool.false_or, frameBytes,
    decide_eq_true_eq]
  exact ⟨_, if_neg (by omega)⟩

/-- A store of a hart to a peer's last bytes, and the frame it goes out in; a fence behind such a frame, and one with none. -/
theorem witness_RegistersHartsAndStorage_peers :
    (let x : Sys2Proof.HartAccess := ⟨.store, 0x8000000000000 + 0x6000000000 * 9 + (0x6000000000 - 8), 8, 5, false, false⟩
     let s := harted []
     s.amvin.released = true ∧ s.allPosted = [] ∧ s.hartReads 3 = false ∧ x.pa < 0xE000000000000 ∧
      ∃ t, ({ s with hartGate := Cells.del 3 s.hartGate } : State).sendFrame 16 9 .write (0x6000000000 - 8) (splitBytes x.v x.size) none
        none (some (3, .store)) = some t) ∧
    (let o : OutFrame := ⟨⟨0, 9, 0, 16, 0, .write, 16, [1]⟩, 5, 1, 0, none, none, some (3, .store)⟩
     soleFlow (harted [o]) 0 ⟨16, 9, 1, [o], 0, [], [], false⟩ ∧ o.frame.data ≠ [] ∧ (harted [o]).hartReads 3 = false ∧
      ∃ f ∈ (harted [o]).flows, ∃ p ∈ f.out, ∃ op, p.hart = some (3, op)) ∧
    ¬ ∃ f ∈ (harted []).flows, ∃ p ∈ f.out, ∃ op, p.hart = some (3, op) := by
  refine ⟨⟨rfl, rfl, rfl, by decide, a_frame_is_sent _ _ _ _ _ _ (by decide) rfl rfl (by decide)⟩,
    ⟨⟨rfl, fun _ h _ _ => List.mem_singleton.mp h⟩, by decide, rfl, _, List.mem_cons_self .., _, List.mem_cons_self .., _, rfl⟩, ?_⟩
  rintro ⟨f, hf, p, hp, -⟩
  rw [List.mem_singleton.mp hf] at hp
  cases hp

/-- An offset past every block; the released harts' accesses of device memory's last bytes, of no memory, of a register in 4 bytes and of
a beat beyond correction; a reservation; the last word that storage may write, and the first that it may not. -/
theorem witness_RegistersHartsAndStorage :
    regOf 0xFF00000FFF000 = none ∧ 15 < 16 ∧
    (let s := { demo with amvin := { demo.amvin with released := true }, resv := [(3, (hbmSize - 8) / 64)] }
     s.amvin.released = true ∧ s.allPosted = [] ∧ s.hartReads 3 = false ∧ s.heldAt .hbm (0x6000000000 - 8) 8 = false ∧
      s.meetsBad (0x6000000000 - 8) 8 = false ∧ unkept s ∧ Cells.has 3 s.resv = true ∧
      Cells.get 0 3 s.resv = (0x6000000000 - 8) / 64 ∧ Cells.has 4 s.resv = false) ∧
    (let s := { demo with amvin := { demo.amvin with released := true }, badBeats := [(hbmSize - 8) / 64] }
     s.amvin.released = true ∧ s.allPosted = [] ∧ s.heldAt .hbm (0x6000000000 - 8) 8 = false ∧
      s.meetsBad (0x6000000000 - 8) 8 = true) ∧
    (∀ x ∈ [HartAccess.mk .load (0x6000000000 - 8) 8 0 false false, ⟨.storeConditional, 0x6000000000 - 8, 8, 1, true, true⟩,
        ⟨.amo 9, 0x6000000000 - 8, 8, 1, false, false⟩],
      (∀ p u sr sw i, x.op ≠ .fence p u sr sw i) ∧ x.op ≠ .fenceI ∧ x.pa + x.size ≤ 0x6000000000 ∧ 0 < x.size) ∧
    (∀ x ∈ [HartAccess.mk .load 0x6000000000 8 0 false false, ⟨.store, 0xFF00000000000, 4, 0, false, false⟩],
      0x6000000000 ≤ x.pa ∧ x.pa < 0x8000000000000 ∨ 0xFF00000000000 ≤ x.pa ∧ x.pa < 2 ^ 52 ∧ x.size ≠ 8) ∧
    0x6000000000 < (0x6000000000 - 7) + 8 ∧ (0x6000000000 - 8) + 8 ≤ 0x6000000000 ∧ (booted .off).amvin.boot = .off ∧
    (booted .running).amvin.boot ≠ .off ∧ unkept (booted .running) := by
  refine ⟨by decide +kernel, by decide, ⟨rfl, rfl, rfl, by decide, by decide, unkept_of _ rfl, by decide, by decide, by decide⟩,
    by decide, ?_, by decide, by decide, by decide, rfl, by decide, unkept_of _ rfl⟩
  intro x hx
  simp only [List.mem_cons, List.not_mem_nil, or_false] at hx
  rcases hx with rfl | rfl | rfl <;> exact ⟨nofun, nofun, by decide, by decide⟩

/-- An image whose first four bytes are zero is refused. Whether three images are accepted rests on the free functions of Config (SHA-384
and the two verifications) and on the free places of the images: it is met for those values of them under which some flash's three
images verify, and no value of them can be named here. An alarm with no lockstep context; cores of two clusters. -/
theorem witness_BootResetAndGovernor :
    (let a := { demo.amvin with boot := .recovery, meas := [], mailbox := Mem.zero, svn := 0, released := false }
     bytesAt (a.imageHeader 1) 0 4 ≠ 0x4D414750 ∧ ∃ y ∈ [1, 2, 3], a.accepts y = false) ∧
    (demo.cores.map Prod.fst).Nodup ∧ ∀ k < 16, (demo.ctx k).active = true → (demo.ctx k).lock = false := by
  have h : ∀ p, bytesAt (Mem.zero.bytes p 4096) 0 4 = 0 := fun p =>
    joined_zeros _ fun b hb => zero_bytes p 4096 b (List.mem_of_mem_drop (List.mem_of_mem_take hb))
  refine ⟨⟨?_, 1, List.mem_cons_self .., ?_⟩, by decide, by decide⟩
  · show bytesAt (Mem.zero.bytes _ 4096) 0 4 ≠ _
    rw [h]
    decide
  · unfold Amvin.accepts Amvin.imageHeader
    show ((bytesAt (Mem.zero.bytes _ 4096) 0 4 == 0x4D414750) && _ && _ && _ && _ && _ && _ && _ && _ && _) = false
    rw [h]
    rfl

/-! ### Hypotheses met: bundles, steps and words -/

/-- Demo whose first bundle's word 0, bits [31:24], is given: the form stands in its two highest bits. -/
def holding (b : W8) : State := demoCore fun c => { c with imem := ⟨0, [(3, b)]⟩ }

/-- Demo whose first bundle is compact and enables references 0 and 4: to entry 1 of its control-word table, a NOP of slot 0, and to entry
0, a NOP of slot 1 valid or not. -/
def compact (valid : Bool) : State := demoCore fun c => { c with
  imem := ⟨0, [(0, 0x80), (2, 0x80), (3, 0x88)]⟩,
  cwt := [(0, BitVec.ofNat 256 (2 ^ 32 + if valid then 2 ^ 34 else 0)), (1, BitVec.ofNat 256 (2 ^ 34))] }

theorem orderly_group1 : orderly (compact true) 0 (bundle (compact true) 0) [0, 1, 2, 3] := by
  refine ⟨by decide, by decide, fun i hi h => ⟨0, ?_⟩, by decide⟩
  revert i hi h
  unfold usableEntry
  decide

theorem orderly_group2 : orderly (compact true) 0 (bundle (compact true) 0) [4, 5, 6] := by
  refine ⟨by decide, by decide, fun i hi h => ⟨0, ?_⟩, by decide⟩
  revert i hi h
  unfold usableEntry
  decide

theorem disorderly_group2 : ¬ orderly (compact false) 0 (bundle (compact false) 0) [4, 5, 6] := by
  rintro ⟨-, -, h, -⟩
  obtain ⟨x, h, g⟩ := h 4 (by decide) (by decide)
  have e : offsetWord (fld (entry (compact false) 0 (bundle (compact false) 0) 4) 32 2)
      (entry (compact false) 0 (bundle (compact false) 0) 4) (reference (bundle (compact false) 0) 4 % 128) = some 0 := by decide
  rw [e] at h
  cases h
  exact absurd g (by decide)

/-- A bundle of each form; a header that allots six vector ports; a block with two bundles left, at the end bundle of an inner level
that is done and an outer one that is not; groups of references in order, and one that is not; a pending group 2. -/
theorem witness_BundlesAndGroupsIssue :
    fresh demo 0 ∧ form (bundle demo 0) = 0 ∧ form (bundle (holding 0x40) 0) = 1 ∧ form (bundle (holding 0x80) 0) = 2 ∧
    form (bundle (holding 0xC0) 0) = 3 ∧
    (let s := demoCore fun c => { c with imem := ⟨0, [(0, 0x0A), (3, 0x40)]⟩ }
     let h := wordOf (bundle s 0) 0
     form (bundle s 0) = 1 ∧ 4 < fld h 0 2 + fld h 2 2 + fld h 4 2 + 1) ∧
    (let s := demoPart fun p => { p with pblk := ⟨2, 3, 0⟩, loops := [⟨1, 0, 0⟩, ⟨2, 0, 0⟩] }
     1 < (s.part 0).pblk.rem ∧ again s 0) ∧
    (form (bundle (compact true) 0) = 2 ∧ orderly (compact true) 0 (bundle (compact true) 0) [0, 1, 2, 3] ∧
      form (bundle (compact false) 0) = 2 ∧ ¬ orderly (compact false) 0 (bundle (compact false) 0) [4, 5, 6]) ∧
    (let g : Group2 := ⟨bundle (compact true) 0, true, 1⟩
     let s := { compact true with parts := [(0, { part0 with group2 := some g })] }
     (s.part 0).group2 = some g ∧ orderly s 0 g.word [4, 5, 6]) ∧ (demo.part 0).group2 = none := by
  refine ⟨?_, by decide, by decide, by decide, by decide, by decide, ⟨by decide, [⟨1, 0, 0⟩], ⟨2, 0, 0⟩, [], rfl, ?_, rfl, by decide⟩,
    ⟨by decide, orderly_group1, by decide, disorderly_group2⟩, ⟨rfl, orderly_group2⟩, rfl⟩
  · intro e h; cases h
  · intro x h
    rw [List.mem_singleton.mp h]
    exact ⟨rfl, le_refl 1⟩

/-- A bundle that met no fault, whose partition's inner loop level is done and whose outer one is not, or whose only level is done; a
group 1 of a compact bundle; one with a TRAP; one with an ERET; a transfer taken; one that waits. -/
theorem witness_BundlesCommitOrWait :
    (let s := demoPart fun p => { p with loops := [⟨1, 0, 0⟩, ⟨2, 0, 0⟩] }
     clean s ∧ s.cur.group ≠ 1 ∧ s.cur.trap = none ∧ s.cur.resume = false ∧ (s.cur.taken.map Prod.fst).Nodup ∧ s.cur.next = none ∧
      (s.part 0).loops = [⟨1, 0, 0⟩] ++ ⟨2, 0, 0⟩ :: [] ∧ ∀ y ∈ [(⟨1, 0, 0⟩ : LoopLevel)], y.stop = (s.part 0).pc ∧ y.remaining ≤ 1) ∧
    (let s := demoPart fun p => { p with loops := [⟨1, 0, 0⟩] }
     clean s ∧ (s.part 0).loops = [⟨1, 0, 0⟩] ++ [] ∧ ∀ y ∈ [(⟨1, 0, 0⟩ : LoopLevel)], y.stop = (s.part 0).pc ∧ y.remaining ≤ 1) ∧
    (∀ c ∈ [{ demo.cur with group := 1 }, { demo.cur with trap := some 255 }, { demo.cur with resume := true },
        { demo.cur with next := some 32, newHalf := true }],
      let s := { demo with cur := c }
      clean s ∧ (s.cur.taken.map Prod.fst).Nodup) ∧
    (let s := { demo with cur := { demo.cur with wait := true } }
     s.cur.marks = [] ∧ s.overflowMarks = [] ∧ s.cur.wait = true) := by
  refine ⟨⟨⟨rfl, rfl, rfl⟩, by decide, rfl, rfl, by decide, rfl, rfl, by decide⟩, ⟨⟨rfl, rfl, rfl⟩, rfl, by decide⟩, fun c hc => ?_, rfl, rfl, rfl⟩
  simp only [List.mem_cons, List.not_mem_nil, or_false] at hc
  rcases hc with rfl | rfl | rfl | rfl <;> exact ⟨⟨rfl, rfl, rfl⟩, by decide⟩

/-- An empty queue; a second source that finds none, of a scalar and of a vector form, after a first that does; a third push to a queue
that holds two entries, scalar and vector, one of them in flight; marks of three classes in three slots. -/
theorem witness_FaultingBundlesCommitNothing :
    (Cells.get [] 31 (me demo).sq)[Cells.get 0 31 demo.cur.taken]? = none ∧
    (∃ u, gets demo [(false, 2, false)] u ∧ lacks u (false, 2, true) ∧
      operands (.add 3 2 2 false true) = [(false, 2, false)] ++ (false, 2, true) :: []) ∧
    (∃ u, gets demo [(true, 3, false)] u ∧ lacks u (true, 3, false) ∧
      operands (.vadd 3 3 3 false false 0) = [(true, 3, false)] ++ (true, 3, false) :: []) ∧
    (∀ a ∈ [(1, LandAct.spush 1 0), (33, .vpush 1 0)],
     let l : Landing := ⟨1, 0, 0, 3, 0, a.2⟩
     let u := { demoCore (fun c => { c with pend := [l] }) with cur := { demo.cur with out := [l, l] } }
     a.1 < 96 ∧ l ∈ u.cur.out ∧ pushed l.act = some a.1 ∧ 4 < filling u a.1) ∧
    (let u := { demo with cur := { demo.cur with marks := [⟨3, 0x10, 0, 0⟩, ⟨2, 0x03, 0, 0⟩, ⟨1, 0x11, 0, 0⟩, ⟨1, 0x03, 0, 0⟩] } }
     u.overflowMarks = [] ∧ (∀ x ∈ u.cur.marks ++ [], before ⟨1, 0x03, 0, 0⟩ x) ∧ (demo.core 0).stop = none ∧ 0 ∉ demo.trpend) := by
  refine ⟨rfl, ⟨_, ⟨_, ⟨_, rfl, rfl⟩, rfl⟩, by unfold lacks; decide, rfl⟩, ⟨_, ⟨_, ⟨_, rfl, rfl⟩, rfl⟩, by unfold lacks; decide +kernel, rfl⟩, by decide +kernel,
    rfl, ?_, rfl, by decide⟩
  intro x hx
  simp only [List.append_nil, List.mem_cons, List.not_mem_nil, or_false] at hx
  rcases hx with rfl | rfl | rfl | rfl <;> (unfold before; decide)

/-- A listed turn that is no presentation; a listed presentation of a bundle of four zero words; no listed turn. -/
theorem witness_StepRunsTheDecodedInstruction :
    (let s := { demo with agenda := [⟨0, .thermalAlarmEnd⟩] }
     (∀ p, Instr.thermalAlarmEnd ≠ .bundleIssue p ∧ Instr.thermalAlarmEnd ≠ .compactGroup2Issue p) ∧
      ∃ u, exec .thermalAlarmEnd { s with agenda := [], cur := { Cursor.empty with core := 0 } } = .next u) ∧
    (let s := { demo with agenda := [⟨0, .bundleIssue 0⟩], cur := Cursor.empty }
     fresh s 0 ∧ form (bundle s 0) = 0 ∧ wordOf (bundle s 0) 0 = 0 ∧ wordOf (bundle s 0) 1 = 0 ∧ wordOf (bundle s 0) 2 = 0 ∧
      wordOf (bundle s 0) 3 = 0 ∧ ¬ (1 < (s.part 0).pblk.rem ∧ again s 0) ∧ decodeSlot 0 0 = .ok .nop ∧
      ∃ b, exec (.bundleIssue 0) { s with agenda := [] } = .next b ∧
        ∃ v, exec .nop { b with cur := { b.cur with slot := 0, mod := Mod.plain } } = .next v) ∧
    demo.agenda = [] := by
  refine ⟨⟨fun p => ⟨nofun, nofun⟩, _, rfl⟩, ⟨?_, by decide, by decide, by decide, by decide, by decide, ?_, rfl, _, rfl, _, rfl⟩, rfl⟩
  · intro e h; cases h
  · intro h; exact absurd h.1 (by decide)

theorem witness_SlotZeroWordsReadBack : (Instr.addi 31 31 true 8191).WellFormed ∧ (Instr.addi 31 31 true 8191).slotOf = some 0 := by
  decide

theorem witness_OtherWordsReadBack :
    ((Instr.addQ 31 31 31 true true).WellFormed ∧ (Instr.addQ 31 31 31 true true).slotOf = some 1) ∧
    ((Instr.stv 31 true 31 true 511).WellFormed ∧ (Instr.stv 31 true 31 true 511).slotOf = some 2) ∧
    ((Instr.mcall 63 63 63 63).WellFormed ∧ (Instr.mcall 63 63 63 63).slotOf = some 3) ∧
    (Instr.uLdec 3 1023).WellFormed ∧ (encode (.uLdec 3 1023)).length = 4 := by
  decide

theorem witness_NoBitOfAWordIsIgnored : decodeSlot 0 0x02084007 = .ok (.addi 1 1 false 7) ∧ decodeMicro 0x17 = .ok .uEnd := ⟨rfl, rfl⟩

/-- A memory that lists its lowest and its highest byte. -/
theorem witness_StoredNumbersReadBack : Mem.wf ⟨0, [(0, 1), (2 ^ 56 - 1, 0xFF)]⟩ := by decide

theorem reset_memories : Safety.memories State.reset :=
  have z : Mem.zero.wf := ⟨rfl, fun _ h => absurd h (List.not_mem_nil)⟩
  ⟨z, z, z, fun _ h => absurd h (List.not_mem_nil), fun _ h => absurd h (List.not_mem_nil), fun _ h => absurd h (List.not_mem_nil),
    fun _ h => absurd h (List.not_mem_nil)⟩

/-- The state after reset has no bundle in progress and every memory canonical, and it steps. -/
theorem witness_EveryStepAnswersWithNoBundleInProgress : Safety.idle State.reset := rfl

theorem witness_EveryStepKeepsTheMemoriesCanonical : Safety.memories State.reset ∧ ∃ t, step State.reset = .next t :=
  ⟨reset_memories, _, rfl⟩

/-! ### Words written out from the encoding tables of the spec, most significant bit first -/

/-- Slot 0: major opcode in [31:24], then the destination, the sources and their peek bits (R65, R67, R121, R127, R129, R131). -/
theorem test_decode_slot0_arithmetic :
    decodeSlot 0 0b00000001_00110_00001_00010_0_1_0000000 = .ok (.add 6 1 2 false true) ∧
    decodeSlot 0 0b00000010_00001_00001_0_1111111111111 = .ok (.addi 1 1 false 8191) ∧
    decodeSlot 0 0b00000101_11111_00000_00001_1_0_0_1_00000 = .ok (.fadd 31 0 1 true false true) ∧
    decodeSlot 0 0b00000111_00111_00011_00100_0_0_0000000 = .ok (.ceq 7 3 4 false false) ∧
    decodeSlot 0 0b0000100010_101_11111_1_0000000000111 = .ok (.clti 5 31 true 7) := by
  exact ⟨rfl, rfl, rfl, rfl, rfl⟩

/-- Slot 0: control and partitions (R135, R138, R145, R146, R153). -/
theorem test_decode_slot0_control :
    decodeSlot 0 0b000100001_010_1000000_1111111111111 = .ok (.brt 2 8191) ∧
    decodeSlot 0 0b000101010_1111111111_0000000000010 = .ok (.loop 1023 2) ∧
    decodeSlot 0 0b00011001000000_101_00_0000000000100 = .ok (.pfork 5 4) ∧
    decodeSlot 0 0b0001101000000000_11_00_000000000001 = .ok (.sempost 3 1) ∧
    decodeSlot 0 0x1F100000 = .ok .eret := by
  exact ⟨rfl, rfl, rfl, rfl, rfl⟩

/-- The vector classes of slots 1 and 3: major opcode in [31:26] (R66, R165, R168, R169, R172, R179). -/
theorem test_decode_vector :
    decodeSlot 1 0b010010_000010_111111_000001_1_0_10_0000 = .ok (.vfadd 2 63 1 true false 2) ∧
    decodeSlot 1 0b010110_000010_000000_000001_0_1_0000_10 = .ok (.vperm 2 0 1 false true 2) ∧
    decodeSlot 3 0b010111_000001_000010_000_101_0_0_01_0_000 = .ok (.vred 1 2 5 false 1 0) ∧
    decodeSlot 3 0b011001_000011_000100_00_0001_0_000_0010 = .ok (.vcvt 3 4 1 false 2) ∧
    decodeSlot 1 0b100001_001111_000001_000010_0_0_000000 = .ok (.vtwr 15 1 2 false false) := by
  exact ⟨rfl, rfl, rfl, rfl, rfl⟩

/-- Slot 2 (R234). -/
theorem test_decode_slot2 :
    decodeSlot 2 0b000001_1_00100_0_00101_0_11111111111_10 = .ok (.lds true 4 false 5 2047 2) ∧
    decodeSlot 2 0b000100_000011_1_00010_0_0000000000111 = .ok (.stv 3 true 2 false 7) ∧
    decodeSlot 2 0b0001110_00001_0_00010_1_00000011_1_1000 = .ok (.natom 1 false 2 true 3 true 8) := by
  exact ⟨rfl, rfl, rfl⟩

/-- The matrix and engine words of slot 3 (R202, R212, R217, R242, R256, R261, R265). -/
theorem test_decode_slot3 :
    decodeSlot 3 0b101000_001001_000011_000100_000101_00 = .ok (.mcall 9 3 4 5) ∧
    decodeSlot 3 0b101001000_111_000001_000000_1_0000000 = .ok (.mpset 7 1 true) ∧
    decodeSlot 3 0b101110_000001_000010_000011_00_1_00100 = .ok (.acdrn 1 2 3 true 4) ∧
    decodeSlot 3 0b110000_001100_001100_001100_101_00010 = .ok (.fld 12 12 12 5 2) ∧
    decodeSlot 3 0b110111000000_000011_000000_0_0000001 = .ok (.twall 3 false) ∧
    decodeSlot 3 0b111001_000001_000010_000011_001_00101 = .ok (.txc 1 2 3 5) ∧
    decodeSlot 3 0b111100_000001_000010_000011_000_11111 = .ok (.cbld 1 2 3 31) := by
  exact ⟨rfl, rfl, rfl, rfl, rfl, rfl, rfl⟩

/-- Micro-words: OP in [5:0] (R220). -/
theorem test_decode_micro : decodeMicro 0x17 = .ok .uEnd ∧ decodeMicro (0x13 + 2 ^ 12 + 20 * 2 ^ 80) = .ok (.uLdec 1 20) ∧
    decodeMicro 0x18 = .error .reservedMajor := by
  exact ⟨rfl, rfl, rfl⟩

/-! ### Single instructions; the expected values are worked out by hand -/

/-- The clocks, flags and landings that an answer puts in flight. -/
def puts (o : Machine.Out) : List (Nat × Nat × LandAct) :=
  match o with
  | .next t => t.cur.out.map fun l => (l.due, l.flags, l.act)
  | _ => []

/-- The causes that an answer marks. -/
def marksOf (o : Machine.Out) : List Nat :=
  match o with
  | .next t => t.cur.marks.map Mark.cause
  | _ => []

/-- What a projection of an answer's state gives. -/
def shows {α : Type} (f : State → α) (o : Machine.Out) : Option α :=
  match o with
  | .next t => some (f t)
  | _ => none

/-- Scalar queues 1 and 2 hold x and y. -/
def two64 (x y : Nat) : State := demoPart fun p => { p with sq := [(1, [BitVec.ofNat 64 x]), (2, [BitVec.ofNat 64 y])] }

/-- Vector queues 1 and 2 hold x and y; the lanes are 256 bits. -/
def twoV (x y : Nat) : State := demoPart fun p => { p with vq := [(1, [BitVec.ofNat 1024 x]), (2, [BitVec.ofNat 1024 y])] }

theorem test_add_wraps : puts (exec (.add 6 1 2 false false) (two64 (2 ^ 64 - 1) 3)) = [(1, 0, .spush 6 2)] := by decide
theorem test_add_peeks_then_takes :
    puts (exec (.add 6 1 1 true false) demo) = [(1, 0, .spush 6 10)] ∧ puts (exec (.add 6 1 1 false false) demo) = [(1, 0, .spush 6 14)] := by
  decide
theorem test_sub_borrows : puts (exec (.sub 6 1 2 false false) (two64 5 7)) = [(1, 0, .spush 6 0xFFFFFFFFFFFFFFFE)] := by decide
theorem test_addss_saturates : puts (exec (.addss 6 1 2 false false) (two64 (2 ^ 63 - 1) 1)) =
    [(1, 32, .spush 6 0x7FFFFFFFFFFFFFFF)] := by decide
theorem test_sra_keeps_sign : puts (exec (.sra 6 1 2 false false) (two64 0xFFFFFFFFFFFFFFF8 65)) =
    [(1, 0, .spush 6 0xFFFFFFFFFFFFFFFC)] := by decide
theorem test_shr_counts_modulo_64 : puts (exec (.shr 6 1 2 false false) (two64 0x8000000000000000 127)) = [(1, 0, .spush 6 1)] := by decide
theorem test_mulh_negative : puts (exec (.mulh 6 1 2 false false) (two64 (2 ^ 64 - 1) 2)) =
    [(3, 0, .spush 6 0xFFFFFFFFFFFFFFFF)] := by decide
theorem test_mulhu_greatest : puts (exec (.mulhu 6 1 2 false false) (two64 (2 ^ 64 - 1) (2 ^ 64 - 1))) =
    [(3, 0, .spush 6 0xFFFFFFFFFFFFFFFE)] := by decide
theorem test_addx_wraps_at_56_bits : puts (exec (.addx 6 1 2 false false 3) (two64 (2 ^ 56 - 8) 2)) = [(1, 0, .spush 6 8)] := by decide
theorem test_addi_sign_extends : puts (exec (.addi 6 1 false 8191) demo) = [(1, 0, .spush 6 4)] := by decide
theorem test_lui_shifts : puts (exec (.lui 6 31 8191) demo) = [(1, 0, .spush 6 (BitVec.ofNat 64 (2 ^ 64 - 2 ^ 31)))] := by decide
theorem test_clz_of_zero : puts (exec (.clz 6 1 false) (two64 0 0)) = [(1, 0, .spush 6 64)] := by decide
theorem test_min_is_signed : puts (exec (.min 6 1 2 false false) (two64 (2 ^ 64 - 1) 1)) = [(1, 0, .spush 6 0xFFFFFFFFFFFFFFFF)] ∧
    puts (exec (.minu 6 1 2 false false) (two64 (2 ^ 64 - 1) 1)) = [(1, 0, .spush 6 1)] := by decide
theorem test_clt_is_signed : puts (exec (.clt 3 1 2 false false) (two64 (2 ^ 64 - 1) 0)) = [(1, 0, .pred 3 true)] ∧
    puts (exec (.cltu 3 1 2 false false) (two64 (2 ^ 64 - 1) 0)) = [(1, 0, .pred 3 false)] := by decide
theorem test_sel_by_predicate : puts (exec (.sel 6 1 2 false false 0) demo) = [(1, 0, .spush 6 5)] ∧
    puts (exec (.sel 6 1 2 false false 1) demo) = [(1, 0, .spush 6 7)] := by decide
theorem test_empty_source_underflows : marksOf (exec (.mov 6 31 false) demo) = [0x10] := by decide

/-- 1.0 + 2^-24 is a tie, to even 1.0, with NX; toward zero as well. -/
theorem test_fadd_ties_to_even : puts (exec (.fadd 6 1 2 false false false) (two64 0x3F800000 0x33800000)) =
    [(4, 16, .spush 6 0x3F800000)] := by decide +kernel
theorem test_fmul_overflows : puts (exec (.fmul 6 1 2 false false false) (two64 0x7F7FFFFF 0x40000000)) =
    [(4, 20, .spush 6 0x7F800000)] := by decide +kernel
theorem test_fdiv_by_zero : puts (exec (.fdiv 6 1 2 false false false) (two64 0x3F800000 0x80000000)) =
    [(4, 2, .spush 6 0xFF800000)] := by decide +kernel
theorem test_feq_of_zeros : puts (exec (.feq 3 1 2 false false) (two64 0 0x80000000)) = [(4, 0, .pred 3 true)] := by decide +kernel

/-- Displacement -1 from offset 32; a branch not taken; a register jump keeps bits [16:4]; a call's link. -/
theorem test_transfers :
    let s := demoPart fun p => { p with pc := 32, sq := [(1, [0x12345])] }
    shows (fun t => t.cur.next) (exec (.brt 0 8191) s) = some (some 16) ∧ shows (fun t => t.cur.next) (exec (.brt 1 8191) s) = some none ∧
    shows (fun t => t.cur.next) (exec (.jr 1 false) s) = some (some 0x12340) ∧
    puts (exec (.call 1) s) = [(1, 0, .spush 31 48)] := by decide

theorem test_loop_of_zero_skips : let s := demoPart fun p => { p with pc := 2 ^ 17 - 16 }
    shows (fun t => (t.cur.next, (t.part 0).loops)) (exec (.loop 0 2) s) = some (some 32, []) ∧
    shows (fun t => (t.cur.next, (t.part 0).loops)) (exec (.loop 9 2) s) = some (none, [⟨9, 0, 16⟩]) := by decide

theorem test_semwait : let s := demoCore fun c => { c with sema := [(2, 5)] }
    shows (fun t => (t.cur.wait, Cells.get 0 2 (t.core 0).sema)) (exec (.semwait 2 5) s) = some (false, 0) ∧
    shows (fun t => (t.cur.wait, Cells.get 0 2 (t.core 0).sema)) (exec (.semwait 2 6) s) = some (true, 5) := by decide

/-- COREID of core 17: its index, cluster 1, die 0, place 1. -/
theorem test_rdid : puts (exec (.rdid 6) { demo with cur := { demo.cur with core := 17, gpi := 68 } }) =
    [(1, 0, .spush 6 (BitVec.ofNat 64 (17 + 512 + 32768)))] := by decide

/-- INT8 -128 - 1 wraps, and saturates. -/
theorem test_vector_sums : puts (exec (.vsub 3 1 2 false false 0) (twoV 0x80 0x01)) = [(2, 0, .vpush 3 0x7F)] ∧
    puts (exec (.vsubs 3 1 2 false false 0) (twoV 0x80 0x01)) = [(2, 32, .vpush 3 0x80)] := by decide +kernel

/-- A masked lane is written zero: mask 1 enables byte lane 1 only, and the header names it. -/
theorem test_masked_lane :
    let s := { twoV 0x0504 0x0101 with cur := { demo.cur with mod := { Machine.Mod.plain with headed := true, ext := 0x24, width := 256 } } }
    puts (exec (.vadd 3 1 2 false false 0) { s with parts := s.parts.map fun p => (p.1, { p.2 with masks := [(1, 2)] }) }) =
      [(2, 0, .vpush 3 0x0600)] := by decide +kernel

theorem test_vsplati_sign_extends : puts (exec (.vsplati 3 511 3) demo) = [(2, 0, .vpush 3 (BitVec.ofNat 1024 (2 ^ 256 - 1)))] := by
  decide +kernel

/-- A store's bytes lie lowest first, and an atomic minimum is signed. -/
theorem test_near_accesses :
    shows (fun t => (t.core 0).slice.cells) (exec (.slot2Perform 0) (nearly (.store 32 2 0x1234))) =
      some [(16, 5), (32, 0x34), (33, 0x12)] ∧
    shows (fun t => (t.core 0).slice.cells) (exec (.slot2Perform 0) (nearly (.atomic 1 4 4 16 0xFFFFFFFF))) =
      some [(16, 255), (17, 255), (18, 255), (19, 255)] := by decide +kernel

theorem test_mpadd_wraps : puts (exec (.mpadd 3 1 false) (demoPart fun p => { p with sq := [(1, [2])], mps := [(3, 0xFFFFFFFFFFFFFFFF)] })) =
    [(1, 0, .mparam 3 1)] := by decide
theorem test_scldi_places : puts (exec (.scldi 6 0x1F00) demo) = [(4, 0, .creg 0x21 0x30 (BitVec.ofNat 64 (0x1F00 * 2 ^ 32)))] := by decide
theorem test_tfind : puts (exec (.tfind 6 1 false) (demoPart fun p => { p with sq := [(1, [0xF0])], tags := 0x60 })) =
    [(1, 0, .spush 6 5)] ∧
    puts (exec (.tfind 6 1 false) (demoPart fun p => { p with sq := [(1, [0x0F])], tags := 0x60 })) = [(1, 0, .spush 6 64)] := by decide
theorem test_copy_reserved_bit : marksOf (exec (.copy 1 0 0 5) (withWords (2 ^ 23) 0 0)) = [0x1E] := by decide
theorem test_mcall_without_routine : marksOf (exec (.mcall 1 0 0 0) demo) = [0x1B] := by decide

/-- LDEC at 1 leaves the loop; at 0 it wraps and branches. -/
theorem test_micro_ldec :
    shows (fun t => (t.core 0).calls.map Call.word) (exec (.uLdec 3 20) running) = some [1] ∧
    shows (fun t => (t.core 0).calls.map Call.word) (exec (.uLdec 2 20) running) = some [20] := by decide +kernel

/-- A flag write lands before the flags that arrive with it are ORed in (R52). -/
theorem test_flags_land_last :
    let s := demoCore fun c => { c with tick := 1, pend := [⟨1, 0, 0, 0, 0, .creg 0 0xFF 1⟩] }
    shows (fun t => (t.part 0).flags) (exec (.resultLanding 0) { s with parts := s.parts.map fun p => (p.1, { p.2 with flags := 63, orNow := 4 }) })
      = some 5 := by decide

/-- A context's error bits clear where 1 is written and nowhere else. -/
theorem test_ctxst_write : shows (fun t => (t.ctxerr, t.ctxovr)) (exec (.ctxstWrite (2 ^ 16 + 2 ^ 33)) { demo with ctxerr := 3, ctxovr := 3 }) =
    some (2, 1) := by decide

/-- A TRAP taken: cause 30H, FMASK 0, CMASK 15, TCODE 255 in word 0, the core stopped and named. -/
theorem test_trap_record :
    let s := demoPart fun p => { p with trapNow := some trap255 }
    shows (fun t => ((t.part 0).frec.map Prod.snd, t.trpend)) (exec (.trapTake 0) s) =
      some ([BitVec.ofNat 64 (0x30 + 15 * 2 ^ 14 + 255 * 2 ^ 32), 0, 0, 0, 0, 0, 0, 0], [0]) := by decide +kernel
end Sys2Proof.Tests
end

section
/-!
PROOFS. The scope of the model (O57, O58, O59): stored numbers, the canonical form of every byte memory, and the answer of every step.
-/

/- Elaborated in turn: where many proofs run at once, their threads' stacks alone pass the memory that the check gives. -/
set_option Elab.async false

/-!
PROOFS. Numbers stored little-endian in a byte memory read back (R8).
-/

namespace Sys2Proof.Machine

@[simp] theorem splitBytes_length (v n : Nat) : (splitBytes v n).length = n := by
  induction n generalizing v with
  | zero => rfl
  | succ n ih => simp [splitBytes, ih]

theorem splitBytes_get (v n i : Nat) (h : i < n) :
    (splitBytes v n)[i]'(by simpa using h) = BitVec.ofNat 8 (v / 2 ^ (8 * i)) := by
  induction n generalizing v i with
  | zero => omega
  | succ n ih =>
    cases i with
    | zero => simp [splitBytes]
    | succ i =>
      simp only [splitBytes, List.getElem_cons_succ]
      rw [ih _ _ (by omega), Nat.div_div_eq_div_mul, show 256 = 2 ^ 8 from rfl, ← Nat.pow_add]
      congr 3
      omega

theorem joinBytes_splitBytes (v n : Nat) : joinBytes (splitBytes v n) = v % 2 ^ (8 * n) := by
  induction n generalizing v with
  | zero => simp [splitBytes, joinBytes, Nat.mod_one]
  | succ n ih =>
    rw [splitBytes, joinBytes, ih, Nat.mul_succ, Nat.pow_add, Nat.mul_comm (2 ^ (8 * n)), Nat.mod_mul]
    simp

theorem joinBytes_append (a b : List W8) : joinBytes (a ++ b) = joinBytes a + 2 ^ (8 * a.length) * joinBytes b := by
  induction a with
  | nil => simp [joinBytes]
  | cons x a ih =>
    rw [List.cons_append, joinBytes, joinBytes, ih, List.length_cons, Nat.mul_succ, Nat.pow_add]
    ring

theorem joinBytes_lt (a : List W8) : joinBytes a < 2 ^ (8 * a.length) := by
  induction a with
  | nil => simp [joinBytes]
  | cons x a ih =>
    rw [joinBytes, List.length_cons, Nat.mul_succ, Nat.pow_add]
    have hx : x.toNat < 256 := x.isLt
    omega

@[simp] theorem Mem.bytes_length (m : Mem) (a n : Nat) : (m.bytes a n).length = n := by
  induction n generalizing a with
  | zero => rfl
  | succ n ih => simp [Mem.bytes, ih]

theorem Mem.bytes_get (m : Mem) (a n i : Nat) (h : i < n) : (m.bytes a n)[i]'(by simpa using h) = m.read (a + i) := by
  induction n generalizing a i with
  | zero => omega
  | succ n ih =>
    cases i with
    | zero => simp [Mem.bytes]
    | succ i =>
      simp only [Mem.bytes, List.getElem_cons_succ]
      rw [ih _ _ (by omega), Nat.succ_add_eq_add_succ]

theorem Mem.bytes_add (m : Mem) (a n k : Nat) : m.bytes a (n + k) = m.bytes a n ++ m.bytes (a + n) k := by
  induction n generalizing a with
  | zero => simp [Mem.bytes]
  | succ n ih => rw [Nat.succ_add, Mem.bytes, ih, Mem.bytes, List.cons_append, Nat.succ_add_eq_add_succ]

/-- What is read of a written range is what was written. -/
theorem Mem.bytes_writeBytes (m : Mem) (a : Nat) (l : List W8) (h : m.wf) : (m.writeBytes a l).bytes a l.length = l := by
  refine List.ext_getElem (by simp) fun i hi _ => ?_
  have hl : i < l.length := by simpa using hi
  rw [Mem.bytes_get _ _ _ _ hl]
  exact Mem.read_writeBytes_in m a i l h hl

/-- A field of a number read from memory, on byte boundaries, is the number read at its own bytes. -/
theorem Mem.fld_readN (m : Mem) (a i n k : Nat) : fld (m.readN a (i + n + k)) (8 * i) (8 * n) = m.readN (a + i) n := by
  have hi : joinBytes (m.bytes a i) < 2 ^ (8 * i) := by simpa using joinBytes_lt (m.bytes a i)
  have hn : joinBytes (m.bytes (a + i) n) < 2 ^ (8 * n) := by simpa using joinBytes_lt (m.bytes (a + i) n)
  unfold fld Mem.readN
  rw [Nat.add_assoc, Mem.bytes_add, Mem.bytes_add, joinBytes_append, joinBytes_append, Mem.bytes_length, Mem.bytes_length,
    Nat.add_mul_div_left _ _ (Nat.two_pow_pos _), Nat.div_eq_of_lt hi, Nat.zero_add, Nat.add_mul_mod_self_left,
    Nat.mod_eq_of_lt hn]

/-- Settles O57: the bytes written are the digits of the number in base 256, and the bytes read are its digits again. -/
theorem storedNumbersReadBack : Obligations.StoredNumbersReadBack := by
  unfold Obligations.StoredNumbersReadBack
  intro m h a n v
  refine ⟨m.writeN_wf a n v h, ?_, fun i hi => ?_, fun b hb => ?_, fun k hk => ?_⟩
  · have hb := Mem.bytes_writeBytes m a (splitBytes v n) h
    rw [splitBytes_length] at hb
    rw [Mem.readN, Mem.writeN, hb, joinBytes_splitBytes]
  · rw [Mem.writeN, Mem.read_writeBytes_in m a i _ h (by simpa using hi), splitBytes_get v n i hi]
  · exact Mem.read_writeBytes_other m a b _ h (by simpa using hb)
  · have hf := Mem.fld_readN m a (4 * k) 4 (12 - 4 * k)
    rwa [show 4 * k + 4 + (12 - 4 * k) = 16 by omega, ← Nat.mul_assoc] at hf

end Sys2Proof.Machine

/-!
PROOFS. The canonical form of the byte memories (R8): what the named updates of the state do to it.
-/

namespace Sys2Proof.Machine

theorem Cells.get_of {α : Type} {P : α → Prop} {d : α} {c : Cells α} (k : Nat) (hd : P d) (h : ∀ e ∈ c, P e.2) :
    P (Cells.get d k c) := by
  induction c with
  | nil => exact hd
  | cons e c ih =>
    unfold Cells.get
    split
    · exact h e (List.mem_cons_self ..)
    · exact ih fun x hx => h x (List.mem_cons_of_mem _ hx)

theorem Cells.put_of {α : Type} {P : α → Prop} {v : α} {c : Cells α} (k : Nat) (hv : P v) (h : ∀ e ∈ c, P e.2) :
    ∀ e ∈ Cells.put k v c, P e.2 := by
  induction c with
  | nil => simpa [Cells.put] using hv
  | cons e c ih =>
    obtain ⟨he, hc⟩ := List.forall_mem_cons.1 h
    unfold Cells.put
    split
    · exact List.forall_mem_cons.2 ⟨hv, hc⟩
    · split
      · exact List.forall_mem_cons.2 ⟨hv, h⟩
      · exact List.forall_mem_cons.2 ⟨he, ih hc⟩

theorem Cells.del_of {α : Type} {P : α → Prop} {c : Cells α} (k : Nat) (h : ∀ e ∈ c, P e.2) : ∀ e ∈ Cells.del k c, P e.2 :=
  fun e he => h e (List.mem_of_mem_filter he)

/-- A property that every entry's image has, where each entry has it: the state's maps over its cells. -/
theorem Cells.map_of {α : Type} {P : α → Prop} {c : Cells α} {f : Nat × α → Nat × α} (hf : ∀ e, P e.2 → P (f e).2)
    (h : ∀ e ∈ c, P e.2) : ∀ e ∈ c.map f, P e.2 :=
  List.forall_mem_map.2 fun e he => hf e (h e he)

theorem writeFars_wf {m : Mem} (ws : List FarWrite) (h : m.wf) : (writeFars m ws).wf := by
  induction ws generalizing m with
  | nil => exact h
  | cons w ws ih => exact ih (m.writeBytes_wf _ _ h)

end Sys2Proof.Machine

namespace Sys2Proof

open Sys2Proof.Machine

/-! ### Cores, images, contexts -/

theorem Safety.coreMemories.initial : Safety.coreMemories Core.initial := Core.initial_memories

theorem Safety.coreMemories.settle {c : Core} (h : Safety.coreMemories c) : Safety.coreMemories c.settle :=
  ⟨h.1, writeFars_wf _ h.2.1, h.2.2⟩

theorem Safety.imageMemories.none {k : Kernel} (h : k.image = none) : Safety.imageMemories k := by
  intro g e
  simp [h] at e

/-- The memories of the images in a context's checkpoint. -/
def ckptMemories (c : Context) : Prop := ∀ k ∈ c.ck.kernels, Safety.imageMemories k.2

theorem ckptMemories_initial : ckptMemories Context.initial := fun _ h => absurd h List.not_mem_nil

namespace Safety.memories

variable {s : State}

theorem hbm (h : memories s) : s.hbm.wf := h.1
theorem flash (h : memories s) : s.amvin.flash.wf := h.2.1
theorem mailbox (h : memories s) : s.amvin.mailbox.wf := h.2.2.1
theorem peers (h : memories s) : ∀ e ∈ s.peers, e.2.wf := h.2.2.2.1
theorem cores (h : memories s) : ∀ e ∈ s.cores, coreMemories e.2 := h.2.2.2.2.1
theorem kernels (h : memories s) : ∀ k ∈ s.kernels, imageMemories k.2 := h.2.2.2.2.2.1
theorem ctxs (h : memories s) : ∀ c ∈ s.ctxs, ckptMemories c.2 := h.2.2.2.2.2.2

theorem core (h : memories s) (n : Nat) : coreMemories (s.core n) := Cells.get_of n .initial h.cores
theorem ctx (h : memories s) (k : Nat) : ckptMemories (s.ctx k) := Cells.get_of k ckptMemories_initial h.ctxs

theorem kernel (h : memories s) {k : Nat} {x : Kernel} (e : s.kernel k = some x) : imageMemories x := by
  obtain ⟨y, hy, rfl⟩ := Option.map_eq_some_iff.1 e
  exact h.kernels y (List.mem_of_find?_eq_some hy)

theorem mem (h : memories s) (o : Owner) : (s.mem o).wf := by
  cases o with
  | slice n => exact (h.core n).2.1
  | hbm => exact h.hbm
  | peer d => exact Cells.get_of (P := Mem.wf) d (Mem.filled_wf _) h.peers

/-! ### Updates of the state that leave the memories where they are, and updates of one memory -/

theorem setPart (h : memories s) (p : Nat) (x : Part) : memories (s.setPart p x) := h
theorem updPart (h : memories s) {p : Nat} {f : Part → Part} : memories (s.updPart p f) := h
theorem updMe (h : memories s) {f : Part → Part} : memories (s.updMe f) := h
theorem updCur (h : memories s) {f : Cursor → Cursor} : memories (s.updCur f) := h
theorem updCluster (h : memories s) {c : Nat} {f : Cluster → Cluster} : memories (s.updCluster c f) := h
theorem updQueue (h : memories s) {q : Nat} {f : UQueue → UQueue} : memories (s.updQueue q f) := h
theorem updErr (h : memories s) {d : Nat} {f : MemErr → MemErr} : memories (s.updErr d f) := h
theorem draw (h : memories s) (n : Nat) : memories (s.draw n).2 := h
theorem newFill (h : memories s) : memories s.newFill.2 := h
theorem unpost (h : memories s) {w : Nat} : memories (s.unpost w) := h

/-! Fields that hold no memory. -/

theorem setCur (h : memories s) {x : Cursor} : memories { s with cur := x } := h
theorem setAgenda (h : memories s) {x : List Turn} : memories { s with agenda := x } := h
theorem setFreeCtr (h : memories s) {x : Nat} : memories { s with freeCtr := x } := h
theorem setNextId (h : memories s) {x : Nat} : memories { s with nextId := x } := h
theorem setParts (h : memories s) {x : Cells Part} : memories { s with parts := x } := h
theorem setGathers (h : memories s) {x : List Gather} : memories { s with gathers := x } := h
theorem setResv (h : memories s) {x : Cells Nat} : memories { s with resv := x } := h
theorem setCtxen (h : memories s) {x : BitVec 16} : memories { s with ctxen := x } := h
theorem setCtxerr (h : memories s) {x : BitVec 16} : memories { s with ctxerr := x } := h
theorem setCtxovr (h : memories s) {x : BitVec 16} : memories { s with ctxovr := x } := h
theorem setTrpend (h : memories s) {x : List Nat} : memories { s with trpend := x } := h
theorem setDieTlb (h : memories s) {x : Cells (List TlbEntry)} : memories { s with dieTlb := x } := h
theorem setWalks (h : memories s) {x : List Walk} : memories { s with walks := x } := h
theorem setHartErr (h : memories s) {x : Cells (Nat × Bool)} : memories { s with hartErr := x } := h
theorem setInbox (h : memories s) {x : List (Nat × Instr)} : memories { s with inbox := x } := h

theorem setCores (h : memories s) {c : Cells Core} (hc : ∀ e ∈ c, coreMemories e.2) : memories { s with cores := c } :=
  ⟨h.hbm, h.flash, h.mailbox, h.peers, hc, h.kernels, h.ctxs⟩

theorem setCore (h : memories s) {n : Nat} {x : Core} (hx : coreMemories x) : memories (s.setCore n x) :=
  h.setCores (Cells.put_of n hx h.cores)

/-- A core updated by what keeps its memories canonical: most updates of a core do not touch them. -/
theorem updCore (h : memories s) {n : Nat} {f : Core → Core}
    (hf : coreMemories (s.core n) → coreMemories (f (s.core n)) := by exact fun hc => hc) : memories (s.updCore n f) :=
  h.setCore (hf (h.core n))

theorem updMyCore (h : memories s) {f : Core → Core}
    (hf : coreMemories s.myCore → coreMemories (f s.myCore) := by exact fun hc => hc) : memories (s.updMyCore f) :=
  h.updCore hf

theorem setKernels (h : memories s) {c : Cells Kernel} (hc : ∀ e ∈ c, imageMemories e.2) : memories { s with kernels := c } :=
  ⟨h.hbm, h.flash, h.mailbox, h.peers, h.cores, hc, h.ctxs⟩

theorem updKernel (h : memories s) {k : Nat} {f : Kernel → Kernel}
    (hf : ∀ x, imageMemories x → imageMemories (f x) := by exact fun _ hx => hx) : memories (s.updKernel k f) :=
  h.setKernels (Cells.map_of (fun e he => by split; exacts [hf _ he, he]) h.kernels)

theorem updCtx (h : memories s) {k : Nat} {f : Context → Context}
    (hf : ckptMemories (s.ctx k) → ckptMemories (f (s.ctx k)) := by exact fun hc => hc) : memories (s.updCtx k f) :=
  ⟨h.hbm, h.flash, h.mailbox, h.peers, h.cores, h.kernels, Cells.put_of k (hf (h.ctx k)) h.ctxs⟩

theorem setHbm (h : memories s) {m : Mem} (hm : m.wf) : memories { s with hbm := m } :=
  ⟨hm, h.flash, h.mailbox, h.peers, h.cores, h.kernels, h.ctxs⟩

theorem setPeers (h : memories s) {c : Cells Mem} (hc : ∀ e ∈ c, e.2.wf) : memories { s with peers := c } :=
  ⟨h.hbm, h.flash, h.mailbox, hc, h.cores, h.kernels, h.ctxs⟩

theorem setAmvin (h : memories s) {a : Amvin} (hf : a.flash.wf) (hm : a.mailbox.wf) : memories { s with amvin := a } :=
  ⟨h.hbm, hf, hm, h.peers, h.cores, h.kernels, h.ctxs⟩

theorem setMem (h : memories s) {o : Owner} {m : Mem} (hm : m.wf) : memories (s.setMem o m) := by
  cases o with
  | slice n => exact h.updCore fun hc => ⟨hc.1, hm, hc.2.2⟩
  | hbm => exact h.setHbm hm
  | peer d => exact h.setPeers (Cells.put_of (P := Mem.wf) d hm h.peers)

theorem ite {c : Prop} [Decidable c] {t : State} (h : memories s) (ht : memories t) : memories (if c then s else t) := by
  split
  · exact h
  · exact ht

theorem foldl {α : Type} {f : State → α → State} {l : List α} (h : memories s)
    (hf : ∀ t x, memories t → memories (f t x)) : memories (l.foldl f s) :=
  List.foldlRecOn l f h fun t ht x _ => hf t x ht

/-- A fold that carries a value beside the state. -/
theorem foldlSnd {α β : Type} {f : β × State → α → β × State} {l : List α} {a : β × State} (h : memories a.2)
    (hf : ∀ b x, memories b.2 → memories (f b x).2) : memories (l.foldl f a).2 :=
  List.foldlRecOn (motive := fun b => memories b.2) l f h fun b hb x _ => hf b x hb

end Safety.memories

end Sys2Proof

/-!
PROOFS. The shared operations of instructions, memory and fabric keep the memories canonical.
-/

namespace Sys2Proof

open Sys2Proof.Machine

variable {s : State}

/-! ### The bundle in progress: reads, checks, results -/

theorem Safety.memories.mark (h : memories s) {c v a : Nat} : memories (s.mark c v a) := h
theorem Safety.memories.emit (h : memories s) {l f : Nat} {a : LandAct} : memories (emit l f a s) := h
theorem Safety.memories.pushS (h : memories s) {d l f : Nat} {v : W64} : memories (pushS d l f v s) := h
theorem Safety.memories.pushV (h : memories s) {d l f : Nat} {v : V1024} : memories (pushV d l f v s) := h
theorem Safety.memories.writeP (h : memories s) {d l : Nat} {v : Bool} : memories (writeP d l v s) := h
theorem Safety.memories.writeM (h : memories s) {d l : Nat} {v : W128} : memories (writeM d l v s) := h
theorem Safety.memories.pushElems (h : memories s) {d l b : Nat} {xs : List Res} : memories (pushElems d l b xs s) := h
theorem Safety.memories.transfer (h : memories s) {t : Nat} {o : Bool} : memories (transfer t o s) := h
theorem Safety.memories.clearQueue (h : memories s) {k : Nat} : memories (clearQueue k s) := h
theorem Safety.memories.claimTag (h : memories s) {g i : Nat} : memories (claimTag g i s) := h

theorem Safety.memories.check (h : memories s) {ok : Bool} {c : Nat} : memories (s.check ok c) := by
  unfold State.check
  split <;> exact h

theorem Safety.memories.waitIf (h : memories s) {b : Bool} : memories (s.waitIf b) := by
  unfold State.waitIf
  split <;> exact h

theorem Safety.memories.notCovered (h : memories s) : memories (notCovered s) := h.check

theorem Safety.memories.needTile (h : memories s) {t : Nat} : memories (s.needTile t) := h.check

theorem Safety.memories.readS (h : memories s) {q : Nat} {k : Bool} : memories (readS q k s).2 := by
  rw [readS_frame]
  exact h

theorem Safety.memories.readV (h : memories s) {q : Nat} {k : Bool} : memories (readV q k s).2 := by
  rw [readV_frame]
  exact h

theorem Safety.memories.readWords (h : memories s) {q n : Nat} : memories (readWords q n s).2 := by
  rw [readWords_frame]
  exact h

theorem Safety.memories.branchIf (h : memories s) {b : Bool} {d : Nat} {o : Bool} : memories (branchIf b d o s) := by
  unfold Machine.branchIf
  split <;> exact h

theorem Safety.memories.callIf (h : memories s) {b : Bool} {d : Nat} : memories (callIf b d s) := by
  unfold Machine.callIf
  split
  · exact h.notCovered.branchIf.pushS
  · exact h.notCovered.branchIf

theorem Safety.memories.switchIf (h : memories s) {b : Bool} {d : Nat} : memories (switchIf b d s) :=
  h.notCovered.check.branchIf

theorem Safety.memories.openLoop (h : memories s) {n d : Nat} : memories (openLoop n d s) := by
  unfold Machine.openLoop
  dsimp only
  split
  · exact h.notCovered.check.transfer
  · split
    · exact h.notCovered.check.mark
    · exact h.notCovered.check.updMe

theorem Safety.memories.checkIndices (h : memories s) {k v : Nat} {xs : List Nat} : memories (checkIndices k v xs s) := by
  unfold Machine.checkIndices
  split <;> exact h

/-! ### Writes of memory, the rollback log, transactions (R8, R232, R260, R335) -/

theorem Safety.memories.poke (h : memories s) {o : Owner} {a : Nat} {bs : List W8} : memories (s.poke o a bs) := by
  have hm : memories (s.setMem o ((s.mem o).writeBytes a bs)) := h.setMem (Mem.writeBytes_wf _ _ _ (h.mem o))
  unfold State.poke
  split <;> exact hm

theorem Safety.memories.logEntry (h : memories s) {k : Nat} {key : Option Nat × Nat} : memories (logEntry k key s) := by
  unfold Machine.logEntry
  extract_lets c size
  split
  · exact h
  · split
    · exact h.updCtx
    · exact (h.setHbm (Mem.writeBytes_wf _ _ _ (Mem.writeN_wf _ _ _ _ h.hbm))).updCtx

theorem Safety.memories.logLine (h : memories s) {k : Option Nat} {line : Nat} : memories (logLine k s line) :=
  h.foldl fun _ _ h => h.logEntry

theorem Safety.memories.logWrite (h : memories s) {k : Option Nat} {o : Owner} {a n : Nat} : memories (s.logWrite k o a n) := by
  unfold State.logWrite
  split
  · exact h.foldl fun _ _ h => h.logLine
  · exact h.foldl fun _ _ h => h.logEntry
  · exact h

theorem Safety.memories.doomWrite (h : memories s) {e : Option Nat} {o : Owner} {a n : Nat} : memories (s.doomWrite e o a n) := h

theorem Safety.memories.wr (h : memories s) {k e : Option Nat} {o : Owner} {a : Nat} {bs : List W8} :
    memories (s.wr k e o a bs) := by
  unfold State.wr
  split
  · exact h
  · exact h.logWrite.doomWrite.poke

theorem Safety.memories.perform (h : memories s) {k e : Option Nat} {g i : Nat} {mc : Bool} {o : Owner} {a : Nat}
    {bs : List W8} : memories (s.perform k e g i mc o a bs) := by
  unfold State.perform
  split
  · exact h
  · split
    · exact h.logWrite.doomWrite.updCore
    · exact h.logWrite.doomWrite.poke

theorem Safety.memories.refresh (h : memories s) {o : Owner} : memories (s.refresh o) := by
  unfold State.refresh
  split
  · dsimp only
    split
    · exact h.draw _
    · exact (h.draw 2).setPeers (Cells.put_of (P := Mem.wf) _ (Mem.filled_wf _) h.peers)
  · exact h

theorem Safety.memories.settle (h : memories s) : memories s.settle :=
  h.setCores (Cells.map_of (fun _ he => he.settle) h.cores)

theorem Safety.memories.heldOver (h : memories s) {k : Option Nat} : memories (s.heldOver k) := by
  unfold State.heldOver
  split
  · split <;> exact h
  · exact h

theorem Safety.memories.conflictWith (h : memories s) {p : Nat} {o : Owner} {t : Nat} {w : Bool} {q : Nat} :
    memories (conflictWith p o t w s q).1 := by
  unfold Machine.conflictWith
  split
  · exact h
  · split
    · exact h
    · dsimp only
      split
      · exact h
      · split <;> exact h

theorem Safety.memories.txTouch (h : memories s) {p : Nat} {o : Owner} {w : Bool} {t va : Nat} :
    memories (txTouch p o w s t va) := by
  unfold Machine.txTouch
  split
  · exact h
  · split
    · exact h
    · refine Safety.memories.updPart ?_
      exact List.foldlRecOn (motive := fun (a : State × Bool) => memories a.1) _ _ h fun a ha q _ => ha.conflictWith

theorem Safety.memories.txTouches (h : memories s) {p : Nat} {o : Owner} {a va n : Nat} {w : Bool} :
    memories (s.txTouches p o a va n w) :=
  h.foldl fun _ _ h => h.txTouch

/-! ### Recorded reads, barriers, semaphores (R146, R148, R308) -/

theorem Safety.memories.virtWrite (h : memories s) {t : State} {k va : Nat} {bs : List W8} (e : s.virtWrite k va bs = some t) :
    memories t := by
  unfold State.virtWrite at e
  split at e
  · exact Option.some.inj e ▸ h.wr
  · cases e

theorem Safety.memories.virtWriteD (h : memories s) {k va : Nat} {bs : List W8} : memories ((s.virtWrite k va bs).getD s) := by
  cases e : s.virtWrite k va bs with
  | none => exact h
  | some t => exact h.virtWrite e

theorem Safety.memories.takePlace (h : memories s) {k : Nat} : memories (s.takePlace k).2 := h.updCtx
theorem Safety.memories.nextSeq (h : memories s) {k : Nat} : memories (s.nextSeq k).2 := h.updCtx

theorem Safety.memories.writeEntry (h : memories s) {k p : Nat} {ws : List Nat} : memories (s.writeEntry k p ws) :=
  h.virtWriteD.updCtx.virtWriteD

theorem Safety.memories.recorded (h : memories s) {k v : Nat} : memories (recorded k v s).2 := by
  unfold Machine.recorded
  split
  · exact h
  · split
    · dsimp only
      split
      · exact h.nextSeq.mark
      · split
        · exact h.nextSeq
        · exact h.nextSeq.mark
    · split
      · split
        · exact h.waitIf
        · exact h.nextSeq.takePlace.writeEntry
      · exact h

theorem Safety.memories.pushRecorded (h : memories s) {d k v : Nat} : memories (pushRecorded d k v s) := h.recorded.pushS

theorem Safety.memories.postSema (h : memories s) {k n : Nat} : memories (postSema k n s) := h.check.emit

theorem Safety.memories.setBarUnit (h : memories s) {n c u : Nat} {b : BarUnit} : memories (s.setBarUnit n c u b) := by
  unfold State.setBarUnit
  split
  · exact h.updCluster
  · split
    · exact h
    · exact h.updKernel

theorem Safety.memories.startRelease (h : memories s) {c u : Nat} {l : Bool} {ps : List Nat} :
    memories (startRelease c u l ps s) :=
  h.foldl fun _ _ h => by
    refine Safety.memories.updPart ?_
    split <;> exact h

/-! ### Slot-2 accesses (R231) -/

theorem Safety.memories.nearIssue (h : memories s) {a : Near} : memories (nearIssue a s) := h.updMyCore
theorem Safety.memories.nearCheck (h : memories s) {a : Nat} : memories (nearCheck a s) := h.check
theorem Safety.memories.fillLanding (h : memories s) {n : Nat} {x : NearAccess} {a : LandAct} :
    memories (fillLanding n x a s) := h.updCore
theorem Safety.memories.weigh (h : memories s) {n w : Nat} : memories (s.weigh n w) := h.updCore

theorem Safety.memories.sliceRead (h : memories s) {n p a k : Nat} : memories (sliceRead n p a k s).2 := by
  unfold Machine.sliceRead
  split
  · exact h
  · exact h.txTouches

theorem Safety.memories.sliceWrite (h : memories s) {n p a k v : Nat} : memories (sliceWrite n p a k v s) := by
  unfold Machine.sliceWrite
  split
  · exact h.wr
  · exact h.txTouches.updPart

theorem Safety.memories.performNear (h : memories s) {n : Nat} {x : NearAccess} : memories (Machine.perform n x s) := by
  unfold Machine.perform
  split
  · exact h.sliceRead.fillLanding
  · exact h.sliceWrite
  · exact h.sliceRead.fillLanding
  · exact h.sliceRead.fillLanding
  · exact h.sliceRead.sliceWrite.fillLanding
  · refine Safety.memories.fillLanding ?_
    split
    · exact h.sliceRead.sliceWrite
    · exact h.sliceRead

/-! ### Frames and harts (R361, R365) -/

theorem Safety.memories.updFlow (h : memories s) {k p : Nat} {f : Flow → Flow} : memories (s.updFlow k p f) := by
  unfold State.updFlow
  split <;> exact h

theorem Safety.memories.sendFrame (h : memories s) {t : State} {k p : Nat} {kind : FrameKind} {a : Nat} {d : List W8}
    {c : Option (Nat × Nat)} {w : Option Nat} {x : Option (Nat × HartOp)} (e : s.sendFrame k p kind a d c w x = some t) :
    memories t := by
  unfold State.sendFrame at e
  dsimp only at e
  split at e
  · cases e
  · split at e
    · cases e
    · exact Option.some.inj e ▸ (h.draw _).updFlow

theorem Safety.memories.hartReturn (h : memories s) {i v : Nat} : memories (hartReturn i v s) := h

theorem Safety.memories.hartPerform (h : memories s) {i : Nat} {op : HartOp} {o : Owner} {a pa n v : Nat}
    {w : Nat → State → State} (hw : ∀ v t, memories t → memories (w v t)) : memories (hartPerform i op o a pa n v w s) := by
  unfold Machine.hartPerform
  split
  · exact h
  · exact hw _ _ h
  · exact h
  · refine Safety.memories.hartReturn ?_
    split
    · exact hw _ _ h
    · exact h
  · exact (hw _ _ h).hartReturn
  · exact h
  · exact h

theorem Safety.memories.hartAcked (h : memories s) {i : Nat} {op : HartOp} {f : Frame} : memories (hartAcked i op f s) := by
  refine Safety.memories.hartPerform ?_ fun _ _ ht => ht.wr
  split
  · exact h
  · exact h.refresh

theorem Safety.memories.acked (h : memories s) {o : OutFrame} : memories (acked o s) := by
  unfold Machine.acked
  extract_lets t
  have ht : memories t := by
    unfold t
    split
    · exact h.wr.unpost
    · exact h.hartAcked
    · exact h
  split <;> exact ht

theorem Safety.memories.answer (h : memories s) : memories s.answer := h

end Sys2Proof

/-!
PROOFS. Engine commands keep the memories canonical: their accesses, and the steps that they make.
-/

namespace Sys2Proof

open Sys2Proof.Machine

variable {s : State}

/-! ### Commands as the state holds them -/

theorem Safety.memories.putCmd (h : memories s) {c : Cmd} : memories (putCmd c s) := h
theorem Safety.memories.dropCmd (h : memories s) {p i : Nat} : memories (dropCmd p i s) := h
theorem Safety.memories.pendFault (h : memories s) {p i : Nat} {f : LateFault} : memories (pendFault p i f s) := h
theorem Safety.memories.completeTag (h : memories s) {p g i f : Nat} : memories (completeTag p g i f s) := h
theorem Safety.memories.noteClass (h : memories s) {c : Cmd} {o : Owner} : memories (noteClass c o s) := h
theorem Safety.memories.takeIn (h : memories s) {c : Cmd} {bs : List W8} : memories (takeIn c bs s) := h
theorem Safety.memories.putOut (h : memories s) {c : Cmd} {n : Nat} {l : Bool} : memories (putOut c n l s) := h
theorem Safety.memories.deliverTile (h : memories s) {c : Cmd} {bs : List W8} : memories (deliverTile c bs s) := h
theorem Safety.memories.tookTask (h : memories s) {c : Cmd} {v cl n : Nat} {e : Bool} : memories (tookTask c v cl n e s) := h

theorem Safety.memories.faultCmd (h : memories s) {c : Cmd} {f : LateFault} : memories (faultCmd c f s) := h.putCmd.pendFault

theorem Safety.memories.choose (h : memories s) {c : Cmd} {g n : Nat} : memories (c.choose g n s).2 := by
  unfold Cmd.choose
  split <;> exact h

theorem Safety.memories.issueCmd (h : memories s) {f : Cmd → Cmd} {kind : EngKind} {fn p a b : Nat} {ws : List Nat} :
    memories (issueCmd f kind fn p a b ws s) :=
  h.waitIf.claimTag.updMe.setNextId

theorem Safety.memories.windowCheck (h : memories s) {va : Nat} {w : Bool} : memories (windowCheck va w s) := by
  unfold Machine.windowCheck
  split
  · split <;> exact h
  · exact h

theorem Safety.memories.issueFar (h : memories s) {at_ w : Bool} {kind : EngKind} {fn p a b n q : Nat} :
    memories (issueFar at_ w kind fn p a b n q s) :=
  h.readWords.check.windowCheck.issueCmd

theorem Safety.memories.noTx (h : memories s) : memories (noTx s) := h.check

theorem Safety.memories.issueWords (h : memories s) {ok : List Nat → Bool} {kind : EngKind} {fn p a b n q : Nat} :
    memories (issueWords ok kind fn p a b n q s) :=
  h.noTx.readWords.check.issueCmd

theorem Safety.memories.issueTable (h : memories s) {tbl step top : Nat} {busy : Nat → Bool} {p a b q : Nat} :
    memories (issueTable tbl step top busy p a b q s) :=
  h.noTx.readWords.check.check.waitIf.issueCmd.emit

/-! ### Translation and the start of a command (R239, R353) -/

theorem Safety.memories.tlbLookup (h : memories s) {n k va : Nat} : memories (tlbLookup n k va s).2 := by
  unfold Machine.tlbLookup
  dsimp only
  split
  · exact h.updCore
  · split
    · exact h
    · exact h.updCore.setDieTlb

theorem Safety.memories.tlbFill (h : memories s) {n k va : Nat} {x : Xlate} : memories (tlbFill n k va x s) := by
  unfold Machine.tlbFill
  split
  · exact h
  · exact h.updCore.setDieTlb

theorem Safety.memories.lookPage (h : memories s) {k : Nat} {c : Cmd} {g : Nat} : memories (lookPage k c s g).2 := by
  unfold Machine.lookPage
  dsimp only
  split
  · exact h.tlbLookup
  · exact h.tlbLookup.setWalks.heldOver

theorem Safety.memories.lookPages (h : memories s) {c : Cmd} : memories (lookPages c s) := by
  unfold Machine.lookPages
  split
  · exact h.putCmd
  · exact (Safety.memories.foldlSnd h fun _ _ h => h.lookPage).putCmd

theorem Safety.memories.noteGate (h : memories s) {c : Cmd} : memories (noteGate s c) := by
  unfold Machine.noteGate
  split <;> exact h

theorem Safety.memories.fetched (h : memories s) {c : Cmd} : memories (c.fetched s).2 := by
  unfold Cmd.fetched
  split
  · exact h.weigh
  · exact h

theorem Safety.memories.span (h : memories s) {c : Cmd} : memories (c.span s).2 := by
  unfold Cmd.span
  dsimp only
  split
  · exact h
  · split <;> exact h

theorem Safety.memories.beginCount (h : memories s) {c : Cmd} : memories (beginCount c s) := by
  unfold Machine.beginCount
  split
  · exact h
  · exact h.fetched.span.putCmd

/-! ### Accesses (R232, R237, R302, R303, R352) -/

theorem Safety.memories.writes (h : memories s) {c : Cmd} {e : Option Nat} {o : Owner} {a : Nat} {bs : List W8} :
    memories (c.writes e o a bs s) :=
  h.perform

theorem Safety.memories.useRows (h : memories s) {c : Cmd} {o : Owner} {a n : Nat} {l : Bool} :
    memories (useRows c o a n l s) := by
  unfold Machine.useRows
  split
  · dsimp only
    split
    · exact (h.updCore).weigh
    · exact h.updCore
  · exact h

theorem Safety.memories.useCodec (h : memories s) {n d a : Nat} : memories (useCodec n d a s) := h.updCore

theorem Safety.memories.holdRequest (h : memories s) {c : Cmd} {side n due : Nat} : memories (holdRequest c side n due s) :=
  (Safety.memories.heldOver h).updCore

theorem ckptMemories.charge {c : Context} (h : ckptMemories c) (xs : List (Nat × Nat × Nat)) : ckptMemories (c.charge xs) :=
  List.foldlRecOn xs _ h fun _ hc _ _ => hc

theorem Safety.memories.spend (h : memories s) {c : Cmd} {side n : Nat} {xs : List (Nat × Nat × Nat)} :
    memories (spend c side n xs s).2 := by
  unfold Machine.spend
  split
  · exact h
  · extract_lets q mine above pass
    have hp : ∀ rest, memories (pass rest).2 := fun _ => h.updCore.updCtx fun hc => hc.charge _
    clear_value q
    split
    · exact h
    · split
      · split
        · exact h.holdRequest
        · exact hp _
      · split
        · exact h.holdRequest
        · split
          · exact h.holdRequest
          · exact hp _

/-- The answer of an operation that may meet a fault: a state that it answers has its memories canonical. -/
def okMemories {α : Type} (r : Except LateFault (α × State)) : Prop := ∀ x, r = .ok x → Safety.memories x.2

theorem okMemories.error {α : Type} {f : LateFault} : okMemories (.error f : Except LateFault (α × State)) :=
  fun _ e => by cases e

theorem okMemories.ok {α : Type} {x : α × State} (h : Safety.memories x.2) : okMemories (.ok x) := fun _ e =>
  Except.ok.inj e ▸ h

/-- The answer of an operation that makes a state or waits: both states have their memories canonical. -/
def bothMemories (r : Option State × State) : Prop := (∀ t, r.1 = some t → Safety.memories t) ∧ Safety.memories r.2

theorem bothMemories.waits {t : State} (h : Safety.memories t) : bothMemories (none, t) := ⟨fun _ e => (by cases e), h⟩

theorem bothMemories.made {t u : State} (h : Safety.memories t) (hu : Safety.memories u) : bothMemories (some t, u) :=
  ⟨fun _ e => Option.some.inj e ▸ h, hu⟩

theorem bothMemories.stepIf {r : Option State × State} {f : State → State} (h : bothMemories r)
    (hf : ∀ t, Safety.memories t → Safety.memories (f t)) : okMemories (stepIf r f) := by
  obtain ⟨hmade, hwaits⟩ := h
  unfold Machine.stepIf
  split
  · next e => exact okMemories.ok (hf _ (hmade _ e))
  · exact okMemories.ok hwaits

theorem Safety.memories.accessAt (h : memories s) {c : Cmd} {o : Owner} {a m side : Nat} {rows : Option Bool}
    {xs : List (Nat × Nat × Nat)} {kind : FrameKind} {data : List W8} {mk : Option (Nat × Bool)}
    {f : State → List W8 × State} (hf : ∀ t, memories t → memories (f t).2) :
    memories (accessAt c o a m side rows xs kind data mk f s).2 := by
  unfold Machine.accessAt
  extract_lets c go
  have hgo : ∀ t, memories t → memories (go t).2 := by
    intro t ht
    refine hf _ ?_
    have hm : memories (match mk with
        | some x => (Machine.noteClass c o t).txTouches c.gpi o a x.1 m x.2
        | none => t) := by
      split
      · exact ht.noteClass.txTouches
      · exact ht
    split
    · exact hm.useRows
    · exact hm
  split
  · exact h
  · split
    · split
      · exact hgo _ h.refresh.putCmd
      · split
        · exact h
        · split
          · exact h.spend
          · split
            · next e =>
              obtain ⟨k, -, hk⟩ := Option.bind_eq_some_iff.1 e
              exact (h.spend.sendFrame hk).putCmd
            · exact h.holdRequest
    · split
      · exact hgo _ h.spend
      · exact h.spend

end Sys2Proof

/-!
PROOFS. The steps of engine commands, one after another, keep the memories canonical.
-/

namespace Sys2Proof

open Sys2Proof.Machine

variable {s : State}

theorem Safety.memories.piece (h : memories s) {c : Cmd} {side : Nat} {w : Bool} {a k : Nat} :
    memories (c.piece side w a k s).2 := by
  unfold Cmd.piece
  split
  · exact h
  · split
    · exact h
    · exact h.choose

/-! ### Buffered writes (R271, R278) -/

theorem Safety.memories.drainEntry (h : memories s) {cl : Nat} {w : Bool} {x : Posted} : memories (drainEntry cl w x s) := by
  unfold Machine.drainEntry
  extract_lets k c put stay n r
  have hput : ∀ f t, memories t → memories (put f t) := fun _ _ ht => ht.updCluster
  clear_value k c
  split
  · split
    · exact (hput _ _ h).heldOver
    · next e => exact hput _ _ (h.sendFrame e)
  · extract_lets full t₀ t
    split
    · exact hput _ _ h
    · have hr : memories r.2 := by
        unfold r
        split
        · split
          · exact h
          · exact h.piece
        · exact h
      refine hput _ _ ?_
      unfold t
      split
      · dsimp only
        split
        · exact hr.perform.updCore.weigh
        · exact hr.perform.updCore
      · exact hr.perform

theorem Safety.memories.makeRoom (h : memories s) {cl : Nat} : memories (makeRoom cl s) :=
  h.foldl fun _ _ h => h.drainEntry

theorem Safety.memories.flushTo (h : memories s) {cl n : Nat} : memories (flushTo cl n s) :=
  h.foldl fun _ _ h => by
    split
    · exact h
    · exact h.drainEntry

/-! ### Reads and writes of rows -/

theorem Safety.memories.farRead (h : memories s) {c : Cmd} {va m n : Nat} {l : Bool} : okMemories (farRead c va m n l s) := by
  unfold Machine.farRead
  split
  · exact .error
  · exact .ok (h.accessAt fun _ ht => ht)

theorem Safety.memories.farWrite (h : memories s) {c : Cmd} {va : Nat} {bs : List W8} {n side : Nat} {l : Bool} :
    okMemories (farWrite c va bs n side l s) := by
  unfold Machine.farWrite
  split
  · exact .error
  · split
    · refine .ok (h.accessAt fun t ht => ?_)
      dsimp only
      split
      · exact ht.updPart
      · exact ht
    · split
      · extract_lets t
        have ht : memories t := by
          unfold t
          split
          · exact h.makeRoom
          · exact h
        split
        · exact .ok ht.holdRequest
        · split
          · exact .ok ht.spend
          · exact .ok ht.spend.updCluster.setNextId
      · exact .ok (h.accessAt fun t ht => ht.writes)

theorem Safety.memories.nearRow (h : memories s) {c : Cmd} {a n side : Nat} : bothMemories (nearRow c a n side s) := by
  unfold Machine.nearRow
  dsimp only
  split
  · exact .waits h
  · split
    · exact .made h.spend.useRows h
    · exact .waits h.spend

theorem Safety.memories.putLocal (h : memories s) {c : Cmd} {a : Nat} {bs : List W8} : memories (putLocal c a bs s).2 := by
  unfold Machine.putLocal
  dsimp only
  split
  · exact h
  · exact h.useRows.useRows.writes.writes

theorem Safety.memories.putCode (h : memories s) {n a : Nat} {bs : List W8} : memories (putCode n a bs s) :=
  (h.updCore fun hc => ⟨Mem.writeBytes_wf _ _ _ hc.1, hc.2⟩).foldl fun _ _ h => h.updPart

theorem Safety.memories.putSide (h : memories s) {va n v : Nat} : memories (putSide va n v s) :=
  h.foldl fun _ _ h => h.updCore fun hc => ⟨hc.1, hc.2.1, Mem.write_wf _ _ _ hc.2.2⟩

theorem Safety.memories.quantBlock (h : memories s) {c : Cmd} {m : Core} {bs : List W8} : memories (quantBlock c m bs s).2 := by
  unfold Machine.quantBlock
  extract_lets xs es done near big sc q r
  have hr : memories r.2 := by
    unfold r
    generalize List.range 32 = l
    exact Safety.memories.foldlSnd h fun _ _ h => h.choose
  clear_value r
  split
  · exact h
  · split
    · exact h
    · split
      · exact hr
      · exact h

/-- The answer of a conversion, which none makes where too few bytes are there. -/
def convertMemories (r : Option (Except LateFault State)) : Prop := ∀ t, r = some (.ok t) → Safety.memories t

theorem convertMemories.none : convertMemories none := fun _ e => by cases e

theorem convertMemories.error {f : LateFault} : convertMemories (some (.error f)) := fun _ e => by cases e

theorem convertMemories.ok {t : State} (h : Safety.memories t) : convertMemories (some (.ok t)) := fun _ e =>
  Except.ok.inj (Option.some.inj e) ▸ h

theorem Safety.memories.convertStep (h : memories s) {c : Cmd} : convertMemories (convertStep c s) := by
  unfold Machine.convertStep
  extract_lets ended whole
  have hwhole : convertMemories whole := .ok h.putCmd
  split
  · exact .none
  · split
    · exact hwhole
    · split
      · split
        · exact .none
        · exact .ok h.putCmd
      · split
        · exact .none
        · exact .ok h.putCmd
      · split
        · exact .none
        · split
          · exact .error
          · exact .ok h.quantBlock.putCmd
      · split
        · exact .none
        · exact .ok h.putCmd
      · exact hwhole

/-! ### Steps of the commands that move rows -/

theorem Safety.memories.expandStep (h : memories s) {c : Cmd} : okMemories (expandStep c s) := by
  unfold Machine.expandStep
  split
  · exact .error
  · extract_lets m i span
    split
    · exact .ok h
    · split
      · exact .error
      · split
        · exact .ok h.spend
        · exact .ok h.spend.useRows.useCodec.putCmd
  · exact .ok h

theorem Safety.memories.sideRead (h : memories s) {c : Cmd} : okMemories (sideRead c s) := by
  unfold Machine.sideRead
  extract_lets w
  split
  · exact .error
  · extract_lets k
    split
    · exact .ok h
    · split
      · exact .ok h.spend
      · exact .ok h.spend.useRows.takeIn
  · exact .ok h

theorem Safety.memories.readStep (h : memories s) {c : Cmd} : okMemories (readStep c s) := by
  unfold Machine.readStep
  extract_lets r
  split
  · exact h.expandStep
  · split
    · exact h.sideRead
    · split
      · extract_lets k d
        split
        · exact .error
        · next e => exact .ok (h.piece.farRead _ e)
        · next e => exact .ok (Safety.memories.takeIn (h.piece.farRead _ e))
      · exact h.nearRow.stepIf fun _ ht => ht.takeIn

theorem Safety.memories.packStep (h : memories s) {c : Cmd} : okMemories (packStep c s) := by
  unfold Machine.packStep
  split
  · exact .error
  · split
    · exact .ok h
    · dsimp only
      split
      · exact .ok h.spend
      · exact .ok h.spend.useCodec.putCmd
  · exact .ok h

theorem Safety.memories.tileStep (h : memories s) {c : Cmd} {bs : List W8} : okMemories (tileStep c bs s) := by
  unfold Machine.tileStep
  split
  · exact .error
  · extract_lets i u
    have hu : memories u := by
      unfold u
      split
      · exact h.flushTo
      · exact h
    split
    · exact .ok hu
    · split
      · exact .error
      · split
        · exact .ok hu
        · exact .ok (Safety.memories.putCmd (hu.foldl fun _ _ ht => ht.useRows.writes.writes))
  · exact .ok h

theorem Safety.memories.owedStep (h : memories s) {c : Cmd} : okMemories (owedStep c s) := by
  unfold Machine.owedStep
  split
  · exact .ok h
  · split
    · exact .error
    · next e => exact .ok (h.farWrite _ e)
    · next e => exact .ok (Safety.memories.putCmd (h.farWrite _ e))

theorem Safety.memories.sideStep (h : memories s) {c : Cmd} : okMemories (sideStep c s) := by
  unfold Machine.sideStep
  extract_lets va k
  split
  · exact .error
  · split
    · exact .ok h
    · dsimp only
      split
      · exact .ok h.spend
      · exact .ok h.spend.useRows.putSide.putCmd

theorem Safety.memories.lastStep (h : memories s) {c : Cmd} : okMemories (lastStep c s) := by
  unfold Machine.lastStep
  split
  · exact .ok h.putCmd
  · split
    · exact .ok h
    · refine .ok ?_
      split
      · exact h.putLocal.putCmd
      · exact h.putLocal

theorem okMemories.some {r : Step} (h : okMemories r) : ∀ q ∈ some r, okMemories q := fun _ e => Option.some.inj e ▸ h

theorem Safety.memories.writeStep (h : memories s) {c : Cmd} : ∀ r ∈ writeStep c s, okMemories r := by
  unfold Machine.writeStep
  extract_lets r k
  split
  · split
    · exact fun _ e => by cases e
    · exact okMemories.some h.packStep
  · split
    · exact fun _ e => by cases e
    · split
      · exact okMemories.some (.ok h)
      · split
        · exact okMemories.some (h.nearRow.stepIf fun _ ht => ht.writes.putOut)
        · refine okMemories.some (.ok ?_)
          split
          · exact h.spend.putCode.putOut
          · exact h.spend
        · extract_lets o whole d last lo
          refine okMemories.some ?_
          split
          · exact .error
          · next e => exact .ok (h.piece.farWrite _ e)
          · next t e =>
            have ht : memories t := h.piece.farWrite _ e
            extract_lets u
            have hu : memories u := by
              unfold u
              split
              · exact ht.foldl fun _ _ h => h.putSide
              · exact ht
            exact .ok hu.putOut

theorem Safety.memories.faultAfterWrites (h : memories s) {c : Cmd} {f : LateFault} : okMemories (faultAfterWrites c f s) := by
  unfold Machine.faultAfterWrites
  split
  · exact .ok h
  · split
    · split
      · exact h.owedStep
      · exact .ok h
    · cases e : Machine.writeStep c s with
      | none => exact .error
      | some r => exact h.writeStep r e

theorem Safety.memories.moveStep (h : memories s) {c : Cmd} : okMemories (moveStep c s) := by
  unfold Machine.moveStep
  split
  · exact h.owedStep
  · split
    · exact .ok h
    · split
      · split
        · exact h.sideStep
        · exact h.lastStep
      · split
        · exact h.lastStep
        · extract_lets d read rest
          have hd : memories d.2 := by
            unfold d
            split
            · exact h
            · exact h.choose
          have hread : ∀ t, memories t → okMemories (read t) := by
            intro t ht
            unfold read
            split
            · exact ht.faultAfterWrites
            · exact ht.readStep
          have hrest : ∀ t, memories t → okMemories (rest t) := by
            intro t ht
            unfold rest
            split
            · exact ht.faultAfterWrites
            · next e => exact .ok (ht.convertStep _ e)
            · split
              · exact hread _ ht
              · exact .ok ht
          have hw : ∀ r, (if (decide (d.1 = 0) && decide (c.rd < c.srcLen)) = true then none else Machine.writeStep c d.2) = some r →
              okMemories r := by
            intro r e
            split at e
            · cases e
            · exact hd.writeStep r e
          split
          · next e => exact .ok (hw _ e _ rfl)
          · exact .error
          · next e => exact hrest _ (hw _ e _ rfl)
          · exact hrest _ hd

theorem Safety.memories.streamStep (h : memories s) {c : Cmd} : okMemories (streamStep c s) := by
  unfold Machine.streamStep
  split
  · split
    · exact .ok h.deliverTile
    · exact h.tileStep
  · exact h.moveStep

end Sys2Proof

/-!
PROOFS. Atomics, transactions, task queues, collectives and table loads keep the memories canonical, and so does the next step of
every command.
-/

namespace Sys2Proof

open Sys2Proof.Machine

variable {s : State}

theorem Safety.memories.accessed (h : memories s) {c : Cmd} {o : Owner} {a m side : Nat} {rows : Option Bool}
    {xs : List (Nat × Nat × Nat)} {kind : FrameKind} {data : List W8} {mk : Option (Nat × Bool)}
    {f : State → List W8 × State} {x : Option (List W8)} {t : State}
    (e : Machine.accessAt c o a m side rows xs kind data mk f s = (x, t)) (hf : ∀ t, memories t → memories (f t).2) : memories t := by
  obtain rfl : _ = t := congrArg Prod.snd e
  exact h.accessAt hf

theorem Safety.memories.deliverLocal (h : memories s) {c : Cmd} {a : Nat} {bs : List W8} {d : Cmd → Cmd} :
    okMemories (deliverLocal c a bs d s) := by
  unfold Machine.deliverLocal
  split
  · exact .ok h
  · refine .ok ?_
    split
    · exact h.putLocal.putCmd
    · exact h.putLocal

theorem Safety.memories.atomStep (h : memories s) {c : Cmd} : okMemories (atomStep c s) := by
  unfold Machine.atomStep
  split
  · exact h.deliverLocal
  · split
    · exact .error
    · next o a _ =>
      extract_lets kind data r
      have hr : memories r.2 := h.accessAt fun t ht => by
        extract_lets bs
        split
        · exact ht
        · split
          · exact ht.writes
          · split
            · exact ht
            · exact ht.updPart
      clear_value r
      obtain ⟨_ | bs, t⟩ := r
      · exact .ok hr
      · exact .ok (Safety.memories.putCmd hr)

theorem Safety.memories.commitStep (h : memories s) {c : Cmd} : okMemories (commitStep c s) := by
  unfold Machine.commitStep
  split
  · exact .ok h.putCmd
  · extract_lets near
    split
    · exact .ok (h.updPart.accessAt fun t ht => ht.writes.updPart)
    · split
      · next e => exact .ok (Safety.memories.updPart (h.deliverLocal _ e))
      · exact h.deliverLocal

theorem Safety.memories.appendTask (h : memories s) {t : State} {cl d : Nat} (e : appendTask cl d s = some t) : memories t := by
  unfold Machine.appendTask at e
  dsimp only at e
  split at e
  · cases e
  · exact Option.some.inj e ▸ h.updCluster

theorem Safety.memories.spawnStep (h : memories s) {c : Cmd} : okMemories (spawnStep c s) := by
  unfold Machine.spawnStep
  extract_lets o
  split
  · exact .ok h
  · split
    · exact .error
    · next e => exact .ok (h.useRows.appendTask e).putCmd

theorem Safety.memories.joinStep (h : memories s) {c : Cmd} : okMemories (joinStep c s) := by
  unfold Machine.joinStep
  extract_lets va
  split
  · exact .error
  · next o a _ =>
    split
    · next e => exact .ok (h.accessed e fun _ ht => ht)
    · next bs t e =>
      have ht : memories t := h.accessed e fun _ ht => ht
      extract_lets n u d
      split
      · exact .error
      · split
        · split
          · exact .error
          · next e => exact .ok (ht.writes.appendTask e).putCmd
        · exact .ok ht.writes.putCmd

theorem Safety.memories.visitQueue (h : memories s) {c : Cmd} {cl n : Nat} {f : State → State}
    (hf : ∀ t, memories t → memories (f t)) : okMemories (visitQueue c cl n f s) := by
  unfold Machine.visitQueue
  extract_lets r
  refine .ok ?_
  split
  · exact hf _ h.spend
  · exact h.spend

theorem Safety.memories.takeStep (h : memories s) {c : Cmd} : okMemories (takeStep c s) := by
  unfold Machine.takeStep
  split
  · exact h.deliverLocal
  · extract_lets remove w v cl slot
    split
    · split
      · exact .ok h.tookTask
      · split
        · exact h.visitQueue fun _ ht => ht.updCluster.tookTask
        · exact .error
    · split
      · exact .ok h.tookTask
      · split
        · exact h.visitQueue fun _ ht => ht.putCmd
        · exact h.visitQueue fun _ ht => ht.updCluster.tookTask

theorem Safety.memories.sendRow (h : memories s) {t : State} {c : Cmd} {k row : Nat} {bs : List W8} {m : Nat × Nat}
    (e : sendRow c k row bs s m = some t) : memories t := by
  unfold Machine.sendRow at e
  split at e
  · exact Option.some.inj e ▸ h.setGathers
  · exact h.sendFrame e

theorem Safety.memories.sendRows (h : memories s) {c : Cmd} {k row : Nat} {ms : List (Nat × Nat)} :
    bothMemories (sendRows c k row ms s) := by
  unfold Machine.sendRows
  extract_lets a n o bs here xs r
  split
  · exact .waits h
  · split
    · exact .waits h.spend
    · split
      · exact .waits h.holdRequest
      · next t e =>
        have hsent : ∀ u, (ms.foldl (fun t m => t.bind fun t => Machine.sendRow c k row bs t m) (some r.2)) = some u → memories u :=
          List.foldlRecOn (motive := fun u => ∀ t, u = some t → memories t) ms _ (fun _ e => Option.some.inj e ▸ h.spend)
            fun u hu m _ t e => by
              obtain ⟨v, hv, e⟩ := Option.bind_eq_some_iff.1 e
              exact (hu v hv).sendRow e
        exact .made (hsent t e).useRows h

theorem Safety.memories.gatherStep (h : memories s) {c : Cmd} : okMemories (gatherStep c s) := by
  unfold Machine.gatherStep
  split
  · exact .ok h.putCmd
  · split
    · exact h.sendRows.stepIf fun _ ht => ht.putCmd
    · split
      · exact .ok h.putCmd
      · split
        · exact .ok h
        · exact h.sendRows.stepIf fun _ ht => ht.putCmd

theorem Safety.memories.tableStep (h : memories s) {c : Cmd} : okMemories (tableStep c s) := by
  unfold Machine.tableStep
  extract_lets a rows mine fill t u
  split
  · exact .ok h.updCore.putCmd
  · exact .ok h.useRows.updPart.updCore.putCmd

theorem Safety.memories.cmdStep (h : memories s) {c : Cmd} : okMemories (c.step s) := by
  unfold Cmd.step
  split
  · exact h.streamStep
  · exact h.streamStep
  · exact h.streamStep
  · exact h.streamStep
  · exact h.streamStep
  · exact h.streamStep
  · exact h.atomStep
  · exact h.commitStep
  · exact h.spawnStep
  · exact h.joinStep
  · exact h.takeStep
  · exact h.gatherStep
  · exact h.tableStep
  · exact .ok h
  · exact .ok h
  · exact .ok h
  · exact .ok h
  · exact .ok h

end Sys2Proof

/-!
PROOFS. Traps, the dispatch unit, pre-emption, checkpoints and errors keep the memories canonical, those of the images among them.
-/

namespace Sys2Proof

open Sys2Proof.Machine

variable {s : State}

/-! ### Stops, traps and resumption (R318 to R325) -/

theorem Safety.memories.raise (h : memories s) {i : Nat} : memories (s.raise i) := by
  unfold State.raise
  dsimp only
  split
  · exact h
  · split <;> exact h

theorem Safety.memories.updParts (h : memories s) {n : Nat} {f : Part → Part} : memories (s.updParts n f) :=
  h.foldl fun _ _ h => h.updPart

theorem Safety.memories.capture (h : memories s) {n : Nat} {nest : Bool} : memories (capture n nest s) :=
  (h.foldl fun _ _ h => h.updPart).updCore

theorem Safety.memories.holdAll (h : memories s) {n : Nat} : memories (holdAll n s) := h.updParts.updCore
theorem Safety.memories.doomCore (h : memories s) {n : Nat} : memories (doomCore n s) := h.updParts

theorem Safety.memories.stopCore (h : memories s) {n : Nat} {q : Bool} : memories (stopCore n q s) := by
  unfold Machine.stopCore
  extract_lets c t u
  split
  · split
    · refine Safety.memories.updCore ?_
      split
      · exact h.capture.doomCore.holdAll
      · exact h.capture.doomCore
    · exact h
  · refine Safety.memories.updCore ?_
    split
    · exact h.capture.doomCore.holdAll
    · exact h.capture.doomCore

theorem Safety.memories.stopPeers (h : memories s) {n cyc : Nat} : memories (stopPeers n cyc s) :=
  h.foldl fun _ _ h => by
    split
    · exact h
    · exact h.updCore

theorem Safety.memories.takeTrap (h : memories s) {p : Nat} {t : TrapInfo} : memories (takeTrap p t s) := by
  unfold Machine.takeTrap
  extract_lets n c nest s1 s2 s3 s4
  have h2 : memories s2 := h.stopCore.updPart
  have h4 : memories s4 := by
    refine Safety.memories.updCore ?_
    unfold s3
    split
    · exact h2.stopPeers
    · exact h2
  split
  · exact h4
  · exact h4.setTrpend.raise

theorem Safety.memories.replaySnaps (h : memories s) {n : Nat} {nest : Bool} : memories (replaySnaps n nest s) :=
  h.foldl fun _ _ h => h.updCore.updPart

theorem Safety.memories.goOn (h : memories s) {n m : Nat} : memories (goOn n m s) := h.updParts.updCore

theorem Safety.memories.setResume (h : memories s) {n : Nat} {f : Nat → Nat} : memories (setResume n f s) :=
  h.foldl fun _ _ h => by
    split
    · exact h
    · exact h.updCore

theorem Safety.memories.scheduleResume (h : memories s) {n d : Nat} : memories (scheduleResume n d s) := h.setResume

theorem Safety.memories.refuse (h : memories s) {n : Nat} : memories (refuse n s) := h.updCore

theorem Safety.memories.eretCommit (h : memories s) {n : Nat} : memories (eretCommit n s) := by
  unfold Machine.eretCommit
  split
  · exact h
  · exact h.updPart.updCore.setResume

/-! ### Contexts, queues and reports (R286 to R290) -/

theorem Safety.memories.rereadRecord (h : memories s) {k : Nat} : memories (rereadRecord s k) := by
  unfold Machine.rereadRecord
  split
  · exact h.setCtxerr.raise
  · exact h.updCtx

theorem Safety.memories.restart (h : memories s) {v : Nat} : memories (s.restart v) := by
  unfold State.restart
  extract_lets t
  split
  · exact Safety.memories.foldl (s := t) h fun _ _ h => h.rereadRecord
  · exact h

theorem Safety.memories.pwrite (h : memories s) {a n v : Nat} : memories (s.pwrite a n v) := h.wr
theorem Safety.memories.queueError (h : memories s) {q c : Nat} : memories (queueError q c s) := h.pwrite.pwrite.raise

theorem Safety.memories.pageWrite (h : memories s) {t : State} {k va : Nat} {bs : List W8} (e : pageWrite k va bs s = .made t) :
    memories t := by
  unfold Machine.pageWrite at e
  split at e
  · cases e
  · split at e
    · next hs => exact WriteFate.made.inj e ▸ (h.sendFrame hs).wr
    · cases e
  · exact WriteFate.made.inj e ▸ h.wr

theorem Safety.memories.devWrite (h : memories s) {t : State} {k va : Nat} {bs : List W8} (e : devWrite k va bs s = .made t) :
    memories t := by
  unfold Machine.devWrite at e
  dsimp only at e
  split at e
  · exact h.pageWrite e
  · split at e
    · cases e
    · split at e
      · next hu => exact (h.pageWrite hu).pageWrite e
      · next hn => exact absurd e (hn t)

theorem Safety.memories.addCompletion (h : memories s) {t : State} {k : Kernel} {d : Nat} (e : addCompletion k d s = .made t) :
    memories t := by
  unfold Machine.addCompletion at e
  dsimp only at e
  split at e
  · exact WriteFate.made.inj e ▸ h
  · split at e
    · cases e
    · split at e
      · split at e
        · next hs => exact WriteFate.made.inj e ▸ (h.sendFrame hs).refresh.wr
        · cases e
      · exact WriteFate.made.inj e ▸ h.wr

theorem Safety.memories.writeReport (h : memories s) {i : Nat} : memories (writeReport i s) := by
  unfold Machine.writeReport
  split
  · exact h
  · split
    · exact h
    · extract_lets rec_ bs
      split
      · exact h
      · split
        · exact h
        · exact (h.updKernel).queueError
        · next t e =>
          have ht : memories t := h.devWrite e
          extract_lets t r
          split
          · exact ht.updKernel.takePlace.writeEntry.updCtx
          · exact ht.updKernel.updCtx

theorem Safety.memories.finishPacket (h : memories s) {i : Nat} {k : Kernel} : memories (finishPacket i k s) := by
  unfold Machine.finishPacket
  extract_lets t
  have ht : memories t := h.writeReport
  split
  · exact ht
  · split
    · exact ht
    · exact ht.updQueue.setKernels (Cells.del_of i ht.kernels)

theorem Safety.memories.completePacket (h : memories s) {i : Nat} {k : Kernel} : memories (completePacket i k s) := by
  unfold Machine.completePacket
  extract_lets done
  have hdone : ∀ t, memories t → memories (done t) := fun _ ht => ht.updKernel.finishPacket
  split
  · exact h.finishPacket
  · split
    · exact h
    · exact hdone _ h.queueError
    · next e => exact hdone _ (h.addCompletion e)

/-! ### The start and the end of a kernel (R291 to R297) -/

/-- A packet that passes its checks is of a kernel that holds no image yet. -/
theorem State.checkPacket_image {q : Nat} {pk : List Nat} {k : Kernel} (e : s.checkPacket q pk = .inr k) : k.image = none := by
  unfold State.checkPacket at e
  extract_lets c seed at e
  split at e
  · cases e
  · split at e
    · exact Sum.inr.inj e ▸ rfl
    · split at e
      · cases e
      · extract_lets y at e
        split at e
        · cases e
        · split at e
          · cases e
          · split at e
            · exact Sum.inr.inj e ▸ rfl
            · cases e

theorem Safety.coreMemories.startCore {i : Nat} {k : Kernel} {l : Bool} {xs : List (List W8)} {fill : Nat} {c : Core} :
    coreMemories (startCore i k l xs fill c) :=
  ⟨Mem.writeBytes_wf _ _ _ (Mem.filled_wf _), Mem.filled_wf _, Mem.filled_wf _⟩

theorem Safety.memories.startOne (h : memories s) {i : Nat} {k : Kernel} {xs : List (List W8)} {n : Nat} :
    memories (startOne i k xs s n) :=
  (h.newFill.setFreeCtr.setCore .startCore).foldl fun _ _ h => h.updPart

theorem Safety.memories.forgetCtx (h : memories s) {k : Kernel} : memories (forgetCtx k s) :=
  (h.foldl fun _ _ h => h.updCore).setDieTlb

theorem Safety.memories.leaveCore (h : memories s) {n : Nat} : memories (leaveCore s n) :=
  (h.updCore).foldl fun _ _ h => h.updPart.setFreeCtr

theorem Safety.memories.freeClusters (h : memories s) {k : Kernel} : memories (freeClusters k s) :=
  (h.foldl fun _ _ h => h.updCluster).foldl fun _ _ h => h.leaveCore

/-! ### Images (R331, R332) -/

theorem Safety.memories.writeImage (h : memories s) {u : State} {k : Kernel} {a : Nat} {ck : Bool} :
    memories (writeImage u k a ck s) :=
  (h.newFill.foldl fun _ _ h => h.wr).foldl fun _ _ h => h.wr

/- The sizes are generalized first: unfolded, they are the lengths of lists. -/

theorem Safety.coreMemories.readCore {c : Core} (h : coreMemories c) {m : Mem} {a : Nat} {w : Bool} :
    coreMemories (readCore m a w c) := by
  unfold Machine.readCore coreMemories
  generalize 2 ^ 18 = n
  exact ⟨Mem.writeBytes_wf _ _ _ Mem.zero_wf, h.2⟩

theorem Safety.coreMemories.readSlice {c : Core} (h : coreMemories c) {m : Mem} {a : Nat} : coreMemories (readSlice m a c) := by
  unfold Machine.readSlice coreMemories
  generalize 2 ^ 21 = n, 2 ^ 23 = k
  exact ⟨h.1, Mem.writeBytes_wf _ _ _ Mem.zero_wf, Mem.writeBytes_wf _ _ _ Mem.zero_wf⟩

/-- What an image of kernel k holds of each core is what the core holds. -/
theorem Safety.memories.imageOf (h : memories s) {k : Kernel} : ∀ e ∈ (s.imageOf k).cores, coreMemories e.2 :=
  List.forall_mem_map.2 fun n _ => h.core n

theorem Safety.memories.restoreCore (h : memories s) {i : Nat} {g : Image} (hg : ∀ e ∈ g.cores, coreMemories e.2)
    {a : Option Nat} {w : Bool} {n j : Nat} : memories (restoreCore i g a w s n j) := by
  unfold Machine.restoreCore
  extract_lets old x at_ c d part
  have hx : coreMemories x := Cells.get_of n .initial hg
  clear_value x at_
  have hc : coreMemories c := by
    unfold c
    split
    · exact hx.readCore
    · exact hx
  have hd : coreMemories d := by
    unfold d
    split
    · exact hc.readSlice
    · exact hc
    · exact ⟨hc.1, (h.core n).2⟩
  clear_value d
  refine (h.setCore ?_).foldl fun _ _ h => h.setPart _ _
  exact ⟨hd.1, hd.2⟩

theorem Safety.memories.restoreCluster (h : memories s) {i : Nat} {g : Image} {a : Option Nat} {c j : Nat} :
    memories (restoreCluster i g a s c j) := h.updCluster

theorem Safety.memories.restoreImage (h : memories s) {i : Nat} {k : Kernel} {g : Image}
    (hg : ∀ e ∈ g.cores, coreMemories e.2) {a : Option Nat} {w : Bool} : memories (restoreImage i k g a w s) :=
  (h.foldl fun _ _ h => h.restoreCluster).foldl fun _ _ h => h.restoreCore hg

theorem Safety.memories.vacateCore (h : memories s) {n : Nat} : memories (vacateCore s n) := by
  refine (h.setCore ?_).foldl fun _ _ h => h.updPart
  exact ⟨(h.core n).1, (h.core n).2⟩

theorem Safety.memories.vacate (h : memories s) {k : Kernel} : memories (vacate k s) :=
  ((h.foldl fun _ _ h => h.updCluster).foldl fun _ _ h => h.vacateCore).setWalks

/-! ### Pre-emption and checkpoints (R300, R330 to R334) -/

theorem Safety.memories.saveKernel (h : memories s) {i : Nat} {k : Kernel} : memories (saveKernel i k s) := by
  unfold Machine.saveKernel
  extract_lets u g t
  have hu : memories u := h.foldl fun _ _ h => h.updParts
  exact hu.writeImage.vacate.updKernel fun _ _ _ e => Option.some.inj e ▸ hu.imageOf

theorem Safety.memories.choosePreempted (h : memories s) {i : Nat} {k : Kernel} : memories (choosePreempted i k s) :=
  h.updKernel.foldl fun _ _ h => by
    split
    · exact h.holdAll.updCore
    · exact h.updCore

theorem Safety.memories.preemptCore (h : memories s) {n : Nat} : memories (preemptCore n s) := h.stopCore.holdAll.updCore

theorem Safety.memories.runOn (h : memories s) {n : Nat} : memories (runOn n s) := by
  unfold Machine.runOn
  exact .ite h h.updParts.updCore

/-- The kernels of a checkpoint: of each core the image keeps the program memory only. -/
theorem Safety.memories.ckptKernels (h : memories s) {k : Nat} : ∀ x ∈ s.ckptKernels k, imageMemories x.2 := by
  refine List.forall_mem_map.2 fun x _ g e => ?_
  obtain rfl := Option.some.inj e
  exact List.forall_mem_map.2 fun c hc => ⟨(h.imageOf c hc).1, Mem.zero_wf, Mem.zero_wf⟩

theorem Safety.memories.closeInterval (h : memories s) {k : Nat} : memories (closeInterval k s) := by
  unfold Machine.closeInterval
  extract_lets ks c bank past t u
  have hu : memories u := (h.foldl fun _ _ h => h.writeImage).updCtx fun _ => h.ckptKernels
  exact hu.foldl fun _ _ h => h.foldl fun _ _ h => by
    split
    · exact h.updCore
    · exact h.updParts

theorem Safety.memories.noteArrivals (h : memories s) {k : Nat} : memories (noteArrivals k s) := by
  unfold Machine.noteArrivals
  split
  · exact h
  · exact Safety.memories.updCtx (h.foldl fun _ _ h => h.updPart)

/-! ### Errors and the loss of a context (R335, R336, R369) -/

theorem Safety.memories.recordError (h : memories s) {d c : Nat} {k : Option Nat} {a : Nat} : memories (recordError d c k a s) :=
  h.updErr.raise

theorem Safety.memories.restoreLog (h : memories s) {base used : Nat} {l : List (Option Nat × Nat)} :
    memories (restoreLog base used l s) := by
  induction l generalizing s used with
  | nil => exact h
  | cons key r ih =>
    unfold Machine.restoreLog
    dsimp only
    split
    · exact ih (h.setHbm (Mem.writeBytes_wf _ _ _ h.hbm))
    · exact ih (h.updCore fun hc => ⟨hc.1, Mem.writeBytes_wf _ _ _ hc.2.1, hc.2.2⟩)

theorem Safety.memories.forgetPackets (h : memories s) {ks : List Kernel} : memories (forgetPackets ks s) :=
  h.foldl fun _ _ h => h.updQueue

theorem Safety.memories.dropKernels (h : memories s) {k : Nat} : memories (dropKernels k s) := by
  unfold Machine.dropKernels
  extract_lets ks t cores
  have ht : memories t := Safety.memories.forgetPackets (h.foldl fun _ _ h => h.vacate)
  exact ht.setKernels fun x hx => ht.kernels x (List.mem_of_mem_filter hx)

theorem Safety.memories.restoreKernel (h : memories s) {x : (Nat × Kernel) × Nat} (hx : imageMemories x.1.2) :
    memories (restoreKernel s x) := by
  unfold Machine.restoreKernel
  extract_lets j y
  split
  · exact h
  · next g e =>
    extract_lets t u v
    have hu : memories u := (h.restoreImage (hx g e)).foldl fun _ _ h => h.updCore
    have hv : memories v := hu.setKernels (Cells.put_of _ (.none rfl) hu.kernels)
    exact hv.updQueue

theorem Safety.memories.loseContext (h : memories s) {k : Nat} : memories (loseContext k s) := by
  unfold Machine.loseContext
  extract_lets c t u
  split
  · refine Safety.memories.updCtx ?_
    refine List.foldlRecOn _ _ h.dropKernels.restoreLog fun v hv x hx => hv.restoreKernel ?_
    exact h.ctx k x.1 (List.fst_mem_of_mem_zipIdx hx)
  · exact h.dropKernels.updCtx

theorem Safety.memories.killFlow (h : memories s) {k p : Nat} : memories (killFlow k p s) := by
  unfold Machine.killFlow
  extract_lets outs t u
  have hu : memories u := Safety.memories.updFlow <| h.foldl fun t o ht => by
    extract_lets r f v
    have hv : memories v := by
      unfold v
      split
      · exact (ht.draw 2).wr
      · exact (ht.draw 2).newFill.wr
      · exact ht.draw 2
    split
    · split
      · exact hv
      · exact hv.setHartErr
    · exact hv
  refine Safety.memories.raise ?_
  split
  · exact hu.loseContext
  · exact hu

end Sys2Proof

/-!
PROOFS. Device registers, frames received, harts, ports, boot, repair and the governor keep the memories canonical.
-/

namespace Sys2Proof

open Sys2Proof.Machine

variable {s : State}

/-! ### Writes of device registers (R327, R328, R361) -/

/-! A field that takes a masked value is set through its own lemma: compared with what it held, the mask would be computed. -/

theorem Safety.memories.setCtxbase (h : memories s) {x : W64} : memories { s with ctxbase := x } := h
theorem Safety.memories.setQtbase (h : memories s) {x : W64} : memories { s with qtbase := x } := h
theorem Safety.memories.setDevid (h : memories s) {x : W64} : memories { s with devid := x } := h
theorem Safety.memories.setFgbase (h : memories s) {x : W64} : memories { s with fgbase := x } := h

theorem Safety.memories.updCtx_of_ck (h : memories s) {k : Nat} {f : Context → Context} (e : (f (s.ctx k)).ck = (s.ctx k).ck) :
    memories (s.updCtx k f) := h.updCtx fun hc x hx => hc x (e ▸ hx)

theorem Safety.memories.next (h : memories s) {n : Nat} {l : List Instr} : memories (s.next n l) := h
theorem Safety.memories.later (h : memories s) {d : Nat} {i : Instr} : memories (s.later d i) := h

theorem Safety.memories.writeCorectl (h : memories s) {n v : Nat} : memories (writeCorectl n v s) := by
  unfold Machine.writeCorectl
  extract_lets op t set
  have ht : memories t := by
    unfold t
    split
    · exact h.updCore
    · exact h
  have hset : ∀ u, memories u → memories (set u) := fun _ hu => hu.updCore
  clear_value t set
  split
  · exact ht.refuse
  · split
    · exact hset _ ht
    · split
      · refine Safety.memories.next ?_
        split
        · exact hset _ ht
        · exact ht
      · exact ht.next

theorem Safety.memories.writeMsem (h : memories s) {w k v : Nat} : memories (writeMsem w k v s) := by
  unfold Machine.writeMsem
  refine Safety.memories.foldl ?_ fun _ _ h => h.later
  split <;> exact h

theorem Safety.memories.writeRepair (h : memories s) {w v : Nat} : memories (writeRepair w v s) := by
  unfold Machine.writeRepair
  extract_lets r t
  have ht : memories t := by
    unfold t
    split <;> exact h
  clear_value t
  split
  · exact h
  · split
    · exact ht
    · split
      · exact ht
      · exact ht

theorem Safety.memories.writeCtxen (h : memories s) {v : Nat} : memories (writeCtxen v s) := h.restart.next

theorem Safety.memories.regWrite (h : memories s) {w v : Nat} {r : DevReg} : memories (s.regWrite w r v) := by
  cases r with
  | ctxen => exact h.writeCtxen
  | repair => exact h.writeRepair
  | ctxbase => exact h.setCtxbase
  | qtbase => exact h.setQtbase
  | devid => exact h.setDevid.ite h
  | fgbase => exact h.setFgbase.ite h
  | msem k => exact h.writeMsem
  | corectl n => exact h.writeCorectl
  | cgbase k | window i | savebase k | ckbase k | logbase k | logsize k => exact h.updCtx_of_ck rfl
  | mailbox a => exact h.setAmvin h.flash (Mem.writeN_wf _ _ _ _ h.mailbox)
  | cecnt d k | uecnt d => exact h.updErr
  | ctxseed k | qnotify q => exact h.later
  | ctxst | pcfg p | glimit c | uestat d | iroute i | mailcmd | ckst k | tlbinv => exact h.next
  | mapOut c | mapRow n | ueaddr d | frec p w | trpend j | snap p i w => exact h

/-! ### Frames received (R365, R366) -/

theorem Safety.memories.applyFrame (h : memories s) {f : Frame} : memories (applyFrame f s).2 := by
  unfold Machine.applyFrame
  split
  · exact h.later
  · exact h.wr
  · exact h
  · exact h.wr
  · exact h

theorem Safety.memories.deliver (h : memories s) {f : Frame} : memories (deliver f s) := by
  unfold Machine.deliver
  extract_lets r a
  have hr : memories r.2.2 := by
    unfold r
    split
    · exact h.applyFrame
    · exact h
  exact hr.updFlow.answer

theorem Safety.memories.deliverHeld (h : memories s) {n k p : Nat} : memories (deliverHeld n k p s) := by
  induction n generalizing s with
  | zero => exact h
  | succ n ih =>
    unfold Machine.deliverHeld
    split
    · exact h
    · split
      · exact h
      · exact ih h.deliver

theorem Safety.memories.refuseFrame (h : memories s) {o : OutFrame} : memories (refuseFrame o s) := by
  unfold Machine.refuseFrame
  split
  · split
    · exact h
    · exact h.faultCmd
  · split
    · exact h
    · split
      · exact h.unpost
      · exact h.unpost.faultCmd
  · split <;> exact h

theorem Safety.memories.nextPort (h : memories s) {o : OutFrame} : memories (s.nextPort o).2 := by
  unfold State.nextPort
  extract_lets others r
  have hr : memories r.2 := h.draw _
  clear_value r
  split
  · exact hr
  · exact h

theorem Safety.memories.resend (h : memories s) {k p : Nat} {o : OutFrame} : memories (resend k p o s) := h.nextPort.updFlow

/-! ### Errors that no context owns (R369) -/

theorem Safety.memories.clearCore (h : memories s) {n : Nat} : memories (clearCore s n) := by
  refine (h.setCore ?_).foldl fun _ _ h => h.setPart _ _
  exact Core.initial_memories

theorem Safety.memories.zeroRecords (h : memories s) {p : Nat} : memories (zeroRecords p s) := by
  unfold Machine.zeroRecords
  split
  · exact h
  · exact h.updPart

theorem ckptMemories_clear {c : Context} : ckptMemories { c with ck := Context.initial.ck } := ckptMemories_initial

theorem Safety.memories.zeroTrapReg (h : memories s) {r : DevReg} : memories (zeroTrapReg r s) := by
  unfold Machine.zeroTrapReg
  extract_lets ofCtx
  have hctx : ∀ k f, (ckptMemories (s.ctx k) → ckptMemories (f (s.ctx k))) → memories (ofCtx k f) := fun k f hf => by
    unfold ofCtx
    split
    · exact h
    · exact h.updCtx hf
  clear_value ofCtx
  split
  · exact h.zeroRecords
  · exact h.zeroRecords
  · split
    · exact h
    · exact h.updCore
  · exact h.setTrpend
  · exact hctx _ _ fun hc => hc
  · exact hctx _ _ fun hc => hc
  · exact hctx _ _ fun hc => hc
  · exact hctx _ _ fun hc => hc
  · exact hctx _ _ fun _ => ckptMemories_clear
  · exact h
  · exact h

/-! ### Harts (R282) -/

theorem Safety.memories.directWrite (h : memories s) {a : Nat} {bs : List W8} : memories (s.directWrite a bs) := h.wr
theorem Safety.memories.hartFault (h : memories s) {i pa : Nat} : memories (hartFault i pa s) := h
theorem Safety.memories.hartHardwareError (h : memories s) {i pa : Nat} : memories (hartHardwareError i pa s) := h
theorem Safety.memories.putOff (h : memories s) {i : Nat} {x : HartAccess} : memories (putOff i x s) := h

theorem Safety.memories.hartMemory (h : memories s) {i a : Nat} {x : HartAccess} : memories (hartMemory i x a s) :=
  h.hartPerform fun _ _ ht => ht.directWrite

theorem Safety.memories.hartPeer (h : memories s) {i d a : Nat} {x : HartAccess} : memories (hartPeer i x d a s) := by
  unfold Machine.hartPeer
  split
  · exact h.setResv.hartReturn
  · cases e : s.sendFrame 16 d (hartFrame x) a (splitBytes x.v x.size) none none (some (i, x.op)) with
    | none => exact h.putOff
    | some t => exact h.sendFrame e

theorem Safety.memories.hartAccess (h : memories s) {i : Nat} {x : HartAccess} : memories (hartAccess i x s) := by
  unfold Machine.hartAccess
  split
  · exact h.putOff
  · split
    · split
      · exact h.putOff
      · exact h
    · exact h
    · extract_lets bad
      split
      · split
        · exact h.hartFault
        · split
          · exact h.putOff
          · split
            · exact h.hartHardwareError
            · exact h.hartMemory
      · split
        · exact h.hartFault
        · exact h.hartPeer
      · split
        · exact h
        · exact (h.draw _).hartReturn
      · split
        · exact h.hartFault
        · split
          · exact h.hartReturn
          · exact h.next
          · exact h.hartFault
      · exact h.hartFault

/-! ### Semaphores, the root-of-trust controller, boot and reset (R372 to R377) -/

theorem Safety.memories.putSem (h : memories s) {k : Nat} {m : MSem} : memories (s.putSem k m) := h

theorem Safety.memories.updAmvin (h : memories s) {f : Amvin → Amvin} (hf : (f s.amvin).flash.wf) (hm : (f s.amvin).mailbox.wf) :
    memories (s.updAmvin f) := h.setAmvin hf hm

theorem Safety.memories.applyRepair (h : memories s) {w : Nat} : memories (applyRepair s w) := by
  unfold Machine.applyRepair
  split
  · exact h.updCluster
  · exact h.updCore
  · exact h.updCluster
  · exact h

theorem Safety.memories.replaceRows (h : memories s) : memories (replaceRows s) :=
  Safety.memories.foldl (s := { s with remap := _ }) h fun _ _ h => h.updCluster

theorem Safety.memories.cleared (h : memories s) : memories s.cleared :=
  ⟨Mem.zero_wf, h.flash, h.mailbox, fun _ h => absurd h List.not_mem_nil, fun _ h => absurd h List.not_mem_nil,
    fun _ h => absurd h List.not_mem_nil, fun _ h => absurd h List.not_mem_nil⟩

/-- Memories that a reset keeps are those from before it. -/
theorem Safety.memories.keepMemories {t : State} (h : memories s) (ht : memories t) : memories (keepMemories s t) := by
  have hu : memories { t with hbm := s.hbm, peers := s.peers, remap := s.remap } :=
    ⟨h.hbm, ht.flash, ht.mailbox, h.peers, ht.cores, ht.kernels, ht.ctxs⟩
  refine List.foldlRecOn _ _ (hu.foldl fun _ _ h => h.updCluster) fun u hu c hc => ?_
  exact hu.updCore fun _ => h.cores c hc

theorem Safety.memories.settleRepair (h : memories s) {ok : Bool} {w : Nat} : memories (settleRepair ok w s) := by
  unfold Machine.settleRepair
  dsimp only
  split <;> exact h

end Sys2Proof

/-!
PROOFS. Results landing and the matrix unit keep the memories canonical.
-/

namespace Sys2Proof

open Sys2Proof.Machine

variable {s : State}

/-! ### Results landing (R26, R28) -/

theorem Safety.coreMemories.writeCoreReg {c : Core} (h : coreMemories c) {k en : Nat} {v : W64} :
    coreMemories (writeCoreReg k en v c) := by
  unfold Machine.writeCoreReg
  split
  · exact h
  · split <;> exact h

theorem Safety.coreMemories.writeTable {c : Core} (h : coreMemories c) {t b i : Nat} {rows : List Nat} :
    coreMemories (writeTable t b i rows c) := by
  unfold Machine.writeTable
  dsimp only
  split <;> exact h

theorem Safety.memories.landAct (h : memories s) {n p : Nat} {a : LandAct} : memories (landAct n p a s) := by
  cases a with
  | creg c en v => exact h.updPart.updCore fun hc => hc.writeCoreReg
  | table t b f rows g i => exact ((h.updCore fun hc => hc.writeTable).dropCmd).completeTag
  | sema k m | cbsel k => exact h.updCore
  | spush q v | vpush q v | tileRow t row en v | pred k v | mask k v | mparam k v | tagClear m => exact h.updPart

theorem Safety.memories.land (h : memories s) {n : Nat} {l : Landing} : memories (land n l s) :=
  (h.updCore).landAct.updPart

theorem Safety.memories.landNext (h : memories s) {n : Nat} {tbl : Bool} : memories (landNext n tbl s) := by
  unfold Machine.landNext
  split
  · exact h
  · exact h.land

/-! ### Calls and the queue of the matrix unit -/

theorem Safety.memories.enqueue (h : memories s) {k : Call} : memories (enqueue k s) := by
  unfold Machine.enqueue
  extract_lets t u
  have hu : memories u := by
    unfold u
    split
    · exact h.waitIf.claimTag
    · exact h.waitIf
  exact hu.updMyCore.setNextId

theorem Safety.memories.putCall (h : memories s) {n : Nat} {k : Call} : memories (putCall n k s) := h.updCore
theorem Safety.memories.dropCall (h : memories s) {n i : Nat} : memories (dropCall n i s) := h.updCore
theorem Safety.memories.faultCall (h : memories s) {n : Nat} {k : Call} {f : LateFault} : memories (faultCall n k f s) :=
  h.putCall.pendFault
theorem Safety.memories.delayCall (h : memories s) {n : Nat} {k : Call} : memories (delayCall n k s) := h.putCall

theorem Safety.memories.noteCodec (h : memories s) {n : Nat} {k : Call} {i : Instr} : memories (noteCodec n k i s) := by
  unfold Machine.noteCodec
  split
  · split
    · exact h.updCore
    · exact h
  · exact h

theorem Safety.memories.noteSlice (h : memories s) {n : Nat} : memories (noteSlice n s) := h.updCore fun hc => ⟨hc.1, hc.2⟩

theorem Safety.memories.loadInto (h : memories s) {k : Call} {b c f : Nat} {w : WBank} : memories (loadInto k b c w f s) :=
  h.putCall.updCore

theorem Safety.memories.landRow (h : memories s) {k : Call} {t r d : Nat} {cl : Bool} {cols : List (List Int × Bool)} :
    memories (landRow k t r d cl cols s) := h.updCore

theorem Safety.memories.strmRow (h : memories s) {cl : Bool} {a r n p o : Nat} {c : Core} {k : Call} :
    memories (strmRow cl a r n p o c k s) := by
  unfold Machine.strmRow
  extract_lets
  split
  · exact h
  · split
    · exact h.faultCall
    · split
      · exact h.faultCall
      · split
        · exact h.delayCall
        · split
          · exact h.faultCall
          · refine Safety.memories.updCore ?_
            exact h.putCall.landRow.ite h.putCall

theorem Safety.memories.writeSlice (h : memories s) {n a : Nat} {bs : List W8} : memories (writeSlice n a bs s) := h.wr.wr

theorem Safety.memories.writeSlices (h : memories s) {n : Nat} {ws : List (Nat × List W8)} : memories (writeSlices n ws s) :=
  h.foldl fun _ _ h => h.writeSlice

theorem ok_of_bind_ok {ε α β : Type} {x : Except ε α} {f : α → Except ε β} {b : β} (e : x >>= f = .ok b) :
    ∃ a, x = .ok a ∧ f a = .ok b := by
  cases x with
  | error => cases e
  | ok a => exact ⟨a, rfl, e⟩

theorem Safety.memories.mergeTile (h : memories s) {n b l : Nat} {bs : List W8} {x : Nat × Nat} {t : State}
    (e : mergeTile n b l bs s x = .ok t) : memories t := by
  unfold Machine.mergeTile at e
  extract_lets m store at e
  have hstore : ∀ old, store old = .ok t → memories t := fun old e => by
    obtain ⟨_, -, e⟩ := ok_of_bind_ok e
    exact Except.ok.inj e ▸ h.writeSlices
  split at e
  · exact hstore _ e
  · obtain ⟨_, -, e⟩ := ok_of_bind_ok e
    exact hstore _ e

theorem Safety.memories.mergeTiles (h : memories s) {n b l : Nat} {bs : List W8} {xs : List (Nat × Nat)} {t : State}
    (e : xs.foldlM (fun t x => Machine.mergeTile n b l bs t x) s = .ok t) : memories t := by
  induction xs generalizing s with
  | nil => exact Except.ok.inj e ▸ h
  | cons x xs ih =>
    rw [List.foldlM_cons] at e
    obtain ⟨u, hu, e⟩ := ok_of_bind_ok e
    exact ih (h.mergeTile hu) e

theorem Safety.memories.writeOperand (h : memories s) {n l : Nat} {d : W64} {bs : List W8} {t : State}
    (e : writeOperand n d l bs s = .ok t) : memories t := by
  unfold Machine.writeOperand at e
  split at e
  · exact h.mergeTiles e
  · exact Except.ok.inj e ▸ h.writeSlice

theorem Safety.memories.putRow (h : memories s) {k : Call} {d : W64} {bs : List W8} {c b f : Nat} :
    memories (putRow k d bs c b f s) := by
  unfold Machine.putRow
  dsimp only
  split
  · exact h.faultCall
  · next e => exact (h.writeOperand e).putCall

theorem Safety.coreMemories.clearTile {c : Core} (h : coreMemories c) {t : Nat} : coreMemories (c.clearTile t) := h

theorem Safety.coreMemories.clearTiles {c : Core} (h : coreMemories c) {l : List Nat} :
    coreMemories (l.foldl Core.clearTile c) :=
  List.foldlRecOn l _ h fun _ h _ _ => h.clearTile

theorem Safety.coreMemories.applyMat {c : Core} (h : coreMemories c) {a : MatAct} : coreMemories (applyMat c a).1 := by
  cases a <;> exact h

end Sys2Proof

/-!
PROOFS. Every event and micro-operation answers a next state and keeps the memories canonical.
-/

namespace Sys2Proof

open Sys2Proof.Machine

/-- An outcome that is a next state, with its memories canonical where they were so before. -/
def Keeps (s : State) (o : Out) : Prop := ∃ t, o = .next t ∧ (Safety.memories s → Safety.memories t)

theorem Keeps.next {s t : State} (h : Safety.memories s → Safety.memories t) : Keeps s (.next t) := ⟨t, rfl, h⟩

variable {s : State}

/-! ### Bundles presented -/

theorem Safety.memories.fetchBundle (h : memories s) {p : Nat} : memories (fetchBundle p s).2 := by
  unfold Machine.fetchBundle
  extract_lets x a now old c n r
  split
  · exact h
  · unfold r
    split
    · exact h
    · exact h.draw n

theorem bundleIssue_keeps {p : Nat} : Keeps s (execBundleIssue p s) := .next fun h => h.fetchBundle.setCur

theorem compactGroup2Issue_keeps {p : Nat} : Keeps s (execCompactGroup2Issue p s) := .next fun h => by
  split
  · exact h
  · exact h.setCur

/-! ### Performance, banks, the matrix unit -/

theorem slot2Perform_keeps {n : Nat} : Keeps s (execSlot2Perform n s) := .next fun h => by
  split
  · exact h
  · exact h.updCore.performNear.weigh

theorem tbpwrTransitionStart_keeps {p b : Nat} : Keeps s (execTbpwrTransitionStart p b s) := .next fun h =>
  Safety.memories.ite h.updPart h

theorem callEntryStart_keeps {n : Nat} : Keeps s (execCallEntryStart n s) := .next fun h => by
  split
  · exact h
  · split
    · exact h.dropCall.updCore
    · exact h.putCall
    · exact h.putCall
    · exact h.putCall.updCore

theorem aclrEntryExecute_keeps {n : Nat} : Keeps s (execAclrEntryExecute n s) := .next fun h => by
  split
  · exact h
  · split
    · refine h.dropCall.updCore fun hc => Safety.coreMemories.clearTiles ?_
      exact ⟨hc.1, hc.2⟩
    · exact h

theorem acdrnRowWrite_keeps {n : Nat} : Keeps s (execAcdrnRowWrite n s) := .next fun h => by
  split
  · exact h
  · split
    · extract_lets t nb row col rs a bs k1 u
      split
      · exact h.writeSlice.putCall
      · exact h.writeSlice.putCall.updCore
    · exact h

theorem acdrnTagSet_keeps {n : Nat} : Keeps s (execAcdrnTagSet n s) := .next fun h => by
  split
  · exact h
  · exact h.dropCall.completeTag

theorem microWaitExpiry_keeps {n : Nat} : Keeps s (execMicroWaitExpiry n s) := .next fun h => by
  split
  · exact h
  · exact h.putCall

theorem microSyncResume_keeps {n : Nat} : Keeps s (execMicroSyncResume n s) := .next fun h => by
  split
  · exact h
  · exact h.putCall

theorem accumulatorRowLanding_keeps {n : Nat} : Keeps s (execAccumulatorRowLanding n s) := .next fun h => by
  split
  · exact h
  · extract_lets r c
    have hr : Safety.coreMemories r.1 := by
      refine Safety.coreMemories.applyMat ?_
      exact h.core n
    refine Safety.memories.weigh (h.setCore ?_)
    exact hr

theorem weightBankLoadDone_keeps {n : Nat} : Keeps s (execWeightBankLoadDone n s) := .next fun h => by
  split
  · exact h
  · exact h.setCore (h.core n)

theorem mcallCompletion_keeps {n : Nat} : Keeps s (execMcallCompletion n s) := .next fun h => by
  split
  · exact h
  · exact (h.dropCall.updCore fun hc => hc.clearTiles).completeTag

/-! ### Micro-operations -/

theorem micro_keeps {f : Core → Call → State → State} (hf : ∀ c k, Safety.memories s → Safety.memories (f c k s)) :
    Keeps s (micro f s) := by
  unfold micro
  split
  · exact .next id
  · exact .next (hf _ _)

theorem microCall_keeps {f : Call → Call} : Keeps s (microCall f s) := micro_keeps fun _ _ h => h.putCall

theorem uWld_keeps {a b : Nat} {k t i : Bool} : Keeps s (execUWld a b k t i s) := micro_keeps fun _ _ h => by
  dsimp only
  split
  · exact h
  · split
    · exact h.delayCall
    · split
      · exact h.faultCall
      · exact h.loadInto

theorem uWz_keeps {b : Bool} : Keeps s (execUWz b s) := micro_keeps fun _ _ h => Safety.memories.ite h h.loadInto

/-- Landings of rows noted, of whatever rows: a closed row count would be computed. -/
theorem Safety.memories.noteLandings (h : memories s) {n k t r i d : Nat} {a : MatAct} :
    memories (s.updCore n fun c => { (c.noteRows t r i d) with matPend := c.matPend ++ [⟨d, k, a⟩] }) := h.updCore

theorem uAclr_keeps {a : Nat} : Keeps s (execUAclr a s) := micro_keeps fun _ _ h =>
  Safety.memories.ite h.faultCall h.putCall.noteLandings

theorem uDrn_keeps {a r c p : Nat} : Keeps s (execUDrn a r c p s) := micro_keeps fun _ _ h =>
  Safety.memories.ite h <| Safety.memories.ite h.faultCall <| Safety.memories.ite h.delayCall h.putRow

theorem uAst_keeps {a r c p : Nat} : Keeps s (execUAst a r c p s) := micro_keeps fun _ _ h =>
  Safety.memories.ite h <| Safety.memories.ite h.faultCall <| Safety.memories.ite h.delayCall h.putRow

theorem uAaddm_keeps {a r c p : Nat} : Keeps s (execUAaddm a r c p s) := micro_keeps fun _ _ h => by
  refine Safety.memories.ite h.faultCall <| Safety.memories.ite h.putCall ?_
  split
  · exact h.faultCall
  · exact Safety.memories.ite h.faultCall h.putCall.landRow.updCore

theorem uAadd_keeps {a r c p : Nat} : Keeps s (execUAadd a r c p s) := micro_keeps fun _ _ h =>
  Safety.memories.ite h.faultCall <| Safety.memories.ite h <| Safety.memories.ite h.faultCall h.putCall.landRow

theorem uLdec_keeps {l t : Nat} : Keeps s (execULdec l t s) := micro_keeps fun _ _ h => h.putCall
theorem uJmp_keeps {t : Nat} : Keeps s (execUJmp t s) := micro_keeps fun _ _ h => h.putCall
theorem uWait_keeps {i : Nat} : Keeps s (execUWait i s) := micro_keeps fun _ _ h => h.putCall
theorem uSync_keeps : Keeps s (execUSync s) := micro_keeps fun _ _ h => h.putCall
theorem uEnd_keeps : Keeps s (execUEnd s) := micro_keeps fun _ _ h => h.putCall.updCore

/-! ### Commands -/

theorem withCmd_keeps {p i : Nat} {f : Cmd → State → State} (hf : ∀ c, Safety.memories s → Safety.memories (f c s)) :
    Keeps s (withCmd p i f s) := .next fun h => by
  split
  · exact h
  · exact hf _ h

theorem commandStart_keeps {p c : Nat} : Keeps s (execCommandStart p c s) := withCmd_keeps fun d h => by
  extract_lets r _ e t
  have hr : Safety.memories r.2 := by
    unfold r
    split
    · exact h
    · exact h.fetched
  have ht : Safety.memories t := hr.lookPages
  clear_value r
  split
  · exact h.beginCount
  · split
    · exact h
    · split
      · exact h.faultCmd
      · split
        · exact ht
        · exact ht.beginCount

theorem commandCompletion_keeps {p c : Nat} : Keeps s (execCommandCompletion p c s) := withCmd_keeps fun d h => by
  extract_lets t u
  have ht : Safety.memories t := by
    unfold t
    split
    · exact h.writeEntry.ite h
    · exact h
  have hu : Safety.memories u := Safety.memories.ite ht.updPart ht
  exact hu.dropCmd.completeTag

theorem farAccessArrival_keeps {p c : Nat} : Keeps s (execFarAccessArrival p c s) := withCmd_keeps fun d h => by
  split
  · exact h
  · split
    · exact h.faultCmd
    · next moved t e =>
      have ht : Safety.memories t := h.cmdStep _ e
      split
      · exact ht
      · split
        · exact ht
        · extract_lets r
          have hr : Safety.memories r.2 := by
            unfold r
            split
            · exact ht
            · exact ht.choose
          split
          · exact hr.setAgenda
          · exact hr

theorem postedWriteDrain_keeps {n : Nat} : Keeps s (execPostedWriteDrain n s) := .next fun h => by
  split
  · exact h
  · exact h.drainEntry

theorem multicastRowLanding_keeps {p c : Nat} : Keeps s (execMulticastRowLanding p c s) := withCmd_keeps fun d h => by
  extract_lets a ns src r bs k land t rows
  have hr : Safety.memories r.2 := h.spend
  have hland : ∀ u n, Safety.memories u → Safety.memories (land u n) := fun _ _ hu => hu.useRows.perform.perform
  have ht : Safety.memories t := hr.useRows.foldl hland
  split
  · exact h
  · split
    · exact hr
    · exact ht.putCmd

theorem collectiveContributionLanding_keeps {p c : Nat} : Keeps s (execCollectiveContributionLanding p c s) :=
  withCmd_keeps fun d h => by
    extract_lets gs
    split
    · exact h
    · extract_lets answer r t e
      have hanswer : ∀ u, Safety.memories u → Safety.memories (answer u) := fun u hu => by
        unfold answer
        split
        · exact hu.setGathers.updFlow
        · exact hu.setGathers
      have hr : Safety.memories r.2 := h.putLocal
      have ht : Safety.memories t := Safety.memories.ite (hanswer _ hr).heldOver (hanswer _ hr)
      split
      · exact (hanswer _ h).faultCmd
      · split
        · exact h
        · exact ht.putCmd

theorem pageWalk_keeps {p c : Nat} : Keeps s (execPageWalk p c s) := .next fun h => by
  split
  · exact h
  · next w _ =>
    extract_lets k xs set r t
    have hset : ∀ f u, Safety.memories u → Safety.memories (set f u) := fun _ _ hu => hu.setWalks
    have hr : Safety.memories r.2 := h.draw _
    clear_value k
    have ht : Safety.memories t := by
      unfold t
      split
      · exact hr.updCtx fun hc => hc.charge _
      · exact hr
    exact Safety.memories.ite h <| Safety.memories.ite (hset _ _ h).heldOver (hset _ _ ht)

theorem pageWalkCompletion_keeps {p c : Nat} : Keeps s (execPageWalkCompletion p c s) := .next fun h => by
  split
  · exact h
  · split
    · exact h.setWalks.tlbFill.putCmd
    · exact h.setWalks

/-! ### Traps and kernels -/

theorem checkpointComplete_keeps {k : Nat} : Keeps s (execCheckpointComplete k s) := .next fun h => by
  have ht : Safety.memories (noteArrivals k s) := h.noteArrivals
  refine Safety.memories.ite ht <| Safety.memories.ite ?_ <| Safety.memories.ite ht <| ht.foldl fun _ _ h => h.updCore
  exact Safety.memories.ite (ht.draw 2) (ht.draw 2).closeInterval

theorem trapTake_keeps {p : Nat} : Keeps s (execTrapTake p s) := .next fun h => by
  split
  · exact h
  · exact h.takeTrap

theorem corectlHenter_keeps {n v : Nat} : Keeps s (execCorectlHenter n v s) := .next fun h =>
  Safety.memories.ite h.refuse h.wr.updPart.updCore

theorem coreResume_keeps {n : Nat} : Keeps s (execCoreResume n s) := .next fun h => by
  split
  · exact h
  · split
    · exact h.replaySnaps.goOn.updCore
    · exact ((Safety.memories.ite h.updParts h).replaySnaps.goOn.updCore).setTrpend

theorem preemption_keeps {k : Nat} : Keeps s (execPreemption k s) := .next fun h => by
  split
  · exact h
  · exact Safety.memories.ite h.choosePreempted <| Safety.memories.ite h <| Safety.memories.ite h.preemptCore <|
      Safety.memories.ite h.saveKernel h

theorem kernelResume_keeps {k : Nat} : Keeps s (execKernelResume k s) := .next fun h => by
  split
  · exact h
  · next x hx =>
    split
    · next img _ himg =>
      extract_lets t a u v
      have ht : Safety.memories t := Safety.memories.ite h.forgetCtx h
      have hv : Safety.memories v := (ht.restoreImage (h.kernel hx _ himg)).foldl fun _ _ h => h.runOn
      exact Safety.memories.ite h (hv.updKernel fun _ _ => .none rfl)
    · exact h

theorem budgetPeriodStart_keeps {k : Nat} : Keeps s (execBudgetPeriodStart k s) := .next fun h => by
  refine h.updCtx.setKernels (Cells.map_of (fun x hx => ?_) h.kernels)
  dsimp only
  split <;> exact hx

theorem qnotifyWrite_keeps {q w : Nat} : Keeps s (execQnotifyWrite q w s) := .next fun h =>
  Safety.memories.ite h.updQueue.queueError h.updQueue

theorem ctxenSet_keeps {k : Nat} : Keeps s (execCtxenSet k s) := .next fun h => by
  have ht : Safety.memories (s.restart (2 ^ k)) := h.restart
  refine Safety.memories.ite ht.setCtxen <| Safety.memories.ite ht.setCtxen.setCtxerr.raise ?_
  exact Safety.memories.ite (ht.setCtxen.updCtx.updCtx.setCtxovr) (ht.setCtxen.updCtx.updCtx)

theorem contextDeactivate_keeps {k : Nat} : Keeps s (execContextDeactivate k s) := .next fun h =>
  Safety.memories.ite h.updCtx h

theorem dispatchBegin_keeps {q : Nat} : Keeps s (execDispatchBegin q s) := .next fun h => by
  split
  · exact h.writeReport
  · refine Safety.memories.ite h.queueError ?_
    split
    · exact h.queueError
    · refine Safety.memories.ite h ?_
      split
      · exact h.queueError
      · next k hk =>
        extract_lets id t u v
        have hu : Safety.memories u := h.pwrite.updQueue
        have hv : Safety.memories v := by
          refine Safety.memories.setNextId (hu.setKernels (Cells.put_of _ ?_ hu.kernels))
          have hn : k.image = none := State.checkPacket_image hk
          exact .none hn
        exact Safety.memories.ite hv.writeReport hv

/-- A kernel changed but for its image holds the memories that it held. -/
theorem Safety.memories.kernel_of_image (h : memories s) {k : Nat} {x y : Kernel} (hx : s.kernel k = some x)
    (e : y.image = x.image) : imageMemories y := fun g hg => h.kernel hx g (e ▸ hg)

theorem kernelStart_keeps {k : Nat} : Keeps s (execKernelStart k s) := .next fun h => by
  split
  · exact h
  · next x hx =>
    refine Safety.memories.ite h.writeReport ?_
    split
    · exact h
    · exact Safety.memories.queueError (h.updQueue.setKernels (Cells.del_of _ h.kernels))
    · extract_lets y z t u v w
      have ht : Safety.memories t := h.updKernel fun _ _ => h.kernel_of_image hx rfl
      have hu : Safety.memories u := Safety.memories.ite ht.forgetCtx ht
      have hw : Safety.memories w := (hu.foldl fun _ _ h => h.updCluster).foldl fun _ _ h => h.startOne
      exact Safety.memories.ite hw.writeReport hw

theorem kernelEnd_keeps {k : Nat} : Keeps s (execKernelEnd k s) := .next fun h => by
  split
  · exact h
  · next x hx =>
    refine Safety.memories.ite h.completePacket <| Safety.memories.ite h.writeReport ?_
    refine Safety.memories.completePacket (h.freeClusters.updKernel fun _ _ => ?_)
    exact h.kernel_of_image hx rfl

theorem tlbInvalidationDone_keeps : Keeps s (execTlbInvalidationDone s) := .next fun h =>
  ⟨h.hbm, h.flash, h.mailbox, h.peers, Cells.map_of (fun _ hx => hx) h.cores, h.kernels, h.ctxs⟩

/-! ### Errors, repair, the fabric, harts, boot -/

theorem correctedError_keeps {d c : Nat} : Keeps s (execCorrectedError d c s) := .next fun h =>
  Safety.memories.ite h.updErr h

theorem unownedError_keeps {d c w a : Nat} : Keeps s (execUnownedError d c w a s) := .next fun h => by
  have ht : Safety.memories (recordError d c none a s) := h.recordError
  split
  · exact Safety.memories.ite ht <| (ht.draw _).updCluster.foldl fun _ _ h => h.clearCore
  · exact ht
  · exact ht
  · exact ht.zeroRecords
  · split
    · exact ht
    · exact ht.killFlow
  · exact ht
  · split
    · exact ht.zeroTrapReg
    · exact ht
  · exact ht

theorem uestatWrite_keeps {d v : Nat} : Keeps s (execUestatWrite d v s) := .next fun h => Safety.memories.ite h.updErr h

theorem repairComplete_keeps : Keeps s (execRepairComplete s) := .next fun h => by
  have hr : Safety.memories (applyRepair s s.repair.job) := h.applyRepair
  refine Safety.memories.ite (Safety.memories.raise ?_) h
  exact ⟨hr.hbm, h.flash, h.mailbox, hr.peers, hr.cores, hr.kernels, hr.ctxs⟩

theorem frameReceive_keeps {f : Frame} : Keeps s (execFrameReceive f s) := .next fun h =>
  Safety.memories.ite h.deliver.deliverHeld <| Safety.memories.ite h.updFlow h

theorem frameAckReceive_keeps {f n : Nat} {r : Bool} : Keeps s (execFrameAckReceive f n r s) := .next fun h => by
  split
  · exact h
  · exact h.updFlow.foldl fun _ _ h => Safety.memories.ite h.refuseFrame h.acked

theorem frameResend_keeps {f : Nat} : Keeps s (execFrameResend f s) := .next fun h => by
  split
  · exact h
  · exact Safety.memories.ite h.killFlow <| h.foldl fun _ _ h => h.resend

theorem pcfgWrite_keeps {w p v : Nat} : Keeps s (execPcfgWrite w p v s) := .next fun h => by
  split <;> exact h

theorem portRetrain_keeps {p : Nat} : Keeps s (execPortRetrain p s) := .next fun h => by
  split <;> exact h

theorem ridarFlitFailure_keeps : Keeps s (execRidarFlitFailure s) := .next fun h =>
  h.recordError.recordError.foldl fun _ _ h => h.loseContext

theorem mgmtRequest_keeps {p a v : Nat} {b w : Bool} : Keeps s (execMgmtRequest p b w a v s) := .next fun h => by
  split
  · exact h
  · split <;> exact h

theorem msemAcquire_keeps {w k l : Nat} : Keeps s (execMsemAcquire w k l s) := .next fun h =>
  Safety.memories.ite h.putSem h.putSem

theorem msemRelease_keeps {w k : Nat} : Keeps s (execMsemRelease w k s) := .next fun h => Safety.memories.ite h.putSem h

theorem leaseExpiry_keeps {k : Nat} : Keeps s (execLeaseExpiry k s) := .next fun h =>
  Safety.memories.ite (Safety.memories.raise h.putSem) h

theorem mailboxDo_keeps {w : Nat} {f : Amvin → Amvin} (hf : Safety.memories s → (f s.amvin).flash.wf)
    (hm : Safety.memories s → (f s.amvin).mailbox.wf) : Keeps s (mailboxDo w f s) := .next fun h =>
  Safety.memories.ite (h.updAmvin (hf h) (hm h)).raise h

theorem mailboxDo_flash_keeps {w a : Nat} {l : Amvin → List W8} :
    Keeps s (mailboxDo w (fun m => { m with flash := m.flash.writeBytes a (l m) }) s) :=
  mailboxDo_keeps (fun h => Mem.writeBytes_wf _ _ _ h.flash) fun h => h.mailbox

theorem mailboxDo_mailbox_keeps {w a : Nat} {l : Amvin → List W8} :
    Keeps s (mailboxDo w (fun m => { m with mailbox := m.mailbox.writeBytes a (l m) }) s) :=
  mailboxDo_keeps (fun h => h.flash) fun h => Mem.writeBytes_wf _ _ _ h.mailbox

theorem mailboxWriteFlashBlock_keeps {w b : Nat} : Keeps s (execMailboxWriteFlashBlock w b s) := mailboxDo_flash_keeps
theorem mailboxReadFlashBlock_keeps {w b : Nat} : Keeps s (execMailboxReadFlashBlock w b s) := mailboxDo_mailbox_keeps
theorem mailboxReadMeasurement_keeps {w i : Nat} : Keeps s (execMailboxReadMeasurement w i s) := mailboxDo_mailbox_keeps

theorem mailboxAdvanceCounter_keeps {w : Nat} : Keeps s (execMailboxAdvanceCounter w s) :=
  mailboxDo_keeps (fun h => h.flash) fun h => h.mailbox

theorem thermalAlarmBegin_keeps : Keeps s (execThermalAlarmBegin s) := .next fun h => by
  refine Safety.memories.raise ?_
  exact h

theorem powerOnBoot_keeps : Keeps s (execPowerOnBoot s) := .next fun h => by
  have hc : Safety.memories s.cleared := h.cleared
  refine Safety.memories.ite (hc.setAmvin h.flash Mem.zero_wf) <|
    Safety.memories.ite (hc.setAmvin h.flash Mem.zero_wf) <| Safety.memories.ite (hc.setAmvin h.flash Mem.zero_wf) ?_
  refine Safety.memories.replaceRows (Safety.memories.foldl ?_ fun _ _ h => h.applyRepair)
  exact hc.setAmvin h.flash Mem.zero_wf

theorem getMeasurements_keeps {p : Nat} : Keeps s (execGetMeasurements p s) := .next fun h => by
  split <;> exact h

theorem supplyTrip_keeps : Keeps s (execSupplyTrip s) := .next fun h => h.foldl fun _ _ h => h.loseContext

theorem governorClock_keeps : Keeps s (execGovernorClock s) := .next fun h =>
  h.setCores (Cells.map_of (fun _ hx => hx) (Cells.map_of (fun _ hx => hx) h.cores))

theorem glimitWrite_keeps {w c v : Nat} : Keeps s (execGlimitWrite w c v s) := .next fun h => Safety.memories.ite h h.updCluster

theorem irouteWrite_keeps {i v : Nat} : Keeps s (execIrouteWrite i v s) := .next fun h => by
  refine Safety.memories.ite (Safety.memories.raise ?_) ?_
  · exact h
  · exact h

theorem hartMemoryAccess_keeps {i : Nat} {a : HartAccess} : Keeps s (execHartMemoryAccess i a s) := .next fun h => by
  have ht : ∀ x, Safety.memories { s with hartGate := x } := fun _ => h
  exact Safety.memories.ite h <| Safety.memories.ite (ht _).hartAccess (ht _).putOff

theorem registerWrite_keeps {w a v : Nat} : Keeps s (execRegisterWrite w a v s) := .next fun h => by
  split
  · exact h
  · exact h.regWrite

theorem storageDmaAccess_keeps {w : Bool} {a v : Nat} : Keeps s (execStorageDmaAccess w a v s) := .next fun h =>
  Safety.memories.ite h.directWrite h

end Sys2Proof

/-!
PROOFS. Every instruction, and so every step that the agenda may name, answers a next state and keeps the memories canonical.
-/

namespace Sys2Proof

open Sys2Proof.Machine

variable {s : State}

/-! ### Sequence and system instructions -/

theorem lpop_keeps : Keeps s (execLpop s) := .next fun h => Safety.memories.ite h.notCovered.mark h.notCovered.updMe

theorem pfork_keeps {m i : Nat} : Keeps s (execPfork m i s) := .next fun h => h.check.foldl fun _ _ h => h.updPart

theorem semwait_keeps {k n : Nat} : Keeps s (execSemwait k n s) := .next fun h => Safety.memories.ite h.updMyCore h.waitIf

theorem barw_keeps {c u : Nat} : Keeps s (execBarw c u s) := .next fun h =>
  Safety.memories.ite h.check.updMe.setBarUnit.startRelease h.check.updMe.setBarUnit

theorem crget_keeps {d n : Nat} : Keeps s (execCrget d n s) := .next fun h =>
  Safety.memories.ite h.pushRecorded <| Safety.memories.ite h.pushRecorded <| Safety.memories.ite h.pushRecorded h.pushS

theorem eret_keeps : Keeps s (execEret s) := .next fun h => by
  split
  · exact Safety.memories.ite h.waitIf.updCur h.mark
  · exact h.mark

/-! ### Tables, tiles and matrix entries -/

theorem vcbn_keeps {d a b t : Nat} {k : Bool} : Keeps s (execVcbn d a b k t s) := .next fun h =>
  Safety.memories.pushElems (Safety.memories.ite h.readV.mark h.readV)

theorem vacrd_keeps {d t b f : Nat} {m : Bool} : Keeps s (execVacrd d t b m f s) := .next fun h =>
  Safety.memories.pushElems (Safety.memories.ite h.readS.setFreeCtr h.readS)

/-- The view of the accumulators set, to whatever value: one named by a literal set of tiles would be computed. -/
theorem Safety.memories.setAccView (h : memories s) {f : Core → Cells AccTag} :
    memories (s.updMyCore fun c => { c with accView := f c }) := h.updMyCore

theorem mcall_keeps {p a b r : Nat} : Keeps s (execMcall p a b r s) := .next fun h => by
  split
  · exact h.mark
  · exact h.waitIf.enqueue.setAccView

/-- TAKE while its context replays or records: the entry of its sequence number, or the ring's next place. -/
theorem take_keeps {p a b q : Nat} : Keeps s (execTake p a b q s) := by
  unfold execTake
  extract_lets x w t
  refine .next fun h => ?_
  have ht : Safety.memories t := h.noTx.readWords.check
  split
  · exact ht.issueCmd
  · next k _ =>
    extract_lets r r'
    have hr : Safety.memories r.2 := ht.nextSeq
    split
    · split
      · exact hr.mark
      · exact Safety.memories.ite hr.issueCmd hr.mark
    · refine Safety.memories.ite (Safety.memories.ite ht.waitIf ?_) ht.issueCmd
      exact (ht.nextSeq.takePlace).issueCmd

/-! ### Every step of the agenda -/

theorem exec_keeps (i : Instr) (s : State) : Keeps s (exec i s) := by
  cases i with
  | bundleIssue => exact bundleIssue_keeps
  | compactGroup2Issue => exact compactGroup2Issue_keeps
  | resultLanding | tableLoadLanding => exact .next fun h => h.landNext
  | slot2Perform => exact slot2Perform_keeps
  | tbpwrTransitionStart => exact tbpwrTransitionStart_keeps
  | tbpwrTransitionEnd | barrierRelease => exact .next fun h => h.updPart
  | callEntryStart => exact callEntryStart_keeps
  | aclrEntryExecute => exact aclrEntryExecute_keeps
  | acdrnRowWrite => exact acdrnRowWrite_keeps
  | acdrnTagSet => exact acdrnTagSet_keeps
  | microWaitExpiry => exact microWaitExpiry_keeps
  | microSyncResume => exact microSyncResume_keeps
  | accumulatorRowLanding => exact accumulatorRowLanding_keeps
  | weightBankLoadDone => exact weightBankLoadDone_keeps
  | mcallCompletion => exact mcallCompletion_keeps
  | commandStart => exact commandStart_keeps
  | commandCompletion => exact commandCompletion_keeps
  | farAccessArrival => exact farAccessArrival_keeps
  | postedWriteDrain => exact postedWriteDrain_keeps
  | multicastRowLanding => exact multicastRowLanding_keeps
  | collectiveContributionLanding => exact collectiveContributionLanding_keeps
  | checkpointComplete => exact checkpointComplete_keeps
  | trapTake => exact trapTake_keeps
  | lockstepCoreStop => exact .next fun h => h.stopCore
  | corectlResume => exact .next fun h => Safety.memories.ite h.scheduleResume h.refuse
  | corectlHenter => exact corectlHenter_keeps
  | coreResume => exact coreResume_keeps
  | preemption => exact preemption_keeps
  | kernelResume => exact kernelResume_keeps
  | priorityAging => exact .next fun h => h.updKernel fun x hx => by split <;> exact hx
  | budgetPeriodStart => exact budgetPeriodStart_keeps
  | qnotifyWrite => exact qnotifyWrite_keeps
  | ctxenSet => exact ctxenSet_keeps
  | ctxenClear | ctxstWrite | tlbinvWrite | hartRegisterAccessFault | thermalAlarmEnd => exact .next fun h => h
  | contextDeactivate => exact contextDeactivate_keeps
  | ctxseedWrite | ckstWrite => exact .next fun h => h.updCtx
  | dispatchBegin => exact dispatchBegin_keeps
  | kernelStart => exact kernelStart_keeps
  | kernelEnd => exact kernelEnd_keeps
  | tlbInvalidationDone => exact tlbInvalidationDone_keeps
  | pageWalk => exact pageWalk_keeps
  | correctedError => exact correctedError_keeps
  | scrubRow | nop => exact .next fun h => h
  | uncorrectableError => exact .next fun h => h.recordError.loseContext
  | unownedError => exact unownedError_keeps
  | clusterClearDone => exact .next fun h => h.updCluster
  | uestatWrite => exact uestatWrite_keeps
  | retireCore | retireRow | retireCluster => exact .next fun h => h.settleRepair
  | repairComplete => exact repairComplete_keeps
  | frameReceive => exact frameReceive_keeps
  | frameAckReceive => exact frameAckReceive_keeps
  | frameResend => exact frameResend_keeps
  | pcfgWrite => exact pcfgWrite_keeps
  | portRetrain => exact portRetrain_keeps
  | ridarFlitFailure => exact ridarFlitFailure_keeps
  | mgmtRequest => exact mgmtRequest_keeps
  | msemAcquire => exact msemAcquire_keeps
  | msemRelease => exact msemRelease_keeps
  | leaseExpiry => exact leaseExpiry_keeps
  | mailboxWriteFlashBlock => exact mailboxWriteFlashBlock_keeps
  | mailboxReadFlashBlock => exact mailboxReadFlashBlock_keeps
  | mailboxReadMeasurement => exact mailboxReadMeasurement_keeps
  | mailboxAdvanceCounter => exact mailboxAdvanceCounter_keeps
  | powerOnBoot => exact powerOnBoot_keeps
  | getMeasurements => exact getMeasurements_keeps
  | deviceReset => exact .next fun h => h.keepMemories h.cleared
  | thermalAlarmBegin => exact thermalAlarmBegin_keeps
  | supplyTrip => exact supplyTrip_keeps
  | governorClock => exact governorClock_keeps
  | glimitWrite => exact glimitWrite_keeps
  | irouteWrite => exact irouteWrite_keeps
  | hartMemoryAccess => exact hartMemoryAccess_keeps
  | registerWrite => exact registerWrite_keeps
  | pageWalkCompletion => exact pageWalkCompletion_keeps
  | storageDmaAccess => exact storageDmaAccess_keeps
  | uUnop | uWsw | uAdv | uAdvs | uMovp | uIdxl | uIdxa | uMems | uMema | uLset => exact microCall_keeps
  | uWld => exact uWld_keeps
  | uWz => exact uWz_keeps
  | uStrm | uStrmz => exact micro_keeps fun _ _ h => h.strmRow
  | uAclr => exact uAclr_keeps
  | uDrn => exact uDrn_keeps
  | uAst => exact uAst_keeps
  | uAaddm => exact uAaddm_keeps
  | uAadd => exact uAadd_keeps
  | uLdec => exact uLdec_keeps
  | uJmp => exact uJmp_keeps
  | uWait => exact uWait_keeps
  | uSync => exact uSync_keeps
  | uEnd => exact uEnd_keeps
  | add | addQ | sub | subQ | and | andQ | or | orQ | xor | xorQ | andn | andnQ | shl | shlQ | shr | shrQ | sra | sraQ
  | min | minQ | max | maxQ | minu | minuQ | maxu | maxuQ | mul | mulQ | mulh | mulhQ | mulhu | mulhuQ
  | fmin | fminQ | fmax | fmaxQ | sel | selQ | addx | addxQ | subx | subxQ => exact .next fun h => h.readS.readS.pushS
  | addss | addssQ | subss | subssQ => exact .next fun h => h.readS.readS.pushS
  | mov | movQ | addi | addiQ | fabs | fabsQ | fneg | fnegQ | clz | clzQ | ctz | ctzQ | popc | popcQ
  | shli | shliQ | shri | shriQ | srai | sraiQ => exact .next fun h => h.readS.pushS
  | fadd | faddQ | fsub | fsubQ | fmul | fmulQ | fdiv | fdivQ => exact .next fun h => h.readS.readS.pushS
  | fsqrt | fsqrtQ => exact .next fun h => h.readS.pushS
  | feq | feqQ | flt | fltQ | fle | fleQ | funord | funordQ | ceq | ceqQ | cne | cneQ | clt | cltQ | cle | cleQ
  | cltu | cltuQ | cleu | cleuQ => exact .next fun h => h.readS.readS.writeP
  | ceqi | ceqiQ | cnei | cneiQ | clti | cltiQ | cltui | cltuiQ => exact .next fun h => h.readS.writeP
  | cvtif | cvtifQ | cvtuf | cvtufQ | cvtwf | cvtwfQ | cvtfi | cvtfiQ | cvtfu | cvtfuQ | cvtfw | cvtfwQ
  | cvtfwu | cvtfwuQ => exact .next fun h => h.readS.pushS
  | lui | luiQ | qcnt | qcntV | qcntVn | mcnt | mpget => exact .next fun h => h.pushS
  | pand | pandQ | por | porQ | pxor | pxorQ | pandn | pandnQ | pnot | pnotQ | pset | psetQ | pclr | pclrQ =>
    exact .next fun h => h.writeP
  | brt | brf | jump => exact .next fun h => h.notCovered.branchIf
  | call | callt | callf => exact .next fun h => h.callIf
  | jr => exact .next fun h => h.notCovered.readS.transfer
  | jrl => exact .next fun h => h.notCovered.readS.transfer.pushS
  | brsw | brswt | brswf => exact .next fun h => h.switchIf
  | loop => exact .next fun h => h.openLoop
  | loopQ => exact .next fun h => h.readS.openLoop
  | lpop => exact lpop_keeps
  | lcnt => exact .next fun h => h.notCovered.pushS
  | lclr | pblk => exact .next fun h => h.notCovered.updMe
  | qclr | qclrV | qclrVn => exact .next fun h => h.clearQueue
  | pfork => exact pfork_keeps
  | pjoin => exact .next fun h => h.check.postSema.updCur
  | sempost => exact .next fun h => h.postSema
  | semwait => exact semwait_keeps
  | barw => exact barw_keeps
  | rdcyc | rdfrz | rdid | rdpix => exact .next fun h => h.pushRecorded
  | crget => exact crget_keeps
  | crset => exact .next fun h => h.readS.check.emit
  | ifence => exact .next fun h => h.updMe.updCur
  | trap => exact .next fun h => h.updCur
  | eret => exact eret_keeps
  | halt => exact .next fun h => h.notCovered.updCur
  | vadd | vsub | vmul | vmin | vmax | vadds | vsubs | vmulhi | vfmin | vfmax | vand | vor | vxor | vandn
  | vshl | vshr | vsra | vlmul | vldiv | vladd | vlsub => exact .next fun h => h.readV.readV.pushElems
  | vaddi | vshli | vsrai => exact .next fun h => h.readV.pushElems
  | vfadd | vfsub | vfmul => exact .next fun h => h.readV.readV.pushElems
  | vfabs | vfneg | vnot | vlsqrt | vlneg | vlabs | vmov => exact .next fun h => h.readV.pushElems
  | vsplati => exact .next fun h => h.pushElems
  | vfma => exact .next fun h => h.readV.readV.readV.pushElems
  | vcmp => exact .next fun h => h.readV.readV.writeM
  | mand | mor | mxor | mandn | mnot | mset | mclr => exact .next fun h => h.writeM
  | vperm | vpermt | vsel => exact .next fun h => h.readV.readV.pushElems
  | vred | vcvt | vqnt => exact .next fun h => h.readV.pushElems
  | vmaxe => exact .next fun h => h.readV.emit
  | vcvtsr => exact .next fun h => h.readV.readS.pushElems
  | vcbx => exact .next fun h => h.readV.checkIndices.pushV
  | vcbn => exact vcbn_keeps
  | vrng => exact .next fun h => h.readS.check.pushElems
  | vtwr | vtwrCvt => exact .next fun h => h.readV.readS.needTile.emit
  | vtrd | vtrdCvt | vtcr | vtcrCvt => exact .next fun h => h.readS.needTile.pushElems
  | vct8 => exact .next fun h => h.readV.needTile.pushElems
  | vacrd => exact vacrd_keeps
  | vsplat => exact .next fun h => h.readS.pushElems
  | vext => exact .next fun h => h.readV.readS.pushS
  | lds => exact .next fun h => h.readS.nearCheck.nearIssue.pushS
  | sts => exact .next fun h => h.readS.readS.nearCheck.nearIssue
  | ldv => exact .next fun h => h.readS.nearCheck.nearIssue.pushV
  | stv => exact .next fun h => h.readV.readS.nearCheck.nearIssue
  | ldt => exact .next fun h => h.readS.needTile.nearCheck.nearIssue.emit
  | stt => exact .next fun h => h.readS.needTile.nearCheck.nearIssue
  | natom | ncas => exact .next fun h => h.readS.readS.nearCheck.nearIssue.pushS
  | mcall => exact mcall_keeps
  | mpset | mpadd | pcwset | pcwmem | scld | gsset | tclr => exact .next fun h => h.readS.emit
  | scldi | cbsel => exact .next fun h => h.emit
  | wswap => exact .next fun h => h.enqueue
  | aclr | aclrAll => exact .next fun h => h.enqueue.setAccView
  | acdrn => exact .next fun h => h.readWords.check.enqueue
  | fld | fst | fatom => exact .next fun h => h.issueFar
  | copy | gath | scat | mcst | cgath | spawn | join | ovld => exact .next fun h => h.issueWords
  | twany | twall => exact .next fun h => h.readS.waitIf
  | tfind => exact .next fun h => h.readS.pushS
  | drn => exact .next fun h => h.issueCmd
  | txb | txa => exact .next fun h => h.check.issueCmd.updMe
  | txc => exact .next fun h => h.check.readWords.check.issueCmd
  | take => exact take_keeps
  | ckpt => exact .next fun h => h.noTx.issueCmd.updMe
  | cbld | cwtld | mpsld | gtld | latld => exact .next fun h => h.issueTable

end Sys2Proof

/-!
PROOFS. The phases of a clock only list steps: no bundle is begun by them, and the memories stay canonical.
-/

namespace Sys2Proof

open Sys2Proof.Machine

/-- What a planner does to the state: the bundle in progress is the same, and the memories stay canonical. -/
structure Quiet (s t : State) : Prop where
  cur : t.cur = s.cur
  memories : Safety.memories s → Safety.memories t

variable {s t u : State}

theorem Quiet.refl (s : State) : Quiet s s := ⟨rfl, id⟩

theorem Quiet.trans (h : Quiet s t) (g : Quiet t u) : Quiet s u := ⟨g.cur.trans h.cur, fun m => g.memories (h.memories m)⟩

theorem Quiet.ite {c : Prop} [Decidable c] (h : Quiet s t) (g : Quiet s u) : Quiet s (if c then t else u) := by
  split
  · exact h
  · exact g

theorem Quiet.foldl {α : Type} {f : State → α → State} (l : List α) (hf : ∀ t x, Quiet t (f t x)) : Quiet s (l.foldl f s) :=
  List.foldlRecOn l f (.refl s) fun t ht x _ => ht.trans (hf t x)

/-- A fold that carries a value beside the state, such as the steps listed so far. -/
theorem Quiet.foldlSnd {α β : Type} {f : β × State → α → β × State} {a : β × State} (l : List α)
    (hf : ∀ b x, Quiet b.2 (f b x).2) : Quiet a.2 (l.foldl f a).2 :=
  List.foldlRecOn (motive := fun b => Quiet a.2 b.2) l f (.refl a.2) fun b hb x _ => hb.trans (hf b x)

theorem planAll_quiet {f : State → Nat → Plan} {ns : List Nat} (hf : ∀ t n, Quiet t (f t n).2) : Quiet s (planAll f ns s).2 :=
  Quiet.foldlSnd (a := ([], s)) ns fun b n => hf b.2 n

/-! ### Choices and notes that planners make -/

theorem draw_quiet (n : Nat) : Quiet s (s.draw n).2 := ⟨rfl, fun h => h.draw n⟩

theorem choose_quiet {c : Cmd} {g n : Nat} : Quiet s (c.choose g n s).2 := by
  refine ⟨?_, fun h => h.choose⟩
  unfold Cmd.choose
  split <;> rfl

theorem noteGate_quiet {c : Cmd} : Quiet s (noteGate s c) := by
  refine ⟨?_, fun h => h.noteGate⟩
  unfold noteGate
  split <;> rfl

theorem noteCodec_quiet {n : Nat} {k : Call} {i : Instr} : Quiet s (noteCodec n k i s) := by
  refine ⟨?_, fun h => h.noteCodec⟩
  unfold noteCodec
  split
  · split <;> rfl
  · rfl

theorem drainOne_quiet {c : Cmd} : Quiet s (drainOne c s) := by
  unfold drainOne
  dsimp only
  refine .ite (.refl s) ?_
  split
  · exact .ite ⟨rfl, fun h => h.putCmd⟩ (.refl s)
  · exact .ite (.refl s) ⟨rfl, fun h => h.putCmd⟩

theorem reserveRow_quiet {c : Cmd} : Quiet s (reserveRow c s) := by
  refine .trans (t := s.updCore c.core _) ⟨rfl, fun h => ?_⟩ (.foldl _ fun _ _ => ⟨rfl, fun h => h.updCore⟩)
  exact h.updCore

/-! ### The planners -/

theorem planClock_quiet : Quiet s (planClock s).2 := ⟨rfl, fun h => h.setParts⟩

theorem planInput_quiet {late : Bool} : Quiet s (planInput late s).2 := by
  unfold planInput
  split
  · exact .refl s
  · exact ⟨rfl, fun h => h.setInbox⟩

/-- The running call of a core as its next micro-operation or row leaves it. -/
theorem planMicro_quiet {n : Nat} : Quiet s (planMicro s n).2 := by
  unfold planMicro
  extract_lets c
  split
  · exact .refl s
  · extract_lets now word t
    split
    · exact .refl s
    · split
      · clear_value word
        have ht : Quiet s t := by
          have hn : Quiet s (noteSlice n s) := ⟨rfl, fun h => h.noteSlice⟩
          unfold t
          split
          · exact hn.trans noteCodec_quiet
          · exact hn
        clear_value t
        split
        · exact ht.trans ⟨rfl, fun h => h.putCall⟩
        · split
          · exact .refl s
          · split
            · exact ht.trans ⟨rfl, fun h => h.putCall⟩
            · exact ⟨rfl, fun h => h.faultCall⟩
      · split
        · exact ⟨rfl, fun h => h.putCall⟩
        · exact .refl s
      · exact .refl s
      · exact .refl s

theorem planAccess_quiet {takes : Bool} {p : Nat} {c : Cmd} : Quiet s (planAccess takes p s c).2 := by
  unfold planAccess
  split
  · exact .refl s
  · split
    · exact .refl s
    · split
      · exact .refl s
      · dsimp only
        split
        · exact .refl s
        · exact choose_quiet

theorem planLandings_quiet {p : Nat} {c : Cmd} : Quiet s (planLandings p s c).2 := by
  unfold planLandings
  split
  · exact .refl s
  · extract_lets here left d r
    have hd : Quiet s d.2 := draw_quiet _
    clear_value d
    unfold r
    split
    · exact .refl s
    · exact hd

theorem planFar_quiet {p : Nat} : Quiet s (planFar s p).2 := by
  unfold planFar
  refine Quiet.foldlSnd (a := ([], s)) _ fun b c => ?_
  dsimp only
  split
  · exact planAccess_quiet.trans planLandings_quiet
  · exact .refl b.2

theorem planTakes_quiet {p : Nat} : Quiet s (planTakes s p).2 :=
  Quiet.foldlSnd (a := ([], s)) _ fun _ _ => planAccess_quiet

theorem goesNow_quiet {n : Nat} {x : Posted} : Quiet s (goesNow n s x).2 := by
  unfold goesNow
  split
  · exact .refl s
  · split
    · exact .refl s
    · exact .refl s
    · exact choose_quiet

theorem markDrains_quiet {n : Nat} : Quiet s (markDrains s n) := by
  unfold markDrains
  extract_lets ps r
  have hr : Quiet s r.2 := Quiet.foldlSnd (a := ([], s)) _ fun _ _ => goesNow_quiet
  exact .ite (.refl s) (hr.trans ⟨rfl, fun h => h.updCluster⟩)

theorem planFarAll_quiet : Quiet s (planFarAll s).2 := by
  unfold planFarAll
  extract_lets t
  have hd : Quiet s (s.clusterList.foldl markDrains s) := .foldl _ fun _ _ => markDrains_quiet
  have ht : Quiet s t := hd.trans (.foldl _ fun u p => .foldl _ fun _ _ => reserveRow_quiet)
  exact ht.trans (planAll_quiet fun _ _ => planFar_quiet)

theorem gates_quiet {p : Nat} : Quiet s (s.gates p) := .foldl _ fun _ _ => noteGate_quiet

theorem planGates_quiet : Quiet s (planGates s).2 := .foldl _ fun _ _ => gates_quiet

theorem planCovers_quiet : Quiet s (planCovers s).2 :=
  .foldl _ fun t p => by
    refine .trans (t := if t.awake (p / 4) then t.drains p else t) (.ite ?_ (.refl t)) gates_quiet
    exact .foldl _ fun _ _ => drainOne_quiet

theorem planSettle_quiet {ps : List Nat} {f : State → Nat → Plan} (hf : ∀ t n, Quiet t (f t n).2) :
    Quiet s (planSettle s ps f).2 :=
  .trans (t := s.settle) ⟨rfl, fun h => h.settle⟩ (planAll_quiet hf)

theorem setAim_quiet {i : Nat} {k : Kernel} {aim : Option Nat} {f : Core → Core}
    (hf : ∀ c, Safety.coreMemories c → Safety.coreMemories (f c)) : Quiet s (setAim i k aim f s) :=
  .trans (t := s.updKernel i _) ⟨rfl, fun h => h.updKernel⟩ (.foldl _ fun _ _ => ⟨rfl, fun h => h.updCore (hf _)⟩)

theorem aimStops_quiet {x : Nat × Kernel} : Quiet s (aimStops s x) := by
  unfold aimStops
  dsimp only
  refine .ite (.refl s) <| .ite (setAim_quiet fun _ h => h) <| .ite (setAim_quiet fun _ h => h) <|
    .ite (setAim_quiet fun _ h => h) (setAim_quiet fun _ h => h)

theorem planBegin_quiet : Quiet s (planBegin s).2 := planAll_quiet fun _ _ => draw_quiet 2

theorem trapPlan_quiet {n : Nat} {ts : List (Nat × TrapInfo)} : Quiet s (trapPlan n ts s).2 :=
  .foldl _ fun _ _ => ⟨rfl, fun h => h.updPart⟩

/-- Of the presentations that a core tries, only the count of free choices stays. -/
theorem planCore_quiet {run : Instr → State → Out} {n : Nat} : Quiet s (planCore run s n).2 := by
  unfold planCore
  split
  · exact .refl s
  · split
    · exact .refl s
    · split
      · exact trapPlan_quiet
      · extract_lets c k k2 ps a
        split
        · exact .refl s
        · refine .trans (t := { s with freeCtr := a.2.freeCtr }) ⟨rfl, fun h => h.setFreeCtr⟩ ?_
          exact trapPlan_quiet

theorem Safety.coreMemories.tickOn {c : Core} (h : coreMemories c) {b : Bool} : coreMemories (c.tickOn b) := by
  unfold Core.tickOn
  dsimp only
  split
  · exact h
  · split <;> exact h

theorem tickOn_quiet : Quiet s s.tickOn :=
  ⟨rfl, fun h => ⟨h.hbm, h.flash, h.mailbox, h.peers, Cells.map_of (fun _ hc => hc.tickOn) h.cores, h.kernels, h.ctxs⟩⟩

/-! ### Every phase -/

theorem phasePlan_quiet {ph : Nat} : Quiet s (phasePlan ph s).2 := by
  unfold phasePlan
  split
  · exact planClock_quiet
  · exact .refl s
  · exact planInput_quiet
  · exact .refl s
  · exact planAll_quiet fun t _ => .refl t
  · exact planAll_quiet fun t _ => .refl t
  · exact planAll_quiet fun t _ => .refl t
  · exact planAll_quiet fun _ _ => planMicro_quiet
  · exact planFarAll_quiet
  · exact planAll_quiet fun _ _ => planTakes_quiet
  · exact planGates_quiet
  · exact ⟨rfl, fun h => h.answer⟩
  · exact .refl s
  · exact planAll_quiet fun t _ => .refl t
  · exact planAll_quiet fun t _ => .refl t
  · exact .refl s
  · exact planCovers_quiet
  · exact .refl s
  · exact planAll_quiet fun t _ => .refl t
  · exact planAll_quiet fun t _ => .refl t
  · exact .refl s
  · exact .foldl _ fun _ _ => aimStops_quiet
  · exact planCovers_quiet
  · exact planAll_quiet fun t _ => .refl t
  · exact planAll_quiet fun t _ => .refl t
  · exact planAll_quiet fun _ _ => planMicro_quiet
  · exact planSettle_quiet fun t _ => .refl t
  · exact .refl s
  · exact planBegin_quiet
  · exact .refl s
  · exact .refl s
  · exact .refl s
  · exact .refl s
  · exact planInput_quiet
  · exact tickOn_quiet

theorem nextPhase_quiet {run : Instr → State → Out} : Quiet s (nextPhase run s) := by
  unfold nextPhase
  split
  · split
    · exact ⟨rfl, fun h => h⟩
    · exact planCore_quiet.trans ⟨rfl, fun h => h⟩
  · exact phasePlan_quiet.trans ⟨rfl, fun h => h⟩

end Sys2Proof

/-!
PROOFS. Every step of the machine answers a next state, leaves no bundle in progress and keeps the memories canonical.
-/

namespace Sys2Proof

open Sys2Proof.Machine

variable {s t : State} {run : Instr → State → Out}

/-! ### The words of a bundle run -/

theorem Keeps.trans {o : Out} (h : Safety.memories s → Safety.memories t) (g : Keeps t o) : Keeps s o := by
  obtain ⟨u, e, hu⟩ := g
  exact ⟨u, e, fun m => hu (h m)⟩

theorem runSlots_keeps (hrun : ∀ i t, Keeps t (run i t)) (ws : List (RawSlot × Instr)) (s : State) : Keeps s (runSlots run ws s) := by
  induction ws generalizing s with
  | nil => exact .next id
  | cons w ws ih =>
    unfold runSlots
    split
    · exact ih s
    · obtain ⟨t, e, ht⟩ := hrun w.2 (s.updCur fun c => { c with slot := w.1.slot, mod := w.1.mod })
      rw [e]
      exact .trans (fun h => ht h.updCur) (ih t)

theorem runStaged_keeps (hrun : ∀ i t, Keeps t (run i t)) (s : State) : Keeps s (runStaged run s) := by
  unfold runStaged
  extract_lets rs fails ok ws t
  have ht : Safety.memories s → Safety.memories t := fun h => h.updCur
  split
  · exact .next ht
  · exact .trans ht (runSlots_keeps hrun _ t)

/-! ### The end of a presentation -/

theorem Safety.memories.putBack (h : memories s) : memories (putBack s t) := h

theorem Safety.memories.commitBundle (h : memories t) : memories (commitBundle s t) := by
  unfold Machine.commitBundle
  extract_lets c u v w x y
  have hw : memories w := h.updPart.updCore.weigh
  have hx : memories x := by
    unfold x
    split
    · exact hw.updPart
    · exact hw
  clear_value x
  exact .ite (Safety.memories.eretCommit hx.setCur) hx.setCur

theorem Safety.memories.finishIssue (h : memories s) (ht : memories t) : memories (finishIssue s t) := by
  unfold Machine.finishIssue
  split
  · exact h.putBack.takeTrap
  · exact .ite h.putBack ht.commitBundle

theorem commitBundle_cur : (commitBundle s t).cur = Cursor.empty := by
  unfold commitBundle
  dsimp only
  split
  · rw [eretCommit_cur]
  · rfl

theorem finishIssue_cur : (finishIssue s t).cur = Cursor.empty := by
  unfold finishIssue
  split
  · rw [takeTrap_cur]
    rfl
  · split
    · rfl
    · exact commitBundle_cur

/-! ### Steps -/

/-- An outcome that is a next state with no bundle in progress, and its memories canonical where those of s were. -/
def Completes (s : State) (o : Out) : Prop :=
  ∃ t, o = .next t ∧ Safety.idle t ∧ (Safety.memories s → Safety.memories t)

theorem issueSlots_completes (hrun : ∀ i t, Keeps t (run i t)) (s : State) : Completes s (issueSlots run s) := by
  obtain ⟨u, e, hu⟩ := runStaged_keeps hrun s
  unfold issueSlots
  rw [e]
  exact ⟨_, rfl, finishIssue_cur, fun h => h.finishIssue (hu h)⟩

theorem runTurn_completes (hrun : ∀ i t, Keeps t (run i t)) (a : Turn) (s : State) : Completes s (runTurn run a s) := by
  obtain ⟨u, e, hu⟩ := hrun a.op { s with cur := { Cursor.empty with core := a.core } }
  unfold runTurn afterTurn
  rw [e]
  dsimp only
  split
  · obtain ⟨v, ev, hv, hm⟩ := issueSlots_completes hrun u
    exact ⟨v, ev, hv, fun h => hm (hu h.setCur)⟩
  · exact ⟨_, rfl, rfl, fun h => (hu h.setCur).setCur⟩

/-- A step with an agenda runs its first turn; one without lists the next phase. -/
theorem step_next (s : State) :
    ∃ t, step s = .next t ∧ (Safety.idle s → Safety.idle t) ∧ (Safety.memories s → Safety.memories t) := by
  unfold step
  split
  · exact ⟨_, rfl, fun h => nextPhase_quiet.cur.trans h, nextPhase_quiet.memories⟩
  · next a rest _ =>
    obtain ⟨t, e, ht, hm⟩ := runTurn_completes exec_keeps a { s with agenda := rest }
    exact ⟨t, e, fun _ => ht, fun h => hm h.setAgenda⟩

/-- Settles O58: each arm of exec answers a next state, and the words of a presented bundle run in turn; a turn ends with the
cursor empty, and a phase that lists steps leaves it as it was. -/
theorem everyStepAnswersWithNoBundleInProgress : Obligations.EveryStepAnswersWithNoBundleInProgress := by
  unfold Obligations.EveryStepAnswersWithNoBundleInProgress
  refine ⟨fun i s => ?_, fun s => ?_⟩
  · obtain ⟨t, e, -⟩ := exec_keeps i s
    exact ⟨t, e⟩
  · obtain ⟨t, e, hidle, -⟩ := step_next s
    exact ⟨t, e, hidle⟩

/-- Settles O59: every write of a memory keeps it canonical, and every function of the model changes memories by such writes only. -/
theorem everyStepKeepsTheMemoriesCanonical : Obligations.EveryStepKeepsTheMemoriesCanonical := by
  unfold Obligations.EveryStepKeepsTheMemoriesCanonical
  intro s t h e
  obtain ⟨u, eu, -, hu⟩ := step_next s
  rw [e] at eu
  exact Host.Outcome.next.inj eu ▸ hu h

end Sys2Proof

end

section
/-!
PROOFS. The programmer's state (O14, O26, O28, O29, O48, O50, O51, O60): what reset leaves, how results land, barriers and bank power,
boot and the governor, the codebooks, what refuses a bundle, and how a bundle commits or traps.
-/

/- Elaborated in turn, as the file before. -/
set_option Elab.async false

/-!
PROOFS. What device reset leaves (O60): every list of cells is empty there, so each number reads as its type's initial value.
-/

namespace Sys2Proof

open Sys2Proof.Machine Sys2Proof.Says

theorem State.reset_part (p : Nat) : State.reset.part p = Part.initial (p % 4) := rfl
theorem State.reset_core (n : Nat) : State.reset.core n = Core.initial := rfl

theorem reset_memories : Safety.memories State.reset :=
  ⟨Mem.zero_wf, Mem.zero_wf, Mem.zero_wf, List.forall_mem_nil _, List.forall_mem_nil _, List.forall_mem_nil _, List.forall_mem_nil _⟩

/-- A scale table with nothing written reads 0x7F00 in each of its words (R60). -/
theorem initial_sctab (g : Nat) : sctabOf Core.initial g = 0x7F007F007F007F00 := by
  simp [sctabOf, Core.initial, Cells.get, List.range_succ]

/-- An accumulator with nothing written reads the zero cell (R60). -/
theorem initial_accCell (t r j : Nat) : Core.initial.accCell t r j = ⟨0, false⟩ := by
  unfold Core.accCell
  rw [show Core.initial.accRow t r = List.replicate 256 AccCell.zero from rfl, List.getD_replicate _ (Nat.mod_lt j (by decide))]
  rfl

/-- Settles O60: nothing is listed after reset, so partitions, cores, contexts, clusters and semaphores read as they start. -/
theorem resetValues : Obligations.ResetValues := by
  unfold Obligations.ResetValues
  refine ⟨rfl, reset_memories, fun p => ?_, fun n => ?_, fun _ => rfl, rfl, rfl, rfl, rfl, fun _ => ⟨rfl, rfl, rfl⟩, fun _ => rfl⟩
  · rw [State.reset_part]
    exact ⟨rfl, rfl, rfl, rfl, rfl, rfl, rfl, rfl, rfl, fun _ => ⟨rfl, rfl⟩, fun _ => ⟨rfl, rfl⟩, rfl, rfl, rfl⟩
  · rw [State.reset_core]
    exact ⟨rfl, rfl, rfl, rfl, rfl, rfl, fun _ => rfl, fun g _ => initial_sctab g, rfl, rfl, initial_accCell⟩

end Sys2Proof

/-!
PROOFS. Codebooks and the generator (O14): packed elements under a mask, the first index out of range, and the searched entries.
-/

namespace Sys2Proof

open Sys2Proof.Machine Sys2Proof.Says

/-! ### Entries that hold masked elements (R101, R158) -/

theorem lane_eq (s : State) (k : Nat) : s.lane k = laneOn s k := by
  unfold State.lane laneOn
  cases s.cur.mod.headed && bit s.cur.mod.ext 5 <;> rfl

theorem enabled_eq (s : State) (b : Nat) : s.enabled b = enabled s b := funext fun i => lane_eq s (b * i / 8)

theorem width_le {s : State} (h : wide s) : s.cur.mod.width ≤ 1024 := by
  rcases h with h | h | h <;> rw [h] <;> decide

/-- Results that are packed hold what the list of them says. -/
theorem holds_pack {pass : Nat → Bool} {b n : Nat} {f : Nat → Res} {rs : List Res} (hb : b * n ≤ 1024) (hn : rs.length = n)
    (hr : ∀ i, i < n → rs[i]? = some (if pass i then f i else ⟨0, 0⟩))
    (hf : orFlags rs = ((List.range n).filter pass).foldl (fun a i => a ||| (f i).flags) 0) :
    holds pass b n f (pack b (rs.map Res.pat)) (orFlags rs) := by
  have hl : (rs.map Res.pat).length = n := by rw [List.length_map, hn]
  refine ⟨fun i hi => ?_, ?_, hf⟩
  · obtain ⟨hi', e⟩ := List.getElem?_eq_some_iff.1 (hr i hi)
    rw [elem_pack (hl.symm ▸ hi) (hl.symm ▸ hb), List.getElem_map, e]
    split <;> simp
  · have h := pack_lt (b := b) (xs := rs.map Res.pat) (hl.symm ▸ hb)
    rwa [hl] at h

theorem holds_mapElems {s : State} {be b n : Nat} {f : Nat → Res} (hb : b * n ≤ 1024) :
    holds (enabled s be) b n f (pack b ((mapElems s be n f).map Res.pat)) (orFlags (mapElems s be n f)) := by
  refine holds_pack hb (mapElems_length ..) (fun i hi => ?_) ?_
  · rw [mapElems_get _ _ _ _ _ hi, enabled_eq]
  · rw [mapElems_flags, enabled_eq]

/-- A list of results with none left out. -/
theorem holds_all {b n : Nat} {f : Nat → Res} (hb : b * n ≤ 1024) :
    holds (fun _ => true) b n f (pack b (((List.range n).map f).map Res.pat)) (orFlags ((List.range n).map f)) := by
  refine holds_pack hb (by simp) (fun i hi => by simp [hi]) ?_
  unfold orFlags
  rw [List.foldl_map, List.filter_true]

theorem mul_div_le_width {s : State} (h : wide s) {b e : Nat} (hb : b ≤ e) : b * (s.cur.mod.width / e) ≤ 1024 :=
  (Nat.mul_le_mul_right _ hb).trans ((Nat.mul_div_le _ _).trans (width_le h))

/-! ### Expansion (R44, R176) -/

theorem idxBits_eq (t : Nat) : idxBits t = indexBits t := by
  unfold idxBits indexBits
  match t with
  | 0 | 1 | 2 | _ + 3 => simp

/-- The entry that an index reads stands in the active half, or in the whole bank (R43). -/
theorem cbEntryNo_eq (whole act : Bool) (i : Nat) : cbEntryNo whole act i = (if whole || !act then 0 else 2048) + i := by
  cases whole <;> cases act <;> simp [cbEntryNo, b2n]

/-- The indices that VCBX reads. -/
def vcbxIndices (s : State) (bk t : Nat) (x : V1024) : List Nat :=
  let g := s.myCore.cbcfgOf bk
  (List.range (min (s.width / (cbElen g * etypeBits (cbEtype g))) (s.width / indexBits t))).map fun i => elem (indexBits t) i x

/-- The entries that they name, packed. -/
def vcbxEntries (s : State) (bk t : Nat) (x : V1024) : Nat :=
  let g := s.myCore.cbcfgOf bk
  packNat (cbElen g * etypeBits (cbEtype g))
    ((vcbxIndices s bk t x).map fun i => s.myCore.cbEntry bk (cbEntryNo (cbWhole g) (cbAct g) i))

theorem vcbx_next {s u : State} {a : Nat} {k : Bool} {x : V1024} (h : readV a k s = (x, u)) (d bk t : Nat) :
    execVcbx d a bk k t s = .next (pushV d 2 0 (BitVec.ofNat 1024 (maskBytes s (s.width / 8) (vcbxEntries s bk t x)))
      (checkIndices bk (cbValid (s.myCore.cbcfgOf bk)) (vcbxIndices s bk t x) u)) := by
  unfold execVcbx
  dsimp only
  rw [h, idxBits_eq]
  rfl

theorem readV_vsource {s u : State} {a : Nat} {k : Bool} {x : V1024} (h : vsource s a k x u) : readV a k s = (x, u) := by
  obtain ⟨hx, rfl⟩ := h
  exact readV_entry hx

theorem readS_source {s u : State} {a : Nat} {k : Bool} {x : W64} (h : source s a k x u) : readS a k s = (x, u) := by
  obtain ⟨hx, rfl⟩ := h
  exact readS_entry hx

theorem checkIndices_valid {k v : Nat} {xs : List Nat} {s : State} (h : ∀ x ∈ xs, x < v) : checkIndices k v xs s = s := by
  have e : xs.find? (fun x => decide (v ≤ x)) = none :=
    List.find?_eq_none.2 fun x hx => by simpa using h x hx
  unfold checkIndices
  rw [e]

/-- Bytes masked and packed: an enabled lane's byte is the value's, the others are 0. -/
theorem maskBytes_elem {s : State} {n i : Nat} (hn : 8 * n ≤ 1024) (hi : i < n) {v : Nat} (hv : v < 2 ^ 1024) :
    elem 8 i (BitVec.ofNat 1024 (maskBytes s n v)) = if laneOn s i then elem 8 i (BitVec.ofNat 1024 v) else 0 := by
  unfold maskBytes
  refine (elem_pack (by simpa using hi) (by simpa using hn)).trans ?_
  rw [List.getElem_map, List.getElem_range, lane_eq]
  split
  · unfold elem
    rw [BitVec.toNat_ofNat, Nat.mod_eq_of_lt hv]
    exact Nat.mod_mod _ _
  · rfl

theorem vcbxIndices_length (s : State) (bk t : Nat) (x : V1024) : let g := s.myCore.cbcfgOf bk
    (vcbxIndices s bk t x).length = min (s.width / (cbElen g * etypeBits (cbEtype g))) (s.width / indexBits t) := by
  simp [vcbxIndices]

/-- VCBX, where every index that it reads is below the valid count. -/
theorem codebookExpansion_holds : codebookExpansion := by
  intro s d a bk k t x u hs hx g e n hv
  have hlen : (vcbxIndices s bk t x).length = n := vcbxIndices_length ..
  have hfit : e * (vcbxIndices s bk t x).length ≤ 1024 := by
    rw [hlen]
    exact (Nat.mul_le_mul_left _ (Nat.min_le_left ..)).trans (mul_div_le_width hs (Nat.le_refl e))
  have hbytes : 8 * (s.width / 8) ≤ 1024 := mul_div_le_width hs (Nat.le_refl 8)
  have hlt : vcbxEntries s bk t x < 2 ^ 1024 := by
    refine (packNat_lt ..).trans_le (Nat.pow_le_pow_right Nat.two_pos ?_)
    rwa [List.length_map]
  refine ⟨BitVec.ofNat 1024 (vcbxEntries s bk t x), BitVec.ofNat 1024 (maskBytes s (s.width / 8) (vcbxEntries s bk t x)),
    fun i hi => ?_, fun i hi => maskBytes_elem hbytes hi hlt, ?_, ?_⟩
  · rw [← cbEntryNo_eq]
    refine (elem_pack (by rwa [List.length_map, hlen]) (by rwa [List.length_map])).trans ?_
    rw [List.getElem_map]
    simp only [vcbxIndices, List.getElem_map, List.getElem_range]
    rfl
  · have h := pack_lt (b := 8) (xs := (List.range (s.width / 8)).map fun i =>
      if s.lane i then vcbxEntries s bk t x / 2 ^ (8 * i) % 256 else 0) (by simpa using hbytes)
    refine h.trans_le (Nat.pow_le_pow_right Nat.two_pos ?_)
    simpa [State.width] using Nat.mul_div_le s.cur.mod.width 8
  · refine (vcbx_next (readV_vsource hx) d bk t).trans ?_
    rw [checkIndices_valid]
    · rfl
    · intro y hy
      obtain ⟨i, hi, rfl⟩ := List.mem_map.1 hy
      exact hv i (List.mem_range.1 hi)

/-- The first of the indices that is out of range is the one that is marked (R44). -/
theorem checkIndices_first {k v i n : Nat} {f : Nat → Nat} (hi : i < n) (hb : ∀ j, j < i → f j < v) (h : v ≤ f i) (s : State) :
    checkIndices k v ((List.range n).map f) s = s.markIndex k (f i) := by
  have e : ((List.range n).map f).find? (fun x => decide (v ≤ x)) = some (f i) := by
    refine List.find?_eq_some_iff_getElem.2 ⟨by simpa using h, i, by simpa using hi, by simp, fun j hj => ?_⟩
    simpa using hb j hj
  unfold checkIndices
  rw [e]

theorem vsource_marks {s u : State} {a : Nat} {k : Bool} {x : V1024} (h : vsource s a k x u) :
    u.cur.marks = s.cur.marks ∧ u.cur.slot = s.cur.slot := by
  obtain ⟨-, rfl⟩ := h
  cases k <;> exact ⟨rfl, rfl⟩

theorem codebookIndexOutOfRange_holds : codebookIndexOutOfRange := by
  intro s d a bk k t x u i hx g e hi hb h
  obtain ⟨hm, hs⟩ := vsource_marks hx
  have first : checkIndices bk (cbValid (s.myCore.cbcfgOf bk)) (vcbxIndices s bk t x) u = u.markIndex bk (elem (indexBits t) i x) :=
    checkIndices_first hi hb h u
  refine ⟨_, vcbx_next (readV_vsource hx) d bk t, ?_⟩
  rw [first, ← hm, ← hs]
  rfl

/-! ### The search and the generator (R177, R178) -/

/-- What VCBN finds for an element: its nearest entry, or the invalid flag. -/
def vcbnFound (cs : List (Nat × Machine.Num)) (y : Machine.Num) : Res :=
  match (if y.isNan then none else nearest y cs) with
  | none => ⟨0, fIV⟩
  | some j => plain j

/-- The entries that VCBN searches, each with its number. -/
def vcbnCandidates (s : State) (bk t : Nat) : List (Nat × Machine.Num) :=
  let g := s.myCore.cbcfgOf bk
  ((List.range (min (cbValid g) (2 ^ indexBits t))).map fun i =>
    (i, searchNum (cbEtype g) (s.myCore.cbEntry bk (cbEntryNo (cbWhole g) (cbAct g) i) % 2 ^ etypeBits (cbEtype g)))).filter
      fun c => !c.2.isNan

theorem vcbnFound_eq (cs : List (Nat × Machine.Num)) (y : Machine.Num) :
    (if y.isNan then ⟨0, fIV⟩ else match nearest y cs with
      | none => ⟨0, fIV⟩
      | some j => ⟨j, 0⟩) = vcbnFound cs y := by
  unfold vcbnFound
  cases y.isNan <;> rfl

theorem vcbn_next {s u : State} {a : Nat} {k : Bool} {x : V1024} (h : readV a k s = (x, u)) (d bk t : Nat) :
    let g := s.myCore.cbcfgOf bk
    let b := etypeBits (cbEtype g)
    0 < cbValid g → execVcbn d a bk k t s = .next (pushElems d 4 (indexBits t)
      (mapElems s b (s.width / max b (indexBits t)) fun i =>
        vcbnFound (vcbnCandidates s bk t) (searchNum (cbEtype g) (elem b i x))) u) := by
  intro g b hv
  unfold execVcbn
  dsimp only
  rw [h, idxBits_eq, if_neg (Nat.ne_of_gt hv)]
  refine congrArg (fun l => Host.Outcome.next (pushElems d 4 (indexBits t) l u)) (List.map_congr_left fun i _ => ?_)
  exact ite_congr rfl (fun _ => vcbnFound_eq ..) fun _ => rfl

theorem vrng_next {s u : State} {a : Nat} {k : Bool} {x : W64} (h : readS a k s = (x, u)) (d f : Nat)
    (hm : x.toNat / 2 ^ 48 ≠ 0xFFFF) :
    execVrng d a k f s = .next (pushElems d 4 (if f = 2 then 16 else 32) ((List.range (s.width / if f = 2 then 16 else 32)).map fun i =>
      let w := keyedMix s.myCore.kseed.toNat s.me.gstrm.toNat (x.toNat / 2 ^ 48) ((x.toNat + i) % 2 ^ 48)
      if f = 0 then plain w else if f = 1 then plain (uniBinary32 w) else gauss s.myCore.gaussT w) u) := by
  have hc : (x.toNat / 2 ^ 48 != roundMember) = true := bne_iff_ne.2 hm
  unfold execVrng
  dsimp only
  rw [h, hc]
  rfl

theorem codebookSearchAndGenerator_holds : codebookSearchAndGenerator := by
  refine ⟨fun s d a bk k t x u hs hx hv => ?_, fun s d a k f x u _ hs hx hm => ?_⟩
  · exact ⟨_, _, holds_mapElems (mul_div_le_width hs (Nat.le_max_right ..)), vcbn_next (readV_vsource hx) d bk t hv⟩
  · exact ⟨_, _, holds_all (mul_div_le_width hs (Nat.le_refl _)), vrng_next (readS_source hx) d f hm⟩

/-- Settles O14: the packed entries hold what each index, element or draw gives. -/
theorem codebooksAndGenerator : Obligations.CodebooksAndGenerator :=
  ⟨codebookExpansion_holds, codebookIndexOutOfRange_holds, codebookSearchAndGenerator_holds⟩

end Sys2Proof

/-!
PROOFS. Landings (O28): the next landing of a core is the first of R28 among the due ones, and each kind of result updates its
partition, its core, or both.
-/

namespace Sys2Proof

open Sys2Proof.Machine Sys2Proof.Says

/-! ### Which result lands next (R28) -/

theorem before_iff (x y : Landing) : x.before y = true ↔ earlier x y := by
  simp [Landing.before, earlier]

theorem isTable_iff (a : LandAct) : isTable a = true ↔ ofTable a := by
  cases a <;> simp [isTable, ofTable]

theorem isTable_beq (a : LandAct) (b : Bool) : (isTable a == b) = true ↔ (ofTable a ↔ b = true) := by
  rw [beq_iff_eq, Bool.eq_iff_iff, isTable_iff]

theorem earlier_irrefl (l : Landing) : ¬ earlier l l := by simp [earlier]

section

variable {s : State} {n : Nat} {tbl : Bool} {a b : List Landing} {l : Landing} (h : nextLanding s n tbl a l b)

include h

theorem dueLanding_next : (s.core n).dueLanding tbl = some l := by
  obtain ⟨hp, hdue, hkind, ha, hb⟩ := h
  have hl : (decide (l.due ≤ (s.core n).tick) && isTable l.act == tbl) = true :=
    Bool.and_eq_true_iff.2 ⟨decide_eq_true hdue, (isTable_beq ..).2 hkind⟩
  rw [Core.dueLanding, hp, List.filter_append, List.filter_cons_of_pos (by exact hl)]
  refine firstLanding_of (fun m hm => ?_) fun m hm => ?_
  · obtain ⟨hm, hc⟩ := List.mem_filter.1 hm
    obtain ⟨hd, hk⟩ := Bool.and_eq_true_iff.1 hc
    exact (before_iff ..).2 (ha m hm (of_decide_eq_true hd) ((isTable_beq ..).1 hk))
  · obtain ⟨hm, hc⟩ := List.mem_filter.1 hm
    obtain ⟨hd, hk⟩ := Bool.and_eq_true_iff.1 hc
    exact Bool.eq_false_iff.2 fun e => hb m hm (of_decide_eq_true hd) ((isTable_beq ..).1 hk) ((before_iff ..).1 e)

theorem pend_erase_next : (s.core n).pend.erase l = a ++ b := by
  obtain ⟨hp, hdue, hkind, ha, -⟩ := h
  have hl : l ∉ a := fun hm => earlier_irrefl l (ha l hm hdue hkind)
  rw [hp, List.erase_append_right _ hl, List.erase_cons_head]

/-- The next result leaves the core's list, then acts, then raises its flags. -/
theorem landNext_next : landNext n tbl s =
    landFlags l.gpi l.flags (landAct n l.gpi l.act (s.updCore n fun c => { c with pend := a ++ b })) := by
  unfold landNext
  rw [dueLanding_next h]
  dsimp only [land]
  rw [State.updCore, pend_erase_next h]
  rfl

/-- A result that does g to its partition and f to its core lands so. -/
theorem landNext_both {g : Part → Part} {f : Core → Core} (e : ∀ t, landAct n l.gpi l.act t = (t.updCore n f).updPart l.gpi g) :
    landNext n tbl s = landed s n (a ++ b) l g f := by
  rw [landNext_next h, e, landFlags, State.updPart_updPart, State.updCore_updCore]
  rfl

theorem landNext_part {g : Part → Part} (e : ∀ t, landAct n l.gpi l.act t = t.updPart l.gpi g) :
    landNext n tbl s = landed s n (a ++ b) l g id := by
  rw [landNext_next h, e, landFlags, State.updPart_updPart]
  rfl

theorem landNext_core {f : Core → Core} (e : ∀ t, landAct n l.gpi l.act t = t.updCore n f) :
    landNext n tbl s = landed s n (a ++ b) l id f := by
  rw [landNext_next h, e, landFlags, State.updCore_updCore]
  rfl

end

/-! ### What each kind of register write does (R61) -/

/-- A control-register write is a write of its partition and one of its core, of which one changes nothing. -/
theorem landAct_creg (n p c en : Nat) (v : W64) (s : State) :
    landAct n p (.creg c en v) s = (s.updCore n (writeCoreReg c en v)).updPart p (writePartReg c en v) := rfl

theorem writeCoreReg_low {c en : Nat} {v : W64} (h : c < 0x18) : writeCoreReg c en v = id := by
  funext x
  unfold writeCoreReg
  rw [if_neg (by omega), if_neg (by omega)]
  rfl

theorem writePartReg_high {c en : Nat} {v : W64} (h : 4 < c) : writePartReg c en v = id := by
  funext x
  unfold writePartReg
  rw [if_neg (by omega), if_neg (by omega), if_neg (by omega), if_neg (by omega), if_neg (by omega)]
  rfl

theorem joinBytes_testBit (l : List W8) (i : Nat) : (joinBytes l).testBit i = (l.getD (i / 8) 0).getLsbD (i % 8) := by
  induction l generalizing i with
  | nil => simp [joinBytes]
  | cons b r ih =>
    have hb : b.toNat < 2 ^ 8 := b.isLt
    rw [joinBytes, Nat.add_comm, show (256 : Nat) = 2 ^ 8 from rfl, Nat.testBit_two_pow_mul_add _ hb]
    split
    · rename_i h
      rw [Nat.div_eq_of_lt h, Nat.mod_eq_of_lt h]
      rfl
    · rename_i h
      rw [ih, show i / 8 = (i - 8) / 8 + 1 by omega, show i % 8 = (i - 8) % 8 by omega, List.getD_cons_succ]

/-- A write replaces the bytes that its enables name and keeps the others. -/
theorem mergeBytes_bit (en : Nat) (old v : W64) (i : Nat) (h : i < 64) :
    (mergeBytes en old v).getLsbD i = if bit en (i / 8) then v.getLsbD i else old.getLsbD i := by
  have hi : i / 8 < 8 := by omega
  have hm : i % 8 < 8 := by omega
  unfold mergeBytes
  rw [BitVec.getLsbD_ofNat, decide_eq_true h, Bool.true_and, joinBytes_testBit]
  simp only [List.getD_eq_getElem?_getD, List.getElem?_map, List.getElem?_range hi, Option.map_some, Option.getD_some,
    BitVec.getLsbD_ofNat, decide_eq_true hm, Bool.true_and, fld, Nat.testBit_mod_two_pow, Nat.testBit_div_two_pow,
    show i % 8 + 8 * (i / 8) = i by omega]
  split <;> rfl

/-- A write of all eight bytes replaces the register. -/
theorem mergeBytes_all (old v : W64) : mergeBytes 0xFF old v = v := by
  refine BitVec.eq_of_getLsbD_eq fun i h => ?_
  have hb : ∀ k < 8, bit 0xFF k = true := by decide
  rw [mergeBytes_bit _ _ _ _ h, if_pos (hb _ (by omega))]

/-- A write of bytes 6 and 7 keeps the 48 bits below them. -/
theorem mergeBytes_top (old v : W64) :
    mergeBytes 0xC0 old v = old &&& 0x0000FFFFFFFFFFFF ||| v &&& 0xFFFF000000000000 := by
  have low : (0x0000FFFFFFFFFFFF : W64) = BitVec.ofNat 64 (2 ^ 48 - 1) := by decide
  have top : (0xFFFF000000000000 : W64) = ~~~(BitVec.ofNat 64 (2 ^ 48 - 1)) := by decide
  have hb : ∀ k < 8, bit 0xC0 k = decide (6 ≤ k) := by decide
  refine BitVec.eq_of_getLsbD_eq fun i h => ?_
  rw [mergeBytes_bit _ _ _ _ h, hb _ (by omega), low, top]
  simp only [BitVec.getLsbD_or, BitVec.getLsbD_and, BitVec.getLsbD_not, BitVec.getLsbD_ofNat, Nat.testBit_two_pow_sub_one, h,
    decide_true, Bool.true_and, decide_eq_true_eq]
  by_cases h6 : i < 48
  · simp [h6, show ¬ 6 ≤ i / 8 by omega]
  · simp [h6, show 6 ≤ i / 8 by omega]

theorem writePartReg_pcw (en : Nat) (v : W64) : writePartReg 0x02 en v = fun x => { x with pcw := mergeBytes en x.pcw v } := rfl

/-- A write of a bank's field of TBPWR is the request of R34 and R36. -/
theorem TBank.request_eq (b : TBank) (f : Nat) : b.request f = requested b f := by
  have hq : reqOf b.req f = if f = 0 then BankState.off else if f = 1 then .retention else if f = 2 then .on else b.req := by
    unfold reqOf
    split
    · rfl
    · rfl
    · rfl
    · rename_i h0 h1 h2
      rw [if_neg h0, if_neg h1, if_neg h2]
  unfold TBank.request requested
  simp only [hq]
  by_cases e : b.state = b.target
  · rw [if_neg (not_not.2 e), if_pos e, bne, beq_eq_decide, decide_not]
  · rw [if_pos e, if_neg e]

theorem writePartReg_tbpwr (en : Nat) (v : W64) : writePartReg 0x04 en v = fun x => { x with
    banks := [0, 1, 2, 3].foldl (fun bs k =>
      Cells.put k (requested (Cells.get TBank.idle k bs) (fld v.toNat (2 * k) 2)) bs) x.banks } := by
  simp only [← TBank.request_eq]
  rfl

theorem writeCoreReg_cbcfg {k : Nat} (en : Nat) (v : W64) (h : k < 8) : writeCoreReg (0x18 + k) en v = fun c => { c with
    cbcfg := Cells.put k (BitVec.ofNat 64 (cbcfgWrite (Cells.get 0 k c.cbcfg).toNat v.toNat)) c.cbcfg } := by
  funext c
  unfold writeCoreReg
  rw [if_pos (by omega), Nat.add_sub_cancel_left]
  rfl

theorem writeCoreReg_sctab {g : Nat} (en : Nat) (v : W64) (h : g < 4) : writeCoreReg (0x20 + g) en v = fun c => { c with
    sctab := [0, 1, 2, 3].foldl (fun t j =>
      if bit en (2 * j) then Cells.put (4 * g + j) (BitVec.ofNat 16 (fld v.toNat (16 * j) 16)) t else t) c.sctab } := by
  funext c
  unfold writeCoreReg
  rw [if_neg (by omega), if_pos (by omega), Nat.add_sub_cancel_left]
  rfl

/-- A register of a partition leaves the core as it is. -/
theorem landAct_partReg {c : Nat} (en : Nat) (v : W64) (n p : Nat) (h : c < 0x18) (s : State) :
    landAct n p (.creg c en v) s = (s.updCore n id).updPart p (writePartReg c en v) := by
  rw [landAct_creg, writeCoreReg_low h]

/-- A register of a core leaves the partition as it is. -/
theorem landAct_coreReg {c : Nat} (en : Nat) (v : W64) (n p : Nat) (h : 4 < c) (s : State) :
    landAct n p (.creg c en v) s = (s.updCore n (writeCoreReg c en v)).updPart p id := by
  rw [landAct_creg, writePartReg_high h]

/-! ### The results of slots (R26) -/

theorem resultLandings_hold : resultLandings := by
  intro s n a l b h
  have part : ∀ g, (∀ t, landAct n l.gpi l.act t = t.updPart l.gpi g) →
      exec (.resultLanding n) s = .next (landed s n (a ++ b) l g id) := fun g e => congrArg _ (landNext_part h e)
  have core : ∀ f, (∀ t, landAct n l.gpi l.act t = t.updCore n f) →
      exec (.resultLanding n) s = .next (landed s n (a ++ b) l id f) := fun f e => congrArg _ (landNext_core h e)
  have both : ∀ g f, (∀ t, landAct n l.gpi l.act t = (t.updCore n f).updPart l.gpi g) →
      exec (.resultLanding n) s = .next (landed s n (a ++ b) l g f) := fun g f e => congrArg _ (landNext_both h e)
  refine ⟨fun q v e => part _ fun t => by rw [e]; rfl, fun q v e => part _ fun t => by rw [e]; rfl,
    fun t r en v e => part _ fun t => by rw [e]; rfl, fun k e => part _ fun t => by rw [e]; rfl,
    fun k e => part _ fun t => by rw [e]; rfl, fun k v e => part _ fun t => by rw [e]; rfl,
    fun k v e => part _ fun t => by rw [e]; rfl, fun m e => part _ fun t => by rw [e]; rfl,
    fun k m e => core _ fun t => by rw [e]; rfl, fun k e => core _ fun t => by rw [e]; rfl,
    fun en v e => both _ _ fun t => ?flags, fun en v e => both _ _ fun t => ?slatch, fun v e => both _ _ fun t => ?pcw,
    fun v e => both _ _ fun t => ?pcwTop, fun en v e => both _ _ fun t => ?gstrm, fun en v e => both _ _ fun t => ?tbpwr,
    fun k en v hk e => both _ _ fun t => ?cbcfg, fun g en v hg e => both _ _ fun t => ?sctab⟩ <;> rw [e]
  case flags => rw [landAct_partReg _ _ _ _ (by decide)]; rfl
  case slatch => rw [landAct_partReg _ _ _ _ (by decide)]; rfl
  case pcw =>
    rw [landAct_partReg _ _ _ _ (by decide), writePartReg_pcw]
    simp only [mergeBytes_all]
  case pcwTop =>
    rw [landAct_partReg _ _ _ _ (by decide), writePartReg_pcw]
    simp only [mergeBytes_top]
  case gstrm => rw [landAct_partReg _ _ _ _ (by decide)]; rfl
  case tbpwr => rw [landAct_partReg _ _ _ _ (by decide), writePartReg_tbpwr]
  case cbcfg => rw [landAct_coreReg _ _ _ _ (by omega), writeCoreReg_cbcfg _ _ hk]
  case sctab => rw [landAct_coreReg _ _ _ _ (by omega), writeCoreReg_sctab _ _ hg]

/-! ### Table loads (R265) -/

/-- A table load writes its table; its command leaves, and sets its tag where it is the latest to produce it (R239). -/
theorem landAct_table (n p t k f g id : Nat) (rows : List Nat) (s : State) :
    landAct n p (.table t k f rows g id) s = (s.updCore n (writeTable t k f rows)).updPart p fun x =>
      let m := if Cells.get 0 g x.owners = id then BitVec.ofNat 64 (2 ^ g) else 0
      { x with cmds := x.cmds.filter fun c => c.id != id, tags := x.tags ||| m, setNow := x.setNow ||| m } := by
  rw [landAct, completeTag, dropCmd, State.updPart_updPart]
  congr 1
  funext x
  by_cases e : Cells.get 0 g x.owners = id <;> simp [e]

theorem tableLandings_hold : tableLandings := by
  intro s n a l b t k f rows g id h e
  have lands := landNext_both h fun u => by rw [e]; exact landAct_table n l.gpi t k f g id rows u
  exact ⟨fun e => by subst e; exact congrArg _ lands, fun e => by subst e; exact congrArg _ lands,
    fun e => by subst e; exact congrArg _ lands, fun e => by subst e; exact congrArg _ lands, fun e => by subst e; exact congrArg _ lands⟩

/-- Settles O28: what lands next is the first of R28, and what it does is what its kind of result does. -/
theorem landingsOfResultsAndTables : Obligations.LandingsOfResultsAndTables := ⟨resultLandings_hold, tableLandings_hold⟩

end Sys2Proof

/-!
PROOFS. Barriers and bank power (O29): what a unit reads after it is set, what a release under way does to each participant, and
the two ends of a bank's transition.
-/

namespace Sys2Proof

open Sys2Proof.Machine Sys2Proof.Says

/-! ### Barrier units (R313) -/

theorem cluster_updCluster (s : State) (c d : Nat) (f : Cluster → Cluster) :
    (s.updCluster c f).cluster d = if d = c then f (s.cluster c) else s.cluster d := by
  unfold State.updCluster State.cluster
  rw [Cells.get_put]

theorem kernel_updKernel (s : State) (k : Nat) (f : Kernel → Kernel) : (s.updKernel k f).kernel k = (s.kernel k).map f := by
  unfold State.updKernel State.kernel
  rw [List.find?_map, Option.map_map, Option.map_map]
  have key : ((fun x : Nat × Kernel => x.1 == k) ∘ fun x => if x.1 = k then (x.1, f x.2) else x) = fun x => x.1 == k := by
    funext x
    dsimp only [Function.comp]
    split <;> rfl
  rw [key]
  cases e : s.kernels.find? fun x => x.1 == k with
  | none => rfl
  | some x =>
    have hx : x.1 = k := by simpa using List.find?_some e
    simp [hx]

/-- Setting a unit changes clusters and kernels alone. -/
theorem setBarUnit_frame (n c u : Nat) (b : BarUnit) (s : State) : s.setBarUnit n c u b =
    { s with clusters := (s.setBarUnit n c u b).clusters, kernels := (s.setBarUnit n c u b).kernels } := by
  unfold State.setBarUnit
  split
  · rfl
  · split <;> rfl

/-- A unit that exists reads as it was set: at cluster scope every unit does, elsewhere those of the core's kernel. -/
theorem barUnit_setBarUnit {n c u : Nat} {b : BarUnit} {s : State} (h : s.barUnit n c u ≠ BarUnit.empty) :
    (s.setBarUnit n c u b).barUnit n c u = b := by
  unfold State.setBarUnit State.barUnit
  unfold State.barUnit at h
  by_cases hc : c = 0
  · simp only [hc, if_true, cluster_updCluster]
    exact Cells.get_put_self ..
  · simp only [hc, if_false] at h ⊢
    cases hk : (s.core n).kernel with
    | none => simp [hk] at h
    | some k =>
      cases hx : s.kernel k with
      | none => simp [hk, hx] at h
      | some x =>
        have hcore : ∀ f, ((s.updKernel k f).core n).kernel = some k := fun _ => hk
        simp [hcore, kernel_updKernel, hx]

/-- A unit is held in clusters and kernels, found through the core's kernel. -/
theorem barUnit_congr {s t : State} (hc : t.cores = s.cores) (hl : t.clusters = s.clusters) (hk : t.kernels = s.kernels) (n c u : Nat) :
    t.barUnit n c u = s.barUnit n c u := by
  unfold State.barUnit State.cluster State.core State.kernel
  rw [hc, hl, hk]

/-! ### A release under way (R315) -/

/-- What a release that takes d clocks does to a participant's wait. -/
def Machine.BarWait.releasing (scope unit d : Nat) (w : BarWait) : BarWait :=
  if w.scope = scope ∧ w.unit = unit then { w with left := some d } else w

/-- A release changes partitions and counts free choices; nothing else. -/
theorem startRelease_frame (c u : Nat) (lock : Bool) (ps : List Nat) (s : State) :
    startRelease c u lock ps s =
      { s with parts := (startRelease c u lock ps s).parts, freeCtr := (startRelease c u lock ps s).freeCtr } := by
  unfold startRelease
  induction ps generalizing s with
  | nil => rfl
  | cons p ps ih =>
    rw [List.foldl_cons, ih]
    split <;> rfl

theorem releasing_idem (c u d : Nat) (w : BarWait) : (w.releasing c u d).releasing c u d = w.releasing c u d := by
  unfold Machine.BarWait.releasing
  split <;> simp [*]

/-- At cluster scope the release is 8 clocks away for each participant that waits at the unit, and no other wait changes. -/
theorem startRelease_barw (u : Nat) (lock : Bool) (ps : List Nat) (s : State) (q : Nat) :
    ((startRelease 0 u lock ps s).part q).barw =
      if q ∈ ps then (s.part q).barw.map (Machine.BarWait.releasing 0 u 8) else (s.part q).barw := by
  unfold startRelease
  induction ps generalizing s with
  | nil => rfl
  | cons p ps ih =>
    rw [List.foldl_cons, ih]
    simp only [decide_true, Bool.true_or, if_true, State.part_updPart, List.mem_cons, releaseBound, Nat.add_zero,
      Bool.and_eq_true, decide_eq_true_eq]
    by_cases h : q = p
    · subst h
      simp only [if_true, true_or]
      cases (s.part q).barw with
      | none => simp
      | some w =>
        show (if q ∈ ps then some ((w.releasing 0 u 8).releasing 0 u 8) else some (w.releasing 0 u 8)) = some (w.releasing 0 u 8)
        rw [releasing_idem, ite_self]
    · simp only [h, if_false, false_or]

/-! ### Arrivals (R148) -/

/-- The state in which the partition of the bundle waits at a unit, and the unit holds b. -/
def arrivedAt (s : State) (c u : Nat) (b : BarUnit) : State :=
  (s.updMe fun p => { p with barw := some ⟨c, u, 0, none⟩ }).setBarUnit s.cur.core c u b

theorem arrivedAt_cur (s : State) (c u : Nat) (b : BarUnit) : (arrivedAt s c u b).cur = s.cur := by
  unfold arrivedAt
  rw [setBarUnit_frame]
  rfl

theorem arrivedAt_barw (s : State) (c u : Nat) (b : BarUnit) (q : Nat) : ((arrivedAt s c u b).part q).barw =
    if q = s.cur.gpi then some ⟨c, u, 0, none⟩ else (s.part q).barw := by
  have e : (arrivedAt s c u b).part q = (s.updMe fun p => { p with barw := some ⟨c, u, 0, none⟩ }).part q := by
    unfold arrivedAt
    rw [setBarUnit_frame]
    rfl
  rw [e, State.updMe, State.part_updPart]
  split
  · subst q; rfl
  · rfl

/-- A participant's arrival counts; the last one starts the release (R315). -/
theorem barw_arrives {s : State} {c u : Nat} (h : s.cur.gpi ∈ (s.barUnit s.cur.core c u).parts) :
    let b := s.barUnit s.cur.core c u
    exec (.barw c u) s = .next (if b.parts.all (s.cur.gpi :: b.arrived).contains
      then startRelease c u s.myCore.lock b.parts (arrivedAt s c u ⟨b.parts, [], !b.phase⟩)
      else arrivedAt s c u ⟨b.parts, s.cur.gpi :: b.arrived, b.phase⟩) := by
  show execBarw c u s = _
  unfold execBarw
  dsimp only
  rw [show (s.barUnit s.cur.core c u).parts.contains s.cur.gpi = true by simpa using h]
  rfl

theorem barrierArrivals_hold : barrierArrivals := by
  intro s c u b hme
  have hexec := barw_arrives hme
  dsimp only at hexec
  have hunit : ∀ x, (arrivedAt s c u x).barUnit s.cur.core c u = x := fun x => barUnit_setBarUnit fun e => by
    rw [show b = BarUnit.empty from e] at hme
    exact List.not_mem_nil hme
  have hall : b.parts.all (s.cur.gpi :: b.arrived).contains = true ↔ ∀ p ∈ b.parts, p ≠ s.cur.gpi → p ∈ b.arrived := by
    simp only [List.all_eq_true, List.contains_iff_mem, List.mem_cons]
    exact forall₂_congr fun p _ => or_iff_not_imp_left
  refine ⟨fun ⟨p, hp, hne, hna⟩ => ?_, fun hlast => ?_⟩
  · rw [if_neg fun h => hna (hall.1 h p hp hne)] at hexec
    exact ⟨_, hexec, arrivedAt_cur .., by rw [arrivedAt_barw, if_pos rfl], hunit _⟩
  · rw [if_pos (hall.2 hlast)] at hexec
    refine ⟨_, hexec, ?_, ?_, ?_⟩
    · rw [startRelease_frame]
      exact arrivedAt_cur ..
    · rw [startRelease_frame]
      exact (barUnit_congr rfl rfl rfl _ _ _).trans (hunit _)
    · rintro rfl
      refine ⟨?_, fun p hp hne w hw h0 hu => ?_⟩
      · rw [startRelease_barw, if_pos hme, arrivedAt_barw, if_pos rfl]
        simp [Machine.BarWait.releasing]
      · rw [startRelease_barw, if_pos hp, arrivedAt_barw, if_neg hne, hw]
        simp [Machine.BarWait.releasing, h0, hu]

/-! ### Bank transitions (R36) and the end of a wait (R315) -/

/-- Changes of one partition that agree on it are the same. -/
theorem updPart_eq {s : State} {p : Nat} {f g : Part → Part} (h : f (s.part p) = g (s.part p)) : s.updPart p f = withPart s p g := by
  rw [State.updPart, h]
  rfl

theorem bankClocks_eq (f t : BankState) : bankClocks f t = moves f t := by cases f <;> cases t <;> rfl

/-- A bank may be lowered where no tile write to it is in flight or captured. -/
theorem bankQuiet_of {s : State} {p b : Nat}
    (hp : ∀ l ∈ (s.core (p / 4)).pend, l.gpi = p → ∀ t r e v, l.act = .tileRow t r e v → t / 4 ≠ b)
    (hs : ∀ e ∈ (s.part p).snap, ∀ t r en v, e.act = .tileRow t r en v → t / 4 ≠ b) : s.bankQuiet p b = true := by
  unfold State.bankQuiet
  simp only [Bool.and_eq_true, Bool.not_eq_true', List.any_eq_false, not_and, beq_iff_eq]
  refine ⟨fun l hl hg => ?_, fun e he => ?_⟩
  · split
    · simpa using hp l hl hg _ _ _ _ ‹_›
    · exact Bool.false_ne_true
  · split
    · simpa using hs e he _ _ _ _ ‹_›
    · exact Bool.false_ne_true

theorem tbpwrTransitionStart_next {s : State} {p b : Nat} {x : TBank} (hx : x = Cells.get TBank.idle b (s.part p).banks)
    (hpend : x.pending = true) (hst : x.state = x.target) (hreq : x.req ≠ x.state) (hq : x.state = .on → s.bankQuiet p b = true) :
    exec (.tbpwrTransitionStart p b) s = .next (withPart s p fun y => { y with
      banks := Cells.put b { x with target := x.req, pending := false, left := moves x.state x.req } y.banks }) := by
  have hb : (s.part p).bank b = x := hx.symm
  have hstarts : s.bankStarts p b = true := by
    unfold State.bankStarts
    dsimp only
    rw [hb, hpend, hst, beq_self_eq_true]
    by_cases e : x.state = .on
    · simp [hq e]
    · simp [← hst, e]
  show Host.Outcome.next _ = _
  rw [if_pos hstarts]
  refine congrArg _ (updPart_eq ?_)
  simp only [hb, if_neg hreq, bankClocks_eq]

theorem tbpwrTransitionEnd_next {s : State} {p b : Nat} {x : TBank} (hx : x = Cells.get TBank.idle b (s.part p).banks)
    (hl : x.left = 0) (hst : x.state ≠ x.target) :
    exec (.tbpwrTransitionEnd p b) s = .next (withPart s p fun y => { y with
      banks := Cells.put b { x with state := x.target, pending := decide (x.req ≠ x.target) } y.banks,
      tiles := (if x.state = .off ∨ x.target = .off then y.tiles.filter fun r => r.1 / 512 != b else y.tiles) }) := by
  have hb : (s.part p).bank b = x := hx.symm
  refine congrArg _ (updPart_eq ?_)
  simp only [hb, if_pos (And.intro hl hst), bne, beq_eq_decide, decide_not]

/-- A release with no clocks left has reached its participant: at cluster scope, and beyond where the participant has waited as long
as the scope's bound. -/
theorem released_of {w : BarWait} (hl : w.left = some 0)
    (h : w.scope = 0 ∨ (w.scope = 1 ∧ 96 ≤ w.own) ∨ (w.scope = 2 ∧ 224 ≤ w.own)) : w.released = true := by
  unfold Machine.BarWait.released
  rw [hl]
  rcases h with h | ⟨h, ho⟩ | ⟨h, ho⟩ <;> simp [releaseBound, *]

theorem barrierRelease_next {s : State} {p : Nat} {w : BarWait} (hw : (s.part p).barw = some w) (hh : (s.part p).held = none)
    (h : w.released = true) : exec (.barrierRelease p) s = .next (withPart s p fun y => { y with barw := none }) := by
  refine congrArg _ (updPart_eq ?_)
  simp [hw, hh, h]

/-- Settles O29: an arrival sets its unit and its wait, and starts the release where it is the last. -/
theorem barriersAndBankPower : Obligations.BarriersAndBankPower :=
  ⟨barrierArrivals_hold,
    fun _ _ _ _ hx hpend hst hreq hq =>
      tbpwrTransitionStart_next hx hpend hst hreq fun e => bankQuiet_of (hq e).1 (hq e).2,
    fun _ _ _ _ hx hl hst => tbpwrTransitionEnd_next hx hl hst,
    fun _ _ _ hw hh hl hs => barrierRelease_next hw hh (released_of hl hs)⟩

end Sys2Proof

/-!
PROOFS. The end of a presentation (O50): what a commit takes from the queues, where the sequencer goes, and what a wait leaves.
-/

namespace Sys2Proof

open Sys2Proof.Machine Sys2Proof.Says

/-! ### The queues after a commit (R30, R144) -/

/-- The partition without the first entries of one queue. -/
def dropEntries (x : Part) (e : Nat × Nat) : Part :=
  if e.1 < 32 then { x with sq := Cells.put e.1 ((Cells.get [] e.1 x.sq).drop e.2) x.sq }
  else { x with vq := Cells.put (e.1 - 32) ((Cells.get [] (e.1 - 32) x.vq).drop e.2) x.vq }

/-- The partition with one queue empty. -/
def emptyQueue (x : Part) (k : Nat) : Part :=
  if k < 32 then { x with sq := Cells.put k [] x.sq } else { x with vq := Cells.put (k - 32) [] x.vq }

theorem takeEntries_eq (c : Cursor) (x : Part) : x.takeEntries c = c.clears.foldl emptyQueue (c.taken.foldl dropEntries x) := rfl

theorem takeEntries_frame (c : Cursor) (x : Part) :
    x.takeEntries c = { x with sq := (x.takeEntries c).sq, vq := (x.takeEntries c).vq } := by
  have drops : ∀ (l : List (Nat × Nat)) (y : Part),
      l.foldl dropEntries y = { y with sq := (l.foldl dropEntries y).sq, vq := (l.foldl dropEntries y).vq } := fun l => by
    induction l with
    | nil => exact fun _ => rfl
    | cons e l ih =>
      intro y
      rw [List.foldl_cons, ih, dropEntries]
      split <;> rfl
  have clears : ∀ (l : List Nat) (y : Part),
      l.foldl emptyQueue y = { y with sq := (l.foldl emptyQueue y).sq, vq := (l.foldl emptyQueue y).vq } := fun l => by
    induction l with
    | nil => exact fun _ => rfl
    | cons k l ih =>
      intro y
      rw [List.foldl_cons, ih, emptyQueue]
      split <;> rfl
  rw [takeEntries_eq, clears, drops]

theorem Cells.get_unlisted {α : Type} {d : α} {k : Nat} {c : Cells α} (h : k ∉ c.map Prod.fst) : Cells.get d k c = d := by
  induction c with
  | nil => rfl
  | cons e c ih =>
    obtain ⟨hk, hc⟩ := not_or.1 fun h' => h (by simpa using h')
    rw [Cells.get, if_neg hk, ih (by simpa using hc)]

theorem foldl_dropEntries_sq {l : Cells Nat} (h : (l.map Prod.fst).Nodup) {q : Nat} (hq : q < 32) (x : Part) :
    Cells.get [] q (l.foldl dropEntries x).sq = (Cells.get [] q x.sq).drop (Cells.get 0 q l) := by
  induction l generalizing x with
  | nil => rfl
  | cons e l ih =>
    obtain ⟨hn, hl⟩ := List.nodup_cons.1 h
    rw [List.foldl_cons, ih hl, dropEntries, Cells.get]
    by_cases he : q = e.1
    · subst he
      rw [if_pos hq, if_pos rfl, Cells.get_put_self, Cells.get_unlisted hn, List.drop_zero]
    · rw [if_neg he]
      split
      · rw [Cells.get_put_other _ _ _ _ _ he]
      · rfl

theorem foldl_dropEntries_vq {l : Cells Nat} (h : (l.map Prod.fst).Nodup) (q : Nat) (x : Part) :
    Cells.get [] q (l.foldl dropEntries x).vq = (Cells.get [] q x.vq).drop (Cells.get 0 (32 + q) l) := by
  induction l generalizing x with
  | nil => rfl
  | cons e l ih =>
    obtain ⟨hn, hl⟩ := List.nodup_cons.1 h
    rw [List.foldl_cons, ih hl, dropEntries, Cells.get]
    by_cases he : 32 + q = e.1
    · rw [if_neg (by omega), if_pos he, show e.1 - 32 = q by omega, Cells.get_put_self, he, Cells.get_unlisted hn, List.drop_zero]
    · rw [if_neg he]
      split
      · rfl
      · rw [Cells.get_put_other _ _ _ _ _ (by omega)]

theorem emptyQueue_sq {q : Nat} (hq : q < 32) (x : Part) (k : Nat) :
    Cells.get [] q (emptyQueue x k).sq = if q = k then [] else Cells.get [] q x.sq := by
  unfold emptyQueue
  split
  · exact Cells.get_put ..
  · rw [if_neg (by omega)]

theorem emptyQueue_vq (q : Nat) (x : Part) (k : Nat) :
    Cells.get [] q (emptyQueue x k).vq = if 32 + q = k then [] else Cells.get [] q x.vq := by
  unfold emptyQueue
  split
  · rw [if_neg (by omega)]
  · rw [Cells.get_put]
    exact if_congr (by omega) rfl rfl

/-- A queue cleared in turn with others is empty; one that none of them is stays. -/
theorem foldl_clears {α β : Type} (f : α → Nat → α) (g : α → List β) {q : Nat} (h : ∀ x k, g (f x k) = if q = k then [] else g x)
    (l : List Nat) (x : α) : g (l.foldl f x) = if l.contains q then [] else g x := by
  induction l generalizing x with
  | nil => rfl
  | cons k l ih =>
    rw [List.foldl_cons, ih, h]
    by_cases hk : q = k <;> simp [hk]

theorem takeEntries_sq {c : Cursor} (h : (c.taken.map Prod.fst).Nodup) (x : Part) {q : Nat} (hq : q < 32) :
    Cells.get [] q (x.takeEntries c).sq = if c.clears.contains q then [] else (Cells.get [] q x.sq).drop (Cells.get 0 q c.taken) := by
  rw [takeEntries_eq, foldl_clears emptyQueue (fun y => Cells.get [] q y.sq) (emptyQueue_sq hq), foldl_dropEntries_sq h hq]

theorem takeEntries_vq {c : Cursor} (h : (c.taken.map Prod.fst).Nodup) (x : Part) (q : Nat) :
    Cells.get [] q (x.takeEntries c).vq =
      if c.clears.contains (32 + q) then [] else (Cells.get [] q x.vq).drop (Cells.get 0 (32 + q) c.taken) := by
  rw [takeEntries_eq, foldl_clears emptyQueue (fun y => Cells.get [] q y.vq) (emptyQueue_vq q), foldl_dropEntries_vq h]

/-! ### The sequencer after a commit (R22, R75, R83, R139) -/

/-- The items of a partition that the sequencer of a bundle leaves as they are. -/
theorem sequence_frame (c : Cursor) (x : Part) : ∃ g h, x.sequence c = { x with
    group2 := g, bno := (x.sequence c).bno, hold := h, run := (x.sequence c).run, pblk := (x.sequence c).pblk,
    pc := (x.sequence c).pc, half := (x.sequence c).half, loops := (x.sequence c).loops } := by
  unfold Part.sequence
  split
  · exact ⟨_, _, rfl⟩
  · dsimp only
    split <;> exact ⟨_, _, rfl⟩

theorem sequence_group1 {c : Cursor} (h : c.group = 1) (x : Part) : x.sequence c =
    { x with group2 := some ⟨c.word, c.guard, (c.staged.map fun r => 2 ^ r.slot).sum⟩ } := by
  unfold Part.sequence
  rw [if_pos h]

/-- The partition after a whole bundle, but for its place and its loops. -/
def moved (c : Cursor) (x : Part) : Part := { x with
  group2 := none, bno := x.bno + 1, hold := c.hold, run := c.ends.getD x.run,
  pblk := if c.covered then { x.pblk with rem := x.pblk.rem - 1, pat := x.pblk.pat / 2 } else x.pblk }

theorem sequence_taken {c : Cursor} {a : Nat} (h : c.group ≠ 1) (hn : c.next = some a) (x : Part) :
    x.sequence c = { moved c x with pc := a, half := x.half != c.newHalf } := by
  unfold Part.sequence
  rw [if_neg h, hn]
  rfl

theorem sequence_passed {c : Cursor} (h : c.group ≠ 1) (hn : c.next = none) (x : Part) : x.sequence c =
    { moved c x with pc := (loopEnd x.pc x.loops).1.getD (seqNext x.pc), loops := (loopEnd x.pc x.loops).2 } := by
  unfold Part.sequence
  rw [if_neg h, hn]
  rfl

/-- The levels whose last pass ends at a bundle are left behind (R139). -/
theorem loopEnd_append {pc : Nat} {a r : List LoopLevel} (h : ∀ y ∈ a, y.stop = pc ∧ y.remaining ≤ 1) :
    loopEnd pc (a ++ r) = loopEnd pc r := by
  induction a with
  | nil => rfl
  | cons y a ih =>
    obtain ⟨⟨hs, hr⟩, ha⟩ := List.forall_mem_cons.1 h
    rw [List.cons_append, loopEnd, if_neg (not_not.2 hs), if_neg (by omega), ih ha]

theorem loopEnd_on {pc : Nat} {r : List LoopLevel} (h : ∀ l z, r = l :: z → l.stop ≠ pc) : loopEnd pc r = (none, r) := by
  cases r with
  | nil => rfl
  | cons l z => rw [loopEnd, if_pos (h l z rfl)]

theorem loopEnd_back {pc : Nat} {l : LoopLevel} {z : List LoopLevel} (hs : l.stop = pc) (hr : 1 < l.remaining) :
    loopEnd pc (l :: z) = (some l.start, { l with remaining := l.remaining - 1 } :: z) := by
  rw [loopEnd, if_neg (not_not.2 hs), if_pos hr]

/-! ### Commits -/

theorem presentTrap_clean {b u : State} (hm : u.cur.marks = []) (ho : u.overflowMarks = []) : presentTrap b u = none := by
  rw [presentTrap, hm, ho]
  rfl

theorem finishIssue_clean {b u : State} (h : clean u) : finishIssue b u = commitBundle b u := by
  obtain ⟨hm, ho, hw⟩ := h
  unfold finishIssue
  rw [presentTrap_clean hm ho]
  simp [hw]

theorem finishIssue_waiting {b u : State} (hm : u.cur.marks = []) (ho : u.overflowMarks = []) (hw : u.cur.wait = true) :
    finishIssue b u = putBack b u := by
  unfold finishIssue
  rw [presentTrap_clean hm ho]
  simp [hw]

/-- A TRAP of the bundle is left to be taken at the boundary (R153). -/
def trapped (c : Cursor) (before y : Part) : Part :=
  match c.trap with
  | some code => { y with trapNow := some (softTrap before code) }
  | none => y

/-- The partition of a bundle after its commit. -/
def committedPart (c : Cursor) (before x : Part) : Part := trapped c before ((x.takeEntries c).sequence c)

/-- What a TRAP leaves changes nothing else. -/
theorem trapped_frame (c : Cursor) (before y : Part) : trapped c before y = { y with trapNow := (trapped c before y).trapNow } := by
  unfold trapped
  split <;> rfl

/-- The core of a bundle after its commit. -/
def committedCore (c : Cursor) (x : Core) : Core :=
  { x with pend := x.pend ++ c.out, charge := x.charge + (c.staged.map issueWeight).sum }

/-- The state after the commit of a bundle without an ERET. -/
def committed (b u : State) : State :=
  { (u.updPart u.cur.gpi (committedPart u.cur (b.part u.cur.gpi))).updCore u.cur.core (committedCore u.cur) with cur := Cursor.empty }

theorem updPart_around (s : State) (p n : Nat) (f h : Part → Part) (g : Core → Core) :
    ((s.updPart p f).updCore n g).updPart p h = (s.updPart p fun x => h (f x)).updCore n g :=
  congrArg (fun t => t.updCore n g) (State.updPart_updPart s p f h)

theorem commitBundle_eq (b u : State) :
    commitBundle b u = if u.cur.resume then eretCommit u.cur.core (committed b u) else committed b u := by
  unfold commitBundle committed State.weigh committedPart trapped
  dsimp only
  rw [State.updCore_updCore]
  cases u.cur.trap with
  | none => rfl
  | some code =>
    dsimp only
    rw [updPart_around]
    rfl

/-- A bundle with an ERET commits as one without it, and then the program's state comes back (R329). -/
theorem commitBundle_resume {b u : State} (h : u.cur.resume = true) :
    commitBundle b u = eretCommit u.cur.core (commitBundle b { u with cur := { u.cur with resume := false } }) := by
  rw [commitBundle_eq, if_pos h, commitBundle_eq, if_neg Bool.false_ne_true]
  rfl

theorem committed_part (b u : State) (q : Nat) : (committed b u).part q =
    if q = u.cur.gpi then committedPart u.cur (b.part u.cur.gpi) (u.part u.cur.gpi) else u.part q :=
  State.part_updPart ..

theorem committed_core (b u : State) (m : Nat) : (committed b u).core m =
    if m = u.cur.core then committedCore u.cur (u.core u.cur.core) else u.core m :=
  State.core_updCore ..

/-- What no commit of a bundle changes in its partition. -/
theorem committedPart_frame (c : Cursor) (y x : Part) : (committedPart c y x).tiles = x.tiles ∧ (committedPart c y x).preds = x.preds ∧
    (committedPart c y x).flags = x.flags ∧ (c.trap = none → (committedPart c y x).trapNow = x.trapNow) ∧
    (committedPart c y x).sq = (x.takeEntries c).sq ∧ (committedPart c y x).vq = (x.takeEntries c).vq := by
  obtain ⟨g, h, e⟩ := sequence_frame c (x.takeEntries c)
  unfold committedPart
  rw [trapped_frame, e, takeEntries_frame]
  exact ⟨rfl, rfl, rfl, fun hn => by rw [trapped, hn], rfl, rfl⟩

theorem committedPart_trap {c : Cursor} {y x : Part} {code : Nat} (h : c.trap = some code) :
    (committedPart c y x).trapNow = some (softTrap y code) := by
  unfold committedPart trapped
  rw [h]

/-- The sequencer of a partition whose group 1 commits stays, and group 2 is to issue (R75). -/
theorem committedPart_group1 {c : Cursor} (h : c.group = 1) (y x : Part) :
    let z := committedPart c y x
    z.group2 = some ⟨c.word, c.guard, (c.staged.map fun r => 2 ^ r.slot).sum⟩ ∧
      z.pc = x.pc ∧ z.half = x.half ∧ z.loops = x.loops ∧ z.pblk = x.pblk ∧ z.run = x.run := by
  unfold committedPart
  rw [trapped_frame, sequence_group1 h, takeEntries_frame]
  exact ⟨rfl, rfl, rfl, rfl, rfl, rfl⟩

/-- The sequencer of a partition whose bundle took a transfer. -/
theorem committedPart_taken {c : Cursor} {a : Nat} (h : c.group ≠ 1) (hn : c.next = some a) (y x : Part) :
    ∃ t, committedPart c y x = { moved c (x.takeEntries c) with pc := a, half := x.half != c.newHalf, loops := x.loops, trapNow := t } := by
  unfold committedPart
  rw [trapped_frame, sequence_taken h hn, takeEntries_frame]
  exact ⟨_, rfl⟩

/-- The sequencer of a partition whose bundle took none. -/
theorem committedPart_passed {c : Cursor} (h : c.group ≠ 1) (hn : c.next = none) (y x : Part) :
    ∃ t, committedPart c y x = { moved c (x.takeEntries c) with
      pc := (loopEnd x.pc x.loops).1.getD (seqNext x.pc), loops := (loopEnd x.pc x.loops).2, half := x.half, trapNow := t } := by
  unfold committedPart
  rw [trapped_frame, sequence_passed h hn, takeEntries_frame]
  exact ⟨_, rfl⟩

/-- A whole bundle leaves no group 2, ends or runs its partition, and advances its predicate block, transfer or not (R75, R83). -/
theorem committedPart_whole {c : Cursor} (h : c.group ≠ 1) (y x : Part) :
    let z := committedPart c y x
    z.group2 = none ∧ z.run = c.ends.getD x.run ∧
      z.pblk = if c.covered then { x.pblk with rem := x.pblk.rem - 1, pat := x.pblk.pat / 2 } else x.pblk := by
  dsimp only
  have e : x.takeEntries c = _ := takeEntries_frame c x
  cases hn : c.next with
  | none =>
    obtain ⟨t, ht⟩ := committedPart_passed h hn y x
    rw [ht, e]
    exact ⟨rfl, rfl, rfl⟩
  | some a =>
    obtain ⟨t, ht⟩ := committedPart_taken h hn y x
    rw [ht, e]
    exact ⟨rfl, rfl, rfl⟩

/-- Where a bundle without a transfer goes on: past the levels that end with it, then on or back (R139). -/
theorem committedPart_loops {c : Cursor} (h : c.group ≠ 1) (hn : c.next = none) (y x : Part) :
    let z := committedPart c y x
    z.half = x.half ∧ ∀ a r, x.loops = a ++ r → (∀ l ∈ a, l.stop = x.pc ∧ l.remaining ≤ 1) →
      ((∀ l q, r = l :: q → l.stop ≠ x.pc) → z.pc = (x.pc + 16) % 2 ^ 17 ∧ z.loops = r) ∧
      ∀ l q, r = l :: q → l.stop = x.pc → 1 < l.remaining →
        z.pc = l.start ∧ z.loops = { l with remaining := l.remaining - 1 } :: q := by
  obtain ⟨t, ht⟩ := committedPart_passed h hn y x
  dsimp only
  rw [ht]
  refine ⟨rfl, fun a r hl ha => ⟨fun hon => ?_, ?_⟩⟩
  · rw [hl, loopEnd_append ha, loopEnd_on hon]
    exact ⟨rfl, rfl⟩
  · rintro l q rfl hs hr
    rw [hl, loopEnd_append ha, loopEnd_back hs hr]
    exact ⟨rfl, rfl⟩

/-- Settles O50: the commit takes the entries, puts the results in flight, and moves the sequencer. -/
theorem bundlesCommitOrWait : Obligations.BundlesCommitOrWait := by
  unfold Obligations.BundlesCommitOrWait
  refine ⟨fun b u hm ho hw => finishIssue_waiting hm ho hw, fun b u hc hr => ?_, ?_⟩
  · rw [finishIssue_clean hc, finishIssue_clean (u := { u with cur := { u.cur with resume := false } }) hc, commitBundle_resume hr]
  · rintro b u p n x rfl rfl rfl hc hr hn
    dsimp only
    rw [finishIssue_clean hc, commitBundle_eq, if_neg (by rw [hr]; exact Bool.false_ne_true)]
    obtain ⟨htiles, hpreds, hflags, htrap, hsq, hvq⟩ := committedPart_frame u.cur (b.part u.cur.gpi) (u.part u.cur.gpi)
    have hpart := committed_part b u u.cur.gpi
    rw [if_pos rfl] at hpart
    rw [hpart]
    refine ⟨rfl, ?_, rfl, fun q hq => ?_, fun m hm => ?_, fun q hq => ?_, fun q _ => ?_, htiles, hpreds, hflags, htrap,
      fun c hcode => committedPart_trap hcode, fun hg => committedPart_group1 hg _ _, fun hg => ?_⟩
    · rw [committed_core, if_pos rfl]; rfl
    · rw [committed_part, if_neg hq]
    · rw [committed_core, if_neg hm]
    · rw [hsq, takeEntries_sq hn _ hq]
    · rw [hvq, takeEntries_vq hn]
    · obtain ⟨h2, hrun, hblk⟩ := committedPart_whole hg (b.part u.cur.gpi) (u.part u.cur.gpi)
      refine ⟨h2, hrun, fun a ha => ?_, fun hnx => committedPart_loops hg hnx _ _, fun hcov => ?_, fun hcov => ?_⟩
      · obtain ⟨t, ht⟩ := committedPart_taken hg ha (b.part u.cur.gpi) (u.part u.cur.gpi)
        rw [ht]
        exact ⟨rfl, rfl, rfl⟩
      · rw [hblk, if_pos hcov]
      · rw [hblk, if_neg (by rw [hcov]; exact Bool.false_ne_true)]

end Sys2Proof

/-!
PROOFS. Bundles that meet faults (O51): which mark names the cause, what the trap records and stops, and what it leaves.
-/

namespace Sys2Proof

open Sys2Proof.Machine Sys2Proof.Says

/-! ### Queue overflow (R30) -/

theorem pushKey_eq (a : LandAct) : pushKey a = pushed a := by cases a <;> rfl

theorem overflows_iff (u : State) (q : Nat) : u.overflows q = true ↔ 4 < filling u q := by
  simp only [State.overflows, State.inflight, filling, pushKey_eq, decide_eq_true_eq, Nat.add_assoc]
  rfl

/-- Every push of a queue that overflows marks its slot. -/
theorem mem_overflowMarks {u : State} {q : Nat} {l : Landing} (hl : l ∈ u.cur.out) (hq : pushed l.act = some q) (h : 4 < filling u q) :
    (⟨l.slot, 0x11, 0, 0⟩ : Mark) ∈ u.overflowMarks := by
  unfold State.overflowMarks
  refine List.mem_flatMap.2 ⟨q, List.mem_filter.2 ⟨List.mem_dedup.2 ?_, (overflows_iff u q).2 h⟩, List.mem_map.2 ⟨l.slot, ?_, rfl⟩⟩
  · exact List.mem_filterMap.2 ⟨l, hl, (pushKey_eq _).trans hq⟩
  · refine List.mem_dedup.2 (List.mem_map_of_mem (List.mem_filter.2 ⟨hl, ?_⟩))
    rw [pushKey_eq, hq, beq_self_eq_true]

/-! ### The mark that names the cause (R86, R320) -/

theorem causeClass_eq (c : Nat) : causeClass c = classOf c := rfl

theorem before_refl (m : Mark) : before m m := .inr ⟨rfl, .inr ⟨rfl, Nat.le_refl _⟩⟩

theorem before_trans {l m n : Mark} (h : before l m) (g : before m n) : before l n := by
  unfold before at *
  omega

/-- Of two marks that come before each other class, slot and cause are the same. -/
theorem before_antisymm {m n : Mark} (h : before m n) (g : before n m) : m.slot = n.slot ∧ m.cause = n.cause := by
  unfold before at *
  omega

theorem firstMark_none {ms : List Mark} (h : firstMark ms = none) : ms = [] := by
  cases ms with
  | nil => rfl
  | cons m r =>
    simp only [firstMark] at h
    split at h
    · cases h
    · split_ifs at h

/-- Of a mark and the first of the rest, the one that comes before the other. -/
theorem firstMark_cons {x n m : Mark} {r : List Mark} (hn : firstMark r = some n) (h : firstMark (x :: r) = some m) :
    (m = x ∧ before x n) ∨ (m = n ∧ before n x) := by
  rw [firstMark, hn] at h
  dsimp only at h
  simp only [before, ← causeClass_eq]
  split_ifs at h <;> cases h
  · exact .inr ⟨rfl, by omega⟩
  · exact .inl ⟨rfl, by omega⟩
  · exact .inr ⟨rfl, by omega⟩
  · exact .inl ⟨rfl, by omega⟩

theorem firstMark_before {ms : List Mark} {m : Mark} (h : firstMark ms = some m) : m ∈ ms ∧ ∀ n ∈ ms, before m n := by
  induction ms generalizing m with
  | nil => cases h
  | cons x r ih =>
    cases e : firstMark r with
    | none =>
      have hr := firstMark_none e
      subst hr
      cases h
      exact ⟨List.mem_singleton_self _, fun n hn => by rw [List.mem_singleton.1 hn]; exact before_refl _⟩
    | some n =>
      obtain ⟨hn, hb⟩ := ih e
      rcases firstMark_cons e h with ⟨rfl, hx⟩ | ⟨rfl, hx⟩
      · exact ⟨List.mem_cons_self .., List.forall_mem_cons.2 ⟨before_refl _, fun y hy => before_trans hx (hb y hy)⟩⟩
      · exact ⟨List.mem_cons_of_mem _ hn, List.forall_mem_cons.2 ⟨hx, hb⟩⟩

/-- The first mark of a list has the cause of any that comes before all of them. -/
theorem firstMark_cause {ms : List Mark} {m : Mark} (hm : m ∈ ms) (h : ∀ x ∈ ms, before m x) :
    ∃ n, firstMark ms = some n ∧ n.cause = m.cause := by
  cases e : firstMark ms with
  | none =>
    rw [firstMark_none e] at hm
    cases hm
  | some n =>
    obtain ⟨hn, hb⟩ := firstMark_before e
    exact ⟨n, rfl, (before_antisymm (hb m hm) (h n hn)).2⟩

/-! ### The fault record (R325, R326) -/

theorem faultMask_lt (c : Nat) (ms : List Mark) : faultMask c ms < 16 := by
  simp only [faultMask, List.range_succ, List.range_zero, List.nil_append, List.cons_append, List.map_cons, List.map_nil, List.sum_cons,
    List.sum_nil]
  split_ifs <;> decide

theorem digitSum (hit : Nat → Bool) : ((List.range 4).map fun k => if hit k then 2 ^ k else 0).sum =
    (if hit 0 then 1 else 0) + ((if hit 1 then 2 else 0) + ((if hit 2 then 4 else 0) + (if hit 3 then 8 else 0))) := by
  simp [List.range_succ]

/-- FMASK names the slots that a mark of the class names. -/
theorem faultMask_bit (c : Nat) (ms : List Mark) {k : Nat} (hk : k < 4) :
    bit (faultMask c ms) k = true ↔ ∃ x ∈ ms, x.slot = k ∧ classOf x.cause = c := by
  have digits : ∀ a b c d : Bool, ∀ k < 4,
      bit ((if a then 1 else 0) + ((if b then 2 else 0) + ((if c then 4 else 0) + (if d then 8 else 0)))) k =
        [a, b, c, d].getD k false := by decide
  let hit := fun k => ms.any fun m => m.slot == k && causeClass m.cause == c
  have e : bit (faultMask c ms) k = hit k := by
    rw [show faultMask c ms = _ from digitSum hit, digits _ _ _ _ k hk]
    match k, hk with
    | 0, _ | 1, _ | 2, _ | 3, _ => rfl
  rw [e]
  simp only [hit, List.any_eq_true, Bool.and_eq_true, beq_iff_eq, causeClass_eq]

theorem frecHead_cause (t : TrapInfo) (nest wide : Bool) (n : Nat) (h : t.cause < 2 ^ 8) :
    fld (BitVec.ofNat 64 (frecHead t nest wide n)).toNat 0 8 = t.cause := by
  rw [BitVec.toNat_ofNat]
  unfold fld frecHead
  omega

theorem frecHead_mask (t : TrapInfo) (nest wide : Bool) (n : Nat) (h : t.cause < 2 ^ 8) (hf : t.fmask < 16) :
    fld (BitVec.ofNat 64 (frecHead t nest wide n)).toNat 10 4 = t.fmask := by
  have hg := b2n_lt t.grp2
  have hn := b2n_lt nest
  rw [BitVec.toNat_ofNat]
  unfold fld frecHead
  omega

/-! ### What stopping a core leaves (R321, R322) -/

theorem mem_partsOf (n q : Nat) : q ∈ partsOf n ↔ q / 4 = n := by
  simp only [partsOf, List.mem_map, List.mem_range]
  exact ⟨fun ⟨k, hk, e⟩ => by omega, fun h => ⟨q % 4, by omega, by omega⟩⟩

theorem partsOf_nodup (n : Nat) : (partsOf n).Nodup := List.nodup_range.map fun _ _ h => Nat.add_left_cancel h

/-- Partitions changed one after another, each once. -/
theorem foldl_updPart {l : List Nat} (h : l.Nodup) (f : Part → Part) (s : State) (q : Nat) :
    (l.foldl (fun s p => s.updPart p f) s).part q = if q ∈ l then f (s.part q) else s.part q := by
  induction l generalizing s with
  | nil => rfl
  | cons p l ih =>
    obtain ⟨hp, hl⟩ := List.nodup_cons.1 h
    rw [List.foldl_cons, ih hl, State.part_updPart]
    by_cases e : q = p
    · subst e
      simp [hp]
    · simp [e]

theorem updParts_part (n : Nat) (f : Part → Part) (s : State) (q : Nat) :
    (s.updParts n f).part q = if q / 4 = n then f (s.part q) else s.part q := by
  rw [State.updParts, foldl_updPart (partsOf_nodup n)]
  exact if_congr (mem_partsOf n q) rfl rfl

theorem updParts_cores (n : Nat) (f : Part → Part) (s : State) : (s.updParts n f).cores = s.cores := by
  refine foldl_keeps _ State.cores (fun t q => ?_) _ _
  rfl

theorem updParts_core (n : Nat) (f : Part → Part) (s : State) (m : Nat) : (s.updParts n f).core m = s.core m := by
  unfold State.core
  rw [updParts_cores]

/-- A fold of steps that each relate a state to the next relates its ends. -/
theorem foldl_related {α : Type} {R : State → State → Prop} (refl : ∀ s, R s s) (trans : ∀ {s t u}, R s t → R t u → R s u)
    {f : State → α → State} (h : ∀ s x, R s (f s x)) (l : List α) (s : State) : R s (l.foldl f s) := by
  induction l generalizing s with
  | nil => exact refl s
  | cons x l ih => exact trans (h s x) (ih _)

/-- A state that differs from s in partitions and cores alone. -/
def OnCores (s t : State) : Prop := ∃ x y, t = { s with parts := x, cores := y }

theorem OnCores.refl (s : State) : OnCores s s := ⟨_, _, rfl⟩

theorem OnCores.trans {s t u : State} (h : OnCores s t) (g : OnCores t u) : OnCores s u := by
  obtain ⟨x, y, rfl⟩ := h
  obtain ⟨v, w, rfl⟩ := g
  exact ⟨v, w, rfl⟩

theorem OnCores.updPart {s t : State} (h : OnCores s t) (p : Nat) (f : Part → Part) : OnCores s (t.updPart p f) :=
  h.trans ⟨_, _, rfl⟩

theorem OnCores.updCore {s t : State} (h : OnCores s t) (n : Nat) (f : Core → Core) : OnCores s (t.updCore n f) :=
  h.trans ⟨_, _, rfl⟩

theorem OnCores.foldl {α : Type} {f : State → α → State} (h : ∀ s x, OnCores s (f s x)) (l : List α) (s : State) :
    OnCores s (l.foldl f s) := foldl_related .refl (fun h g => h.trans g) h l s

theorem OnCores.updParts {s t : State} (h : OnCores s t) (n : Nat) (f : Part → Part) : OnCores s (t.updParts n f) :=
  h.trans (.foldl (fun s _ => (OnCores.refl s).updPart _ _) _ _)

/-- Each result goes to the snapshot buffer of its own partition, in their order. -/
theorem foldl_captured (l : List Landing) (g : Landing → SnapEntry) (s : State) (q : Nat) :
    (l.foldl (fun s l => s.updPart l.gpi fun p => { p with snap := p.snap ++ [g l] }) s).part q =
      { s.part q with snap := (s.part q).snap ++ (l.filter fun l => l.gpi == q).map g } := by
  induction l generalizing s with
  | nil => simp
  | cons y l ih =>
    rw [List.foldl_cons, ih, State.part_updPart]
    by_cases hq : q = y.gpi
    · subst hq
      simp
    · simp [hq, Ne.symm hq]

theorem capture_onCores (n : Nat) (nest : Bool) (s : State) : OnCores s (capture n nest s) := by
  unfold capture
  dsimp only
  refine OnCores.updCore (.foldl (fun t l => ?_) _ _) _ _
  exact (OnCores.refl t).updPart _ _

theorem capture_part (n : Nat) (nest : Bool) (s : State) (q : Nat) : (capture n nest s).part q = { s.part q with
    snap := (s.part q).snap ++ ((s.core n).pend.filter fun l => l.gpi == q).map fun l => l.captured (s.core n).tick nest } :=
  foldl_captured _ _ _ _

theorem capture_core (n : Nat) (nest : Bool) (s : State) (m : Nat) :
    (capture n nest s).core m = if m = n then { s.core n with pend := [] } else s.core m := by
  have e : ∀ m, (((s.core n).pend.foldl (fun t l => t.updPart l.gpi fun p => { p with
      snap := p.snap ++ [l.captured (s.core n).tick nest] }) s)).core m = s.core m := fun m => by
    refine foldl_keeps _ (fun t : State => t.core m) (fun t l => ?_) _ _
    rfl
  unfold capture
  dsimp only
  rw [State.core_updCore, e, e]

/-- The state in which the results of core n are captured, its transactions doomed and, in lockstep mode, its long operations held. -/
def quieted (n : Nat) (s : State) : State :=
  if (s.core n).lock then holdAll n (doomCore n (capture n false s)) else doomCore n (capture n false s)

theorem quieted_onCores (n : Nat) (s : State) : OnCores s (quieted n s) := by
  have h : OnCores s (doomCore n (capture n false s)) := (capture_onCores n false s).updParts _ _
  unfold quieted
  split
  · exact (h.updParts _ _).updCore _ _
  · exact h

theorem quieted_part (n : Nat) (s : State) (q : Nat) : ∃ x c, (quieted n s).part q = { s.part q with
    snap := (s.part q).snap ++ ((s.core n).pend.filter fun l => l.gpi == q).map fun l => l.captured (s.core n).tick false,
    tx := x, cmds := c } := by
  unfold quieted holdAll doomCore
  split <;> simp only [State.part_updCore, updParts_part, capture_part] <;> split <;> exact ⟨_, _, rfl⟩

theorem quieted_core (n : Nat) (s : State) (m : Nat) : ∃ k, (quieted n s).core m =
    if m = n then { s.core n with pend := [], calls := k } else s.core m := by
  unfold quieted holdAll doomCore
  split <;> simp only [State.core_updCore, updParts_core, capture_core, if_true]
  · refine ⟨(s.core n).calls.map fun k => { k with held := true }, ?_⟩
    split <;> rfl
  · exact ⟨(s.core n).calls, rfl⟩

/-- A core that runs a program stops at its CYCLE. -/
theorem stopCore_running {n : Nat} {quiet : Bool} {s : State} (h : (s.core n).stop = none) :
    stopCore n quiet s = (quieted n s).updCore n fun c =>
      { c with stop := some ⟨c.cycle, none, quiet, none, false, 0, c.lock, false⟩, stopAt := none, stopReq := false } := by
  unfold stopCore
  dsimp only
  rw [h]
  rfl

/-- The other cores of a lockstep kernel are told where to stop; nothing else changes. -/
theorem stopPeers_onCores (n cyc : Nat) (s : State) : OnCores s (stopPeers n cyc s) := by
  refine .foldl (fun t m => ?_) _ _
  split
  · exact .refl t
  · exact (OnCores.refl t).updCore _ _

theorem stopPeers_part (n cyc : Nat) (s : State) (q : Nat) : (stopPeers n cyc s).part q = s.part q := by
  refine foldl_keeps _ (fun t : State => t.part q) (fun t m => ?_) _ _
  split <;> rfl

theorem stopPeers_core (n cyc : Nat) (s : State) (m : Nat) :
    ∃ a, (stopPeers n cyc s).core m = if m = n then s.core n else { s.core m with stopAt := a } := by
  unfold stopPeers
  generalize s.kin n = l
  induction l generalizing s with
  | nil => exact ⟨(s.core m).stopAt, by split <;> simp [*]⟩
  | cons j l ih =>
    rw [List.foldl_cons]
    split
    · exact ih s
    · rename_i hj
      obtain ⟨hj, -⟩ := not_or.1 hj
      obtain ⟨a, e⟩ := ih (s.updCore j fun c => { c with stopAt := some (min (c.stopAt.getD (cyc + 256)) (cyc + 256)) })
      refine ⟨a, e.trans ?_⟩
      rw [State.core_updCore, if_neg (Ne.symm hj), State.core_updCore]
      by_cases hm : m = j
      · subst hm
        simp
      · rw [if_neg hm]

/-! ### Taking a trap (R318, R321) -/

theorem raise_frame (i : Nat) (s : State) : s.raise i = { s with irqSent := (s.raise i).irqSent, irqHeld := (s.raise i).irqHeld } := by
  unfold State.raise
  dsimp only
  split
  · rfl
  · split <;> rfl

/-- The state of a core that has stopped with the record of its trap written. -/
def recordedTrap (p : Nat) (t : TrapInfo) (s : State) : State :=
  (stopCore (p / 4) false s).updPart p fun x =>
    { x with frec := frecWords t false (s.core (p / 4)).lock x.snap.length (s.core (p / 4)).cycle,
             trapNow := none, late := if t.long then [] else x.late, ripe := if t.long then 0 else x.ripe }

/-- The state of a core that has trapped, but for TRPEND and the interrupt. -/
def trappedCore (p : Nat) (t : TrapInfo) (s : State) : State :=
  (if (s.core (p / 4)).lock then stopPeers (p / 4) (s.core (p / 4)).cycle (recordedTrap p t s) else recordedTrap p t s).updCore (p / 4)
    fun c => { c with stop := c.stop.map fun h => { h with quiet := false } }

section

variable {p : Nat} {t : TrapInfo} {s : State} (h : (s.core (p / 4)).stop = none)

include h

theorem trappedCore_onCores : OnCores s (trappedCore p t s) := by
  have hr : OnCores s (recordedTrap p t s) := by
    unfold recordedTrap
    rw [stopCore_running h]
    exact ((quieted_onCores _ s).updCore _ _).updPart _ _
  unfold trappedCore
  split
  · exact (hr.trans (stopPeers_onCores ..)).updCore _ _
  · exact hr.updCore _ _

/-- A trap taken by a core that runs a program and is not in TRPEND (R318, R327). -/
theorem takeTrap_running (hn : p / 4 ∉ s.trpend) :
    takeTrap p t s = { trappedCore p t s with trpend := p / 4 :: s.trpend }.raise 3 := by
  obtain ⟨x, y, e⟩ := trappedCore_onCores (t := t) h
  have ht : (trappedCore p t s).trpend = s.trpend := by rw [e]
  unfold takeTrap
  dsimp only
  rw [h]
  simp only [Option.isNone_none, Bool.and_true]
  change (if (trappedCore p t s).trpend.contains (p / 4) then _ else
    ({ trappedCore p t s with trpend := p / 4 :: (trappedCore p t s).trpend } : State).raise 3) = _
  rw [ht, if_neg (by simpa using hn)]

theorem takeTrap_trpend (hn : p / 4 ∉ s.trpend) : (takeTrap p t s).trpend = p / 4 :: s.trpend := by
  rw [takeTrap_running h hn, raise_frame]

theorem takeTrap_hbm (hn : p / 4 ∉ s.trpend) : (takeTrap p t s).hbm = s.hbm := by
  obtain ⟨x, y, e⟩ := trappedCore_onCores (t := t) h
  rw [takeTrap_running h hn, raise_frame, e]

/-- A trap changes of a partition its snapshot, its record and what is pending of it. -/
theorem takeTrap_part (hn : p / 4 ∉ s.trpend) (q : Nat) : ∃ x c f w l r, (takeTrap p t s).part q = { s.part q with
    snap := (s.part q).snap ++
      ((s.core (p / 4)).pend.filter fun l => l.gpi == q).map fun l => l.captured (s.core (p / 4)).tick false,
    tx := x, cmds := c, frec := f, trapNow := w, late := l, ripe := r } ∧
    (q = p → ∃ k, f = frecWords t false (s.core (p / 4)).lock k (s.core (p / 4)).cycle) := by
  obtain ⟨x, c, e⟩ := quieted_part (p / 4) s q
  have hr : ∃ f w l r, (recordedTrap p t s).part q = { (quieted (p / 4) s).part q with frec := f, trapNow := w, late := l, ripe := r } ∧
      (q = p → ∃ k, f = frecWords t false (s.core (p / 4)).lock k (s.core (p / 4)).cycle) := by
    unfold recordedTrap
    rw [stopCore_running h, State.part_updPart, State.part_updCore, State.part_updCore]
    split
    · subst q
      exact ⟨_, _, _, _, rfl, fun _ => ⟨_, rfl⟩⟩
    · exact ⟨_, _, _, _, rfl, fun e => absurd e ‹_›⟩
  obtain ⟨f, w, l, r, hr, hf⟩ := hr
  refine ⟨x, c, f, w, l, r, ?_, hf⟩
  have ht : (takeTrap p t s).part q = (recordedTrap p t s).part q := by
    rw [takeTrap_running h hn, raise_frame]
    change (trappedCore p t s).part q = _
    unfold trappedCore
    rw [State.part_updCore]
    split
    · exact stopPeers_part ..
    · rfl
  rw [ht, hr, e]

theorem recordedTrap_core (m : Nat) : ∃ k, (recordedTrap p t s).core m = if m = p / 4 then
    { s.core m with pend := [], calls := k, stop := some ⟨(s.core m).cycle, none, false, none, false, 0, (s.core m).lock, false⟩,
                    stopAt := none, stopReq := false } else s.core m := by
  unfold recordedTrap
  rw [stopCore_running h, State.core_updPart, State.core_updCore]
  obtain ⟨k, e⟩ := quieted_core (p / 4) s m
  by_cases hm : m = p / 4
  · subst hm
    rw [if_pos rfl] at e
    exact ⟨k, by rw [if_pos rfl, if_pos rfl, e]⟩
  · rw [if_neg hm] at e
    exact ⟨[], by rw [if_neg hm, if_neg hm, e]⟩

/-- A trap stops its core, and tells the others of a lockstep kernel where to stop. -/
theorem takeTrap_core (hn : p / 4 ∉ s.trpend) (m : Nat) : ∃ k a, (takeTrap p t s).core m = if m = p / 4 then
    { s.core m with pend := [], calls := k, stop := some ⟨(s.core m).cycle, none, false, none, false, 0, (s.core m).lock, false⟩,
                    stopAt := none, stopReq := false } else { s.core m with stopAt := a } := by
  obtain ⟨k, e⟩ := recordedTrap_core (t := t) h m
  have told : ∃ a, (if (s.core (p / 4)).lock then stopPeers (p / 4) (s.core (p / 4)).cycle (recordedTrap p t s)
      else recordedTrap p t s).core m =
      if m = p / 4 then (recordedTrap p t s).core m else { (recordedTrap p t s).core m with stopAt := a } := by
    split
    · obtain ⟨a, ha⟩ := stopPeers_core (p / 4) (s.core (p / 4)).cycle (recordedTrap p t s) m
      exact ⟨a, ha.trans (by split <;> simp [*])⟩
    · exact ⟨((recordedTrap p t s).core m).stopAt, (ite_self _).symm⟩
  obtain ⟨a, ha⟩ := told
  refine ⟨k, a, ?_⟩
  rw [takeTrap_running h hn, raise_frame]
  change (trappedCore p t s).core m = _
  unfold trappedCore
  rw [State.core_updCore]
  by_cases hm : m = p / 4
  · subst hm
    rw [if_pos rfl] at ha e ⊢
    rw [ha, e, if_pos rfl]
    rfl
  · rw [if_neg hm] at ha e ⊢
    rw [ha, e, if_neg hm]

end

/-! ### A bundle with a mark (R86, R326) -/

/-- A trap halts its core (R321, R322). -/
theorem takeTrap_halted {p : Nat} {t : TrapInfo} {s : State} (h : (s.core (p / 4)).stop = none) (hn : p / 4 ∉ s.trpend) :
    halted s (takeTrap p t s) (p / 4) false := by
  obtain ⟨k, a, e⟩ := takeTrap_core (t := t) h hn (p / 4)
  rw [if_pos rfl] at e
  unfold halted
  rw [e]
  refine ⟨rfl, rfl, rfl, rfl, fun q _ => ?_⟩
  obtain ⟨x, c, f, w, l, r, e, -⟩ := takeTrap_part (t := t) h hn (4 * (p / 4) + q)
  rw [e]
  rfl

theorem takeTrap_slice {p : Nat} {t : TrapInfo} {s : State} (h : (s.core (p / 4)).stop = none) (hn : p / 4 ∉ s.trpend) (m : Nat) :
    ((takeTrap p t s).core m).slice = (s.core m).slice := by
  obtain ⟨k, a, e⟩ := takeTrap_core (t := t) h hn m
  rw [e]
  split <;> rfl

/-- The trap of a bundle names the cause that comes first, and the slots marked in its class. -/
theorem issueTrap_first {c : Cursor} {x : Part} {ms : List Mark} {m : Mark} (hm : m ∈ ms) (h : ∀ y ∈ ms, before m y) :
    ∃ t, issueTrap c x ms = some t ∧ t.cause = m.cause ∧ t.fmask = faultMask (classOf m.cause) ms ∧ t.pc = x.pc ∧ t.half = x.half := by
  obtain ⟨n, hn, hc⟩ := firstMark_cause hm h
  unfold issueTrap
  rw [hn, Option.map_some, hc]
  exact ⟨_, rfl, rfl, rfl, rfl, rfl⟩

/-- A bundle with a mark commits nothing and traps. -/
theorem finishIssue_marked {b u : State} {m : Mark} (hm : m ∈ u.cur.marks ++ u.overflowMarks)
    (h : ∀ y ∈ u.cur.marks ++ u.overflowMarks, before m y) :
    ∃ t, finishIssue b u = takeTrap u.cur.gpi t (putBack b u) ∧ t.cause = m.cause ∧
      t.fmask = faultMask (classOf m.cause) (u.cur.marks ++ u.overflowMarks) ∧
      t.pc = (b.part u.cur.gpi).pc ∧ t.half = (b.part u.cur.gpi).half := by
  obtain ⟨t, e, ht⟩ := issueTrap_first (c := u.cur) (x := b.part u.cur.gpi) hm h
  refine ⟨t, ?_, ht⟩
  unfold finishIssue presentTrap
  rw [e]

/-- What a marked bundle leaves: nothing of it but the trap, with the first cause and the slots of its class in the fault record. -/
theorem faultingBundle_traps {b u : State} {p : Nat} {m : Mark} (hp : p = u.cur.gpi) (hm : m ∈ u.cur.marks ++ u.overflowMarks)
    (hb : ∀ y ∈ u.cur.marks ++ u.overflowMarks, before m y) (hc : m.cause < 2 ^ 8) (h : (b.core (p / 4)).stop = none)
    (hn : p / 4 ∉ b.trpend) :
    let t := finishIssue b u
    t.cur = Cursor.empty ∧ (t.part p).sq = (b.part p).sq ∧ (t.part p).vq = (b.part p).vq ∧ (t.part p).pc = (b.part p).pc ∧
    (t.part p).loops = (b.part p).loops ∧ t.hbm = b.hbm ∧ (∀ k, (t.core k).slice = (b.core k).slice) ∧
    halted { b with cur := Cursor.empty, freeCtr := u.freeCtr } t (p / 4) false ∧ t.trpend = p / 4 :: b.trpend ∧
    fld (record t p 0).toNat 0 8 = m.cause ∧
    (∀ k < 4, bit (fld (record t p 0).toNat 10 4) k = true ↔ ∃ x ∈ u.cur.marks ++ u.overflowMarks, x.slot = k ∧
      classOf x.cause = classOf m.cause) ∧
    record t p 1 = BitVec.ofNat 64 ((b.part p).pc + 2 ^ 17 * b2n (b.part p).half) := by
  subst hp
  obtain ⟨t, e, hcause, hmask, hpc, hhalf⟩ := finishIssue_marked hm hb
  have h' : ((putBack b u).core (u.cur.gpi / 4)).stop = none := h
  have hn' : u.cur.gpi / 4 ∉ (putBack b u).trpend := hn
  obtain ⟨x, c, f, w, l, r, ep, ef⟩ := takeTrap_part (t := t) h' hn' u.cur.gpi
  obtain ⟨k, rfl⟩ := ef rfl
  have lt : t.cause < 2 ^ 8 := hcause ▸ hc
  have hf : t.fmask < 16 := hmask ▸ faultMask_lt ..
  rw [e]
  dsimp only [record]
  rw [ep]
  refine ⟨(takeTrap_cur ..).trans rfl, rfl, rfl, rfl, rfl, takeTrap_hbm h' hn', takeTrap_slice h' hn', takeTrap_halted h' hn',
    takeTrap_trpend h' hn', (frecHead_cause _ _ _ _ lt).trans hcause, fun k hk => ?_, ?_⟩
  · rw [← faultMask_bit _ _ hk, ← hmask]
    exact iff_of_eq (congrArg (fun z => bit z k = true) (frecHead_mask _ _ _ _ lt hf))
  · rw [← hpc, ← hhalf]
    rfl

end Sys2Proof

/-!
PROOFS. Empty sources of instructions (O51): the reads of an instruction come before what it does with them, and no mark goes away.
-/

namespace Sys2Proof

open Sys2Proof.Machine Sys2Proof.Says

/-! ### The reads of an instruction -/

/-- The state after one read of a queue. -/
def afterRead (s : State) : Bool × Nat × Bool → State
  | (false, q, k) => (readS q k s).2
  | (true, q, k) => (readV q k s).2

/-- The state after reads of queues in turn. -/
def afterReads (ops : List (Bool × Nat × Bool)) (s : State) : State := ops.foldl afterRead s

theorem source_afterRead {s t : State} {o : Bool × Nat × Bool}
    (h : if o.1 = true then ∃ x, vsource s o.2.1 o.2.2 x t else ∃ x, source s o.2.1 o.2.2 x t) : t = afterRead s o := by
  obtain ⟨v, q, k⟩ := o
  cases v with
  | false =>
    obtain ⟨x, hx, rfl⟩ := h
    exact (congrArg Prod.snd (readS_entry hx)).symm
  | true =>
    obtain ⟨x, hx, rfl⟩ := h
    exact (congrArg Prod.snd (readV_entry hx)).symm

theorem gets_afterReads {s u : State} {a : List (Bool × Nat × Bool)} (h : gets s a u) : u = afterReads a s := by
  induction a generalizing s with
  | nil => exact h
  | cons o a ih =>
    obtain ⟨t, ht, hu⟩ := h
    rw [ih hu, source_afterRead ht]
    rfl

theorem lacks_afterRead {s : State} {o : Bool × Nat × Bool} (h : lacks s o) : afterRead s o = s.mark causeUnderflow 0 0 := by
  obtain ⟨v, q, k⟩ := o
  cases v with
  | false => exact congrArg Prod.snd (readS_empty h)
  | true => exact congrArg Prod.snd (readV_empty h)

/-- State t is state s with marks added to those of the bundle in progress. -/
def Marks (s t : State) : Prop := s.cur.marks ⊆ t.cur.marks ∧ t = { s with cur := { s.cur with marks := t.cur.marks } }

theorem Marks.mark {s : State} {c v a : Nat} : Marks s (s.mark c v a) := ⟨List.subset_append_left .., rfl⟩

theorem Marks.check {s : State} {ok : Bool} {c : Nat} : Marks s (s.check ok c) := by
  cases ok with
  | true => exact ⟨List.Subset.refl _, rfl⟩
  | false => exact .mark

theorem Marks.take {s t : State} (h : Marks s t) (k : Nat) (peek : Bool) :
    Marks (if peek then s else s.take k) (if peek then t else t.take k) := by
  obtain ⟨hm, e⟩ := h
  generalize t.cur.marks = ms at hm e
  subst e
  cases peek <;> exact ⟨hm, rfl⟩

theorem Marks.mark_both {s t : State} (h : Marks s t) (c v a : Nat) : Marks (s.mark c v a) (t.mark c v a) := by
  obtain ⟨hm, e⟩ := h
  generalize t.cur.marks = ms at hm e
  subst e
  exact ⟨List.append_subset.2 ⟨List.Subset.trans hm (List.subset_append_left ..), List.subset_append_right ..⟩, rfl⟩

/-- A read takes what it takes, and fails where it fails, whatever marks the bundle has. -/
theorem Marks.afterRead {s t : State} (h : Marks s t) (o : Bool × Nat × Bool) : Marks (afterRead s o) (afterRead t o) := by
  obtain ⟨v, q, k⟩ := o
  have hme : t.me = s.me := by rw [h.2]; rfl
  have htk : t.cur.taken = s.cur.taken := by rw [h.2]
  cases v with
  | false =>
    have et : (Cells.get [] q t.me.sq)[t.takenOf q]? = (Cells.get [] q s.me.sq)[s.takenOf q]? := by
      unfold State.takenOf
      rw [hme, htk]
    dsimp only [Sys2Proof.afterRead]
    cases e : (Cells.get [] q s.me.sq)[s.takenOf q]? with
    | none => rw [readS_empty e, readS_empty (et.trans e)]; exact h.mark_both ..
    | some x => rw [readS_entry e, readS_entry (et.trans e)]; exact h.take ..
  | true =>
    have et : (Cells.get [] q t.me.vq)[t.takenOf (vkey q)]? = (Cells.get [] q s.me.vq)[s.takenOf (vkey q)]? := by
      unfold State.takenOf
      rw [hme, htk]
    dsimp only [Sys2Proof.afterRead]
    cases e : (Cells.get [] q s.me.vq)[s.takenOf (vkey q)]? with
    | none => rw [readV_empty e, readV_empty (et.trans e)]; exact h.mark_both ..
    | some x => rw [readV_entry e, readV_entry (et.trans e)]; exact h.take ..

theorem Marks.afterReads {s t : State} (h : Marks s t) (ops : List (Bool × Nat × Bool)) :
    Marks (afterReads ops s) (afterReads ops t) := by
  induction ops generalizing s t with
  | nil => exact h
  | cons o ops ih => exact ih (h.afterRead o)

theorem afterRead_slot (s : State) (o : Bool × Nat × Bool) :
    (afterRead s o).cur.slot = s.cur.slot ∧ s.cur.marks ⊆ (afterRead s o).cur.marks := by
  obtain ⟨v, q, k⟩ := o
  cases v with
  | false =>
    dsimp only [afterRead, readS]
    split
    · exact ⟨rfl, List.subset_append_left ..⟩
    · cases k <;> exact ⟨rfl, List.Subset.refl _⟩
  | true =>
    dsimp only [afterRead, readV]
    split
    · exact ⟨rfl, List.subset_append_left ..⟩
    · cases k <;> exact ⟨rfl, List.Subset.refl _⟩

theorem afterReads_slot (ops : List (Bool × Nat × Bool)) (s : State) :
    (afterReads ops s).cur.slot = s.cur.slot ∧ s.cur.marks ⊆ (afterReads ops s).cur.marks := by
  induction ops generalizing s with
  | nil => exact ⟨rfl, List.Subset.refl _⟩
  | cons o ops ih =>
    obtain ⟨hs, hm⟩ := ih (afterRead s o)
    obtain ⟨gs, gm⟩ := afterRead_slot s o
    exact ⟨hs.trans gs, List.Subset.trans gm hm⟩

/-- Mark m is on the bundle in progress. -/
def Marked (m : Mark) (s : State) : Prop := m ∈ s.cur.marks

variable {m : Mark} {s : State}

/-- A read that finds no entry, after those before it, leaves its mark (R30). -/
theorem marked_of_lacks {u : State} {a b : List (Bool × Nat × Bool)} {o : Bool × Nat × Bool} (hg : gets s a u) (hl : lacks u o) :
    Marked ⟨s.cur.slot, 0x10, 0, 0⟩ (afterReads (a ++ o :: b) s) := by
  have e : afterReads (a ++ o :: b) s = afterReads b (u.mark causeUnderflow 0 0) := by
    rw [← lacks_afterRead hl, gets_afterReads hg]
    exact List.foldl_append
  have hs : u.cur.slot = s.cur.slot := by rw [gets_afterReads hg]; exact (afterReads_slot a s).1
  rw [e, ← hs]
  exact (afterReads_slot ..).2 (List.mem_append_right _ (List.mem_singleton_self _))

/-! ### No mark goes away -/

theorem Marked.mark (h : Marked m s) {c v a : Nat} : Marked m (s.mark c v a) := List.mem_append_left _ h

theorem Marked.check (h : Marked m s) {ok : Bool} {c : Nat} : Marked m (s.check ok c) := Marks.check.1 h

theorem Marked.waitIf (h : Marked m s) {b : Bool} : Marked m (s.waitIf b) := by cases b <;> exact h

theorem Marked.emit (h : Marked m s) {l f : Nat} {a : LandAct} : Marked m (emit l f a s) := h

theorem Marked.pushS (h : Marked m s) {d l f : Nat} {v : W64} : Marked m (pushS d l f v s) := h

theorem Marked.pushV (h : Marked m s) {d l f : Nat} {v : V1024} : Marked m (pushV d l f v s) := h

theorem Marked.pushElems (h : Marked m s) {d l b : Nat} {xs : List Res} : Marked m (pushElems d l b xs s) := h

theorem Marked.writeP (h : Marked m s) {d l : Nat} {v : Bool} : Marked m (writeP d l v s) := h

theorem Marked.writeM (h : Marked m s) {d l : Nat} {v : W128} : Marked m (writeM d l v s) := h

theorem Marked.transfer (h : Marked m s) {a : Nat} {o : Bool} : Marked m (transfer a o s) := h

theorem Marked.openLoop (h : Marked m s) {n d : Nat} : Marked m (openLoop n d s) := by
  have hc : Marked m ((notCovered s).check (!endsTop s.me.loops s.me.pc) causeIllegalSequence) := h.check.check
  unfold Machine.openLoop
  dsimp only
  split
  · exact hc.transfer
  · split
    · exact hc.mark
    · exact hc

theorem Marked.checkIndices (h : Marked m s) {k v : Nat} {xs : List Nat} : Marked m (checkIndices k v xs s) := by
  unfold Machine.checkIndices
  split
  · exact h
  · exact h.mark

theorem Marked.nearIssue (h : Marked m s) {a : Near} : Marked m (nearIssue a s) := h

theorem Marked.enqueue (h : Marked m s) {k : Call} : Marked m (enqueue k s) := by
  have hw : Marked m (s.waitIf s.myCore.queueFull) := h.waitIf
  unfold Machine.enqueue
  dsimp only
  split <;> exact hw

theorem Marked.issueCmd (h : Marked m s) {f : Cmd → Cmd} {k : EngKind} {n p a b : Nat} {ws : List Nat} :
    Marked m (issueCmd f k n p a b ws s) := h.waitIf (b := s.me.cmdLimit)

theorem Marked.windowCheck (h : Marked m s) {a : Nat} {w : Bool} : Marked m (windowCheck a w s) := by
  unfold Machine.windowCheck
  split
  · split
    · exact h.mark
    · exact h
  · exact h

theorem Marked.nextSeq (h : Marked m s) {k : Nat} : Marked m (s.nextSeq k).2 := h

theorem Marked.takePlace (h : Marked m s) {k : Nat} : Marked m (s.takePlace k).2 := h

theorem Marked.ite (c : Prop) [Decidable c] {t u : State} (ht : Marked m t) (hu : Marked m u) : Marked m (if c then t else u) := by
  split
  · exact ht
  · exact hu

/-! ### Every instruction -/

/-- Whatever marks the reads of an instruction leave, the instruction leaves. -/
def Keeping (ops : List (Bool × Nat × Bool)) (s : State) (o : Out) : Prop :=
  ∃ t, o = .next t ∧ ∀ m, Marked m (afterReads ops s) → Marked m t

theorem Keeping.next {ops : List (Bool × Nat × Bool)} {t : State} (h : ∀ m, Marked m (afterReads ops s) → Marked m t) :
    Keeping ops s (.next t) := ⟨t, rfl, h⟩

/-- A check before the reads changes nothing in what they mark. -/
theorem Marked.checked {ops : List (Bool × Nat × Bool)} (h : Marked m (afterReads ops s)) {ok : Bool} {c : Nat} :
    Marked m (afterReads ops (s.check ok c)) := (Marks.check.afterReads ops).1 h

/-- Argument words are read from one queue in turn (R238). -/
theorem readWords_afterReads (q n : Nat) (s : State) : (readWords q n s).2 = afterReads (List.replicate n (false, q, false)) s := by
  induction n generalizing s with
  | zero => rfl
  | succ n ih => exact ih (readS q false s).2

theorem Marked.readWords {q n : Nat} (h : Marked m (afterReads (List.replicate n (false, q, false)) s)) :
    Marked m (readWords q n s).2 := by
  rw [readWords_afterReads]
  exact h

theorem issueWords_keeping {ok : List Nat → Bool} {k : EngKind} {f p a b n q : Nat}
    (h : Marked m (afterReads (List.replicate n (false, q, false)) s)) : Marked m (issueWords ok k f p a b n q s) :=
  h.checked.readWords.check.issueCmd

theorem issueFar_keeping {at_ wr : Bool} {k : EngKind} {f p a b n q : Nat}
    (h : Marked m (afterReads (List.replicate n (false, q, false)) s)) : Marked m (issueFar at_ wr k f p a b n q s) :=
  h.readWords.check.windowCheck.issueCmd

theorem issueTable_keeping {t st top : Nat} {busy : Nat → Bool} {p a b q : Nat} (hm : Marked m (afterReads [(false, q, false)] s)) :
    Marked m (issueTable t st top busy p a b q s) := by
  have hr : Marked m (readWords q 1 (noTx s)).2 := hm.checked
  exact hr.check.check.waitIf.issueCmd.emit

theorem vcbn_keeping {d a b t : Nat} {k : Bool} : Keeping [(true, a, k)] s (execVcbn d a b k t s) :=
  .next fun _ h => Marked.pushElems (Marked.ite _ h.mark h)

theorem vacrd_keeping {d t b f : Nat} {k : Bool} : Keeping [(false, b, k)] s (execVacrd d t b k f s) :=
  .next fun m h => by
    have hr : Marked m (readS b k s).2 := h
    refine Marked.pushElems ?_
    exact .ite _ hr hr

theorem acdrn_keeping {p a b q : Nat} {w : Bool} :
    Keeping ((false, q, false) :: if w then [(false, q, false)] else []) s (execAcdrn p a b w q s) :=
  .next fun m h => by
    have hr : Marked m (readWords q (1 + b2n w) s).2 := by cases w <;> exact h
    exact hr.check.enqueue

/-- TAKE with its word w checked in state t, for the context, the ring and the place in the stream that state s has. -/
def takeFrom (s : State) (p a b w : Nat) (t : State) : State :=
  match s.ctxOf s.cur.core with
  | none => issueCmd id .take 0 p a b [w] t
  | some k =>
    if (s.ctx k).replaying then
      match s.findEntry k s.cur.gpi (t.nextSeq k).1 with
      | none => (t.nextSeq k).2.mark causeReplay 0 0
      | some e =>
        if fld (e.getD 0 0) 0 4 = 7 then issueCmd id .take 0 p a b (w :: (t.nextSeq k).1 :: e) (t.nextSeq k).2
        else (t.nextSeq k).2.mark causeReplay 0 0
    else if (s.ctx k).recording then
      if s.ringFull k then t.waitIf true
      else issueCmd (fun c => { c with place := ((t.nextSeq k).2.takePlace k).1 }) .take 0 p a b [w, (t.nextSeq k).1]
        ((t.nextSeq k).2.takePlace k).2
    else issueCmd id .take 0 p a b [w] t

theorem take_next (p a b q : Nat) (s : State) : execTake p a b q s =
    .next (takeFrom s p a b ((readWords q 1 (noTx s)).1.getD 0 0)
      ((readWords q 1 (noTx s)).2.check (decide ((readWords q 1 (noTx s)).1.getD 0 0 < 2 ^ 23)) causeEngineArgument)) := rfl

theorem Marked.takeFrom {t : State} (h : Marked m t) {p a b w : Nat} : Marked m (takeFrom s p a b w t) := by
  unfold Sys2Proof.takeFrom
  split
  · exact h.issueCmd
  · split
    · split
      · exact h.nextSeq.mark
      · exact .ite _ h.nextSeq.issueCmd h.nextSeq.mark
    · exact .ite _ (.ite _ h.waitIf h.nextSeq.takePlace.issueCmd) h.issueCmd

theorem take_keeping {p a b q : Nat} : Keeping [(false, q, false)] s (execTake p a b q s) := by
  rw [take_next]
  refine .next fun m h => ?_
  have hr : Marked m (Machine.readWords q 1 (noTx s)).2 := h.checked
  exact hr.check.takeFrom

theorem txc_keeping {p a b q : Nat} : Keeping [(false, q, false)] s (execTxc p a b q s) :=
  .next fun m h => by
    have hr : Marked m (readWords q 1 (s.check s.me.txActive.isSome causeIllegalSequence)).2 := h.checked
    exact hr.check.issueCmd

/-- Every instruction that reads queues keeps the marks that its reads leave. -/
theorem exec_keeping (i : Instr) (s : State) (h : operands i ≠ []) : Keeping (operands i) s (exec i s) := by
  cases i with
  | add | addQ | sub | subQ | and | andQ | or | orQ | xor | xorQ | andn | andnQ | shl | shlQ | shr | shrQ | sra | sraQ
  | min | minQ | max | maxQ | minu | minuQ | maxu | maxuQ | mul | mulQ | mulh | mulhQ | mulhu | mulhuQ
  | fmin | fminQ | fmax | fmaxQ | sel | selQ | addx | addxQ | subx | subxQ
  | addss | addssQ | subss | subssQ | mov | movQ | addi | addiQ | fabs | fabsQ | fneg | fnegQ | clz | clzQ | ctz | ctzQ | popc | popcQ
  | shli | shliQ | shri | shriQ | srai | sraiQ | fadd | faddQ | fsub | fsubQ | fmul | fmulQ | fdiv | fdivQ
  | fsqrt | fsqrtQ | cvtif | cvtifQ | cvtuf | cvtufQ | cvtwf | cvtwfQ | cvtfi | cvtfiQ | cvtfu | cvtfuQ | cvtfw | cvtfwQ
  | cvtfwu | cvtfwuQ | vext | tfind => exact .next fun _ h => h.pushS
  | feq | feqQ | flt | fltQ | fle | fleQ | funord | funordQ | ceq | ceqQ | cne | cneQ | clt | cltQ | cle | cleQ
  | cltu | cltuQ | cleu | cleuQ | ceqi | ceqiQ | cnei | cneiQ | clti | cltiQ | cltui | cltuiQ => exact .next fun _ h => h.writeP
  | jr => exact .next fun _ h => h.checked.transfer
  | jrl => exact .next fun _ h => h.checked.transfer.pushS
  | loopQ => exact .next fun _ h => h.openLoop
  | crset => exact .next fun _ h => h.check.emit
  | vadd | vsub | vmul | vmin | vmax | vadds | vsubs | vmulhi | vfmin | vfmax | vand | vor | vxor | vandn
  | vshl | vshr | vsra | vlmul | vldiv | vladd | vlsub | vaddi | vshli | vsrai | vfadd | vfsub | vfmul
  | vfabs | vfneg | vnot | vlsqrt | vlneg | vlabs | vmov | vfma | vperm | vpermt | vsel | vred | vcvt | vqnt | vcvtsr | vsplat =>
    exact .next fun _ h => h.pushElems
  | vcmp => exact .next fun _ h => h.writeM
  | vmaxe | mpset | mpadd | pcwset | pcwmem | scld | gsset | tclr => exact .next fun _ h => h.emit
  | vcbx => exact .next fun _ h => h.checkIndices.pushV
  | vcbn => exact vcbn_keeping
  | vrng | vtrd | vtrdCvt | vtcr | vtcrCvt | vct8 => exact .next fun _ h => h.check.pushElems
  | vtwr | vtwrCvt => exact .next fun _ h => h.check.emit
  | vacrd => exact vacrd_keeping
  | lds | natom | ncas => exact .next fun _ h => h.check.nearIssue.pushS
  | sts | stv => exact .next fun _ h => h.check.nearIssue
  | ldv => exact .next fun _ h => h.check.nearIssue.pushV
  | ldt => exact .next fun _ h => h.check.check.nearIssue.emit
  | stt => exact .next fun _ h => h.check.check.nearIssue
  | acdrn => exact acdrn_keeping
  | fld | fst | fatom => exact .next fun _ h => issueFar_keeping h
  | copy | gath | scat | mcst | cgath | spawn | join | ovld => exact .next fun _ h => issueWords_keeping h
  | twany | twall => exact .next fun _ h => h.waitIf
  | txc => exact txc_keeping
  | take => exact take_keeping
  | cbld | cwtld | mpsld | gtld | latld => exact .next fun _ h => issueTable_keeping h
  | _ => exact absurd rfl h

/-- An empty source of any instruction, after those before it, marks the underflow cause (R30). -/
theorem emptySource_marks {i : Instr} {a b : List (Bool × Nat × Bool)} {o : Bool × Nat × Bool} {u : State}
    (hi : operands i = a ++ o :: b) (hg : gets s a u) (hl : lacks u o) :
    ∃ t, exec i s = .next t ∧ Marked ⟨s.cur.slot, 0x10, 0, 0⟩ t := by
  obtain ⟨t, e, ht⟩ := exec_keeping i s (by rw [hi]; exact List.append_ne_nil_of_right_ne_nil _ (List.cons_ne_nil _ _))
  refine ⟨t, e, ht _ ?_⟩
  rw [hi]
  exact marked_of_lacks hg hl

/-- A move from an empty queue marks the slot and takes nothing. -/
theorem move_empty {d a lat : Nat} {k : Bool} {f : W64 → W64} (h : (Cells.get [] a s.me.sq)[s.takenOf a]? = none) :
    ∃ t, scalar1 d a k lat f s = .next t ∧ t.cur.marks = s.cur.marks ++ [⟨s.cur.slot, 0x10, 0, 0⟩] ∧ t.cur.taken = s.cur.taken := by
  unfold scalar1
  rw [readS_empty h]
  exact ⟨_, rfl, rfl, rfl⟩

/-- Settles O51: the marks of reads stay, every overflow is marked, and a mark makes the bundle trap instead of committing. -/
theorem faultingBundlesCommitNothing : Obligations.FaultingBundlesCommitNothing := by
  unfold Obligations.FaultingBundlesCommitNothing
  refine ⟨fun c hc s d a k h => ?_, fun s i a o b u hi hg hl => emptySource_marks hi hg hl,
    fun u q l _ hl hq h => mem_overflowMarks hl hq h, fun b u p m hp hm hb hc hs hn => faultingBundle_traps hp hm hb hc hs hn⟩
  simp only [List.mem_cons, List.not_mem_nil, or_false] at hc
  rcases hc with rfl | rfl
  · exact move_empty h
  · exact move_empty h

end Sys2Proof

/-!
PROOFS. What cannot issue (O26): sleeping banks, reserved bank groups, calls that fail a check, full queues, and engine commands
whose words or place in a transaction are not in order.
-/

namespace Sys2Proof

open Sys2Proof.Machine Sys2Proof.Says

variable {m : Mark} {s t : State}

/-! ### The reads of a bundle move nothing else -/

/-- State t is state s but for the bundle in progress, whose place is the same. -/
structure InBundle (s t : State) : Prop where
  rest : t = { s with cur := t.cur }
  gpi : t.cur.gpi = s.cur.gpi
  core : t.cur.core = s.cur.core
  slot : t.cur.slot = s.cur.slot

theorem InBundle.refl (s : State) : InBundle s s := ⟨rfl, rfl, rfl, rfl⟩

theorem InBundle.me (h : InBundle s t) : t.me = s.me := by
  unfold State.me
  rw [h.gpi, h.rest]
  rfl

theorem InBundle.myCore (h : InBundle s t) : t.myCore = s.myCore := by
  unfold State.myCore
  rw [h.core, h.rest]
  rfl

/-- A change of the bundle that leaves its place. -/
theorem InBundle.updCur (h : InBundle s t) {f : Cursor → Cursor}
    (hf : (f t.cur).gpi = t.cur.gpi ∧ (f t.cur).core = t.cur.core ∧ (f t.cur).slot = t.cur.slot) : InBundle s (t.updCur f) := by
  obtain ⟨hg, hc, hs⟩ := hf
  refine ⟨?_, hg.trans h.gpi, hc.trans h.core, hs.trans h.slot⟩
  unfold State.updCur
  rw [h.rest]

theorem InBundle.mark (h : InBundle s t) {c v a : Nat} : InBundle s (t.mark c v a) := h.updCur ⟨rfl, rfl, rfl⟩

theorem InBundle.check (h : InBundle s t) {ok : Bool} {c : Nat} : InBundle s (t.check ok c) := by
  cases ok
  · exact h.mark
  · exact h

theorem InBundle.waitIf (h : InBundle s t) {b : Bool} : InBundle s (t.waitIf b) := by
  cases b
  · exact h
  · exact h.updCur (f := fun c => { c with wait := true }) ⟨rfl, rfl, rfl⟩

theorem InBundle.take (h : InBundle s t) {k : Nat} {peek : Bool} : InBundle s (if peek then t else t.take k) := by
  cases peek
  · exact h.updCur (f := fun c => { c with taken := Cells.put k (Cells.get 0 k c.taken + 1) c.taken }) ⟨rfl, rfl, rfl⟩
  · exact h

theorem InBundle.readS (h : InBundle s t) {q : Nat} {k : Bool} : InBundle s (readS q k t).2 := by
  unfold Machine.readS
  split
  · exact h.mark
  · exact h.take

theorem InBundle.readV (h : InBundle s t) {q : Nat} {k : Bool} : InBundle s (readV q k t).2 := by
  unfold Machine.readV
  split
  · exact h.mark
  · exact h.take

theorem InBundle.readWords (h : InBundle s t) {q n : Nat} : InBundle s (readWords q n t).2 := by
  induction n generalizing t with
  | zero => exact h
  | succ n ih => exact ih h.readS

/-- A check that fails marks the slot that the bundle is in. -/
theorem InBundle.fails (h : InBundle s t) {ok : Bool} (hok : ok = false) (c : Nat) :
    (t.check ok c).cur.marks = t.cur.marks ++ [⟨s.cur.slot, c, 0, 0⟩] := by
  rw [hok, ← h.slot]
  rfl

theorem InBundle.marked (h : InBundle s t) {ok : Bool} (hok : ok = false) (c : Nat) :
    Marked ⟨s.cur.slot, c, 0, 0⟩ (t.check ok c) := by
  unfold Marked
  rw [h.fails hok]
  exact List.mem_append_right _ (List.mem_singleton_self _)

/-! ### Sleeping banks (R37) -/

theorem tileAwake_iff (s : State) (k : Nat) : s.me.tileAwake k = true ↔ awake s k := by
  unfold Part.tileAwake TBank.busy awake Part.bank
  simp only [Bool.and_eq_true, beq_iff_eq, Bool.not_eq_true', Bool.or_eq_false_iff, decide_eq_false_iff_not, not_lt, Nat.le_zero]
  rfl

theorem InBundle.needTile (h : InBundle s t) {k : Nat} (hk : ¬ awake s k) : Marked ⟨s.cur.slot, 0x15, 0, 0⟩ (t.needTile k) :=
  h.marked (by rw [h.me, Bool.eq_false_iff]; exact mt (tileAwake_iff s k).1 hk) _

theorem tileOfASleepingBank_holds : tileOfASleepingBank := by
  intro s t hk asleep a b d k m f z i r
  have h : InBundle s s := .refl s
  exact ⟨⟨_, rfl, (h.readV.readS.needTile hk).emit⟩, ⟨_, rfl, (h.readV.readS.needTile hk).emit⟩,
    ⟨_, rfl, (h.readS.needTile hk).pushElems⟩, ⟨_, rfl, (h.readS.needTile hk).pushElems⟩, ⟨_, rfl, (h.readS.needTile hk).pushElems⟩,
    ⟨_, rfl, (h.readS.needTile hk).pushElems⟩, ⟨_, rfl, (h.readV.needTile hk).pushElems⟩,
    ⟨_, rfl, (h.readS.needTile hk).check.nearIssue.emit⟩, ⟨_, rfl, (h.readS.needTile hk).check.nearIssue⟩⟩

/-! ### Reserved bank groups (R209) -/

theorem reserves_iff (s : State) (a : Nat) : s.myCore.reserves (a / 2 ^ 21) = true ↔ ¬ free s a := by
  unfold Core.reserves free
  simp only [List.any_eq_true, Bool.and_eq_true, decide_eq_true_eq, not_forall]
  constructor
  · rintro ⟨c, hc, ha, hk⟩
    split at hk
    · next r hr =>
      refine ⟨c, hc, r, hr, ha, fun hf => ?_⟩
      rcases Bool.or_eq_true _ _ ▸ hk with e | e
      · exact hf.1 (beq_iff_eq.1 e)
      · exact hf.2 (beq_iff_eq.1 e)
    · exact absurd hk Bool.false_ne_true
  · rintro ⟨c, hc, r, hr, ha, hf⟩
    refine ⟨c, hc, ha, ?_⟩
    rw [hr]
    simp only [Bool.or_eq_true, beq_iff_eq]
    by_contra hn
    exact hf (not_or.1 hn)

theorem InBundle.nearCheck (h : InBundle s t) (hm : t.cur.marks = s.cur.marks) {a : Nat} (ha : ¬ free s a) :
    (nearCheck a t).cur.marks = s.cur.marks ++ [⟨s.cur.slot, 0x18, 0, 0⟩] := by
  unfold Machine.nearCheck
  rw [h.fails (by rw [h.myCore, (reserves_iff s a).2 ha]; rfl), hm]
  rfl

/-- A source that finds its entry takes it and marks nothing. -/
theorem source_quiet {u : State} {a : Nat} {k : Bool} {x : W64} (h : source s a k x u) (hs : InBundle t s) :
    InBundle t u ∧ u.cur.marks = s.cur.marks := by
  obtain ⟨-, rfl⟩ := h
  exact ⟨hs.take (k := a), by cases k <;> rfl⟩

theorem vsource_quiet {u : State} {a : Nat} {k : Bool} {x : V1024} (h : vsource s a k x u) (hs : InBundle t s) :
    InBundle t u ∧ u.cur.marks = s.cur.marks := by
  obtain ⟨-, rfl⟩ := h
  exact ⟨hs.take (k := 32 + a), by cases k <;> rfl⟩

/-- The check of an access whose sources find their entries: with the base read last, in the group that a call reserves. -/
theorem source_conflicts {r u : State} {b : Nat} {k : Bool} {x : W64} {i nf unit : Nat} (hr : InBundle s r)
    (hm : r.cur.marks = s.cur.marks) (hx : source r b k x u) (ha : ¬ free s (offset s x i nf unit)) :
    (nearCheck (nearOffset s (readS b k r).1 i nf unit) (readS b k r).2).cur.marks = s.cur.marks ++ [⟨s.cur.slot, 0x18, 0, 0⟩] := by
  obtain ⟨hu, hq⟩ := source_quiet hx hr
  rw [readS_source hx]
  exact hu.nearCheck (hq.trans hm) ha

theorem emit_marks (l f : Nat) (a : LandAct) (s : State) : (emit l f a s).cur.marks = s.cur.marks := rfl
theorem nearIssue_marks (a : Near) (s : State) : (nearIssue a s).cur.marks = s.cur.marks := rfl

theorem slotTwoBankConflict_holds : slotTwoBankConflict := by
  intro s m b x i conflicts
  have h : InBundle s s := .refl s
  refine ⟨fun u hx => ⟨fun sx d z hf => ?_, fun d hf => ?_, fun t r hw hf => ?_⟩, fun d k v t u hv hx => ?_, fun d k v t u hv hx hf => ?_⟩
  · exact ⟨_, rfl, source_conflicts h rfl hx hf⟩
  · exact ⟨_, rfl, source_conflicts h rfl hx hf⟩
  · have hn : (readS b m s).2.needTile t = (readS b m s).2 := by
      unfold State.needTile
      rw [(h.readS (q := b) (k := m)).me, (tileAwake_iff s t).2 hw]
      rfl
    have hc : (nearCheck (nearOffset s (readS b m s).1 i 6 128) ((readS b m s).2.needTile t)).cur.marks =
        s.cur.marks ++ [⟨s.cur.slot, 0x18, 0, 0⟩] := by
      rw [hn]
      exact source_conflicts h rfl hx hf
    refine ⟨⟨_, rfl, ?_⟩, ⟨_, rfl, ?_⟩⟩
    · exact (emit_marks ..).trans ((nearIssue_marks ..).trans hc)
    · exact (nearIssue_marks ..).trans hc
  · obtain ⟨ht, hm⟩ := source_quiet hv h
    have e : (readS d k s).2 = t := congrArg Prod.snd (readS_source hv)
    have hc : ∀ nf unit, ¬ free s (offset s x i nf unit) →
        (nearCheck (nearOffset s (readS b m (readS d k s).2).1 i nf unit) (readS b m (readS d k s).2).2).cur.marks =
          s.cur.marks ++ [⟨s.cur.slot, 0x18, 0, 0⟩] := fun nf unit hf => by
      rw [e]
      exact source_conflicts ht hm hx hf
    refine ⟨fun z hf => ⟨_, rfl, ?_⟩, fun z o hf => ⟨_, rfl, ?_⟩, fun hk hf => ?_⟩
    · exact (nearIssue_marks ..).trans (hc 11 (2 ^ z) hf)
    · exact (emit_marks ..).trans ((nearIssue_marks ..).trans (hc 8 (if z then 8 else 4) hf))
    · subst hk
      exact ⟨_, rfl, (emit_marks ..).trans ((nearIssue_marks ..).trans (hc 8 4 hf))⟩
  · obtain ⟨ht, hm⟩ := vsource_quiet hv h
    have e : (readV d k s).2 = t := congrArg Prod.snd (readV_vsource hv)
    have hc := source_conflicts ht hm hx hf
    rw [← e] at hc
    exact ⟨_, rfl, hc⟩

/-! ### Calls (R203, R206) -/

theorem mcallFault_causes {loading : Bool} {e c : Nat} (h : mcallFault s loading e = some c) :
    c ∈ [0x1A, 0x1B, 0x1C, 0x18, 0x19] := by
  unfold mcallFault at h
  dsimp only at h
  split_ifs at h <;> cases h <;> decide

theorem queueFull_iff (s : State) : s.myCore.queueFull = true ↔ ¬ roomy s := by
  unfold Core.queueFull roomy
  rw [decide_eq_true_eq, not_lt]
  rfl

theorem enqueue_wait (k : Call) (s : State) : (enqueue k s).cur.wait = (s.waitIf s.myCore.queueFull).cur.wait := by
  unfold enqueue
  dsimp only
  split <;> rfl

/-- The bundle waits. -/
def Waits (s : State) : Prop := s.cur.wait = true

theorem Waits.waitIf (h : Waits s) {b : Bool} : Waits (s.waitIf b) := by
  cases b
  · exact h
  · rfl

theorem waits_waitIf (s : State) {b : Bool} (hb : b = true) : Waits (s.waitIf b) := by
  subst hb
  rfl

theorem Waits.emit (h : Waits s) {l f : Nat} {a : LandAct} : Waits (emit l f a s) := h

theorem Waits.updMe (h : Waits s) {f : Part → Part} : Waits (s.updMe f) := h

theorem Waits.updMyCore (h : Waits s) {f : Core → Core} : Waits (s.updMyCore f) := h

theorem Waits.enqueue (h : Waits s) {k : Call} : Waits (enqueue k s) := (enqueue_wait k s).trans h.waitIf

/-- An entry of a full queue makes its bundle wait. -/
theorem InBundle.enqueue_waits (h : InBundle s t) (hr : ¬ roomy s) {k : Call} : Waits (enqueue k t) :=
  (enqueue_wait k t).trans (waits_waitIf t (by rw [h.myCore]; exact (queueFull_iff s).2 hr))

/-- Is a load of the microprogram store in flight (R206)? -/
def storeLoading (s : State) : Bool := tableInFlight s s.cur.core fun t => t == 2

theorem mcall_refused {p a b r c : Nat} (h : mcallFault s (storeLoading s) (s.myCore.routine r) = some c) :
    execMcall p a b r s = .next (s.mark c 0 0) := by
  unfold storeLoading at h
  unfold execMcall
  dsimp only
  rw [h]

theorem mcall_joins {p a b r : Nat} (h : mcallFault s (storeLoading s) (s.myCore.routine r) = none) :
    ∃ (k : Call) (v : Cells AccTag → Cells AccTag), execMcall p a b r s = .next ((enqueue k (s.waitIf (storeLoading s))).updMyCore fun c => { c with accView := v c.accView }) := by
  unfold storeLoading at h ⊢
  unfold execMcall
  dsimp only
  rw [h]
  exact ⟨_, viewCall (fld (s.myCore.routine r) 10 8) (fld (s.myCore.routine r) 18 8) (pcEa s.me.pcw), rfl⟩

theorem matrixCallsRefusedOrWaiting_holds : matrixCallsRefusedOrWaiting := by
  refine ⟨fun s p a b r c h => ⟨mcallFault_causes h, ?_⟩, fun s hr i hi => ?_, fun s p a b r hw hc => ?_⟩
  · exact mcall_refused h
  · have h : InBundle s s := .refl s
    rcases hi with rfl | rfl | ⟨t, rfl⟩ | ⟨p, a, b, w, q, rfl⟩
    · exact ⟨_, rfl, h.enqueue_waits hr⟩
    · exact ⟨_, rfl, (h.enqueue_waits hr).updMyCore⟩
    · exact ⟨_, rfl, (h.enqueue_waits hr).updMyCore⟩
    · exact ⟨_, rfl, h.readWords.check.enqueue_waits hr⟩
  · have waits : ∀ k, Waits (enqueue k (s.waitIf (storeLoading s))) := fun k => by
      rcases hw with hr | hl
      · exact (InBundle.refl s).waitIf.enqueue_waits hr
      · exact (waits_waitIf s hl).enqueue
    obtain ⟨k, v, e⟩ := mcall_joins (p := p) (a := a) (b := b) hc
    exact ⟨_, e, (waits k).updMyCore⟩

/-! ### Engine commands that wait (R240) -/

theorem cmdLimit_iff (s : State) : s.me.cmdLimit = true ↔ ¬ spacious s := by
  unfold Part.cmdLimit Part.rowsOut spacious
  rw [Bool.or_eq_true, decide_eq_true_eq, decide_eq_true_eq, not_and_or, not_lt, not_lt]
  rfl

/-- A command beyond a limit makes its bundle wait. -/
theorem issueCmd_waits (hm : t.me = s.me) (hs : ¬ spacious s) {f : Cmd → Cmd} {k : EngKind} {n p a b : Nat} {ws : List Nat} :
    Waits (issueCmd f k n p a b ws t) :=
  waits_waitIf t (by rw [hm]; exact (cmdLimit_iff s).2 hs)

theorem InBundle.windowCheck (h : InBundle s t) {a : Nat} {w : Bool} : InBundle s (windowCheck a w t) := by
  unfold Machine.windowCheck
  split
  · split
    · exact h.mark
    · exact h
  · exact h

theorem issueFar_waits (hs : ¬ spacious s) {at_ wr : Bool} {k : EngKind} {f p a b n q : Nat} :
    Waits (issueFar at_ wr k f p a b n q s) := issueCmd_waits (InBundle.refl s).readWords.check.windowCheck.me hs

theorem issueWords_waits (hs : ¬ spacious s) {ok : List Nat → Bool} {k : EngKind} {f p a b n q : Nat} :
    Waits (issueWords ok k f p a b n q s) := issueCmd_waits (InBundle.refl s).check.readWords.check.me hs

theorem issueTable_waits (hs : ¬ spacious s) {tb st top : Nat} {busy : Nat → Bool} {p a b q : Nat} :
    Waits (issueTable tb st top busy p a b q s) := by
  have h : InBundle s (readWords q 1 (noTx s)).2 := (InBundle.refl s).check.readWords
  unfold issueTable
  exact Waits.emit (issueCmd_waits h.check.check.waitIf.me hs)

/-- A TAKE beyond a limit waits, where in a replay run it finds its entry. -/
theorem takeFrom_waits (h : InBundle s t) (hs : ¬ spacious s) {p a b w : Nat}
    (ht : ∀ k, s.ctxOf s.cur.core = some k → (s.ctx k).replaying = true →
      ∃ e, s.findEntry k s.cur.gpi (number s k) = some e ∧ e.getD 0 0 % 16 = 7) : Waits (takeFrom s p a b w t) := by
  have hseq : ∀ k, (t.nextSeq k).1 = number s k := fun k => by
    rw [State.nextSeq, State.seqOf, h.gpi, h.rest]
    rfl
  have hnext : ∀ k, (t.nextSeq k).2.me = s.me := fun k => h.me
  unfold takeFrom
  split
  · exact issueCmd_waits h.me hs
  · next k hk =>
    split_ifs with hrep hrec hfull
    · obtain ⟨e, he, h7⟩ := ht k hk hrep
      rw [hseq, he]
      dsimp only
      have h7' : fld (e.getD 0 0) 0 4 = 7 := by
        unfold fld
        omega
      rw [if_pos h7']
      exact issueCmd_waits (hnext k) hs
    · rfl
    · exact issueCmd_waits (t := ((t.nextSeq k).2.takePlace k).2) (hnext k) hs
    · exact issueCmd_waits h.me hs

/-- Every engine command beyond a limit makes its bundle wait (R240). -/
theorem engineCommands_wait (hs : ¬ spacious s) {p a b f q : Nat} {i : Instr}
    (hi : i ∈ transactional p a b f q ++ nonTransactional p a b q)
    (ht : i = .take p a b q → ∀ k, s.ctxOf s.cur.core = some k → (s.ctx k).replaying = true →
      ∃ e, s.findEntry k s.cur.gpi (number s k) = some e ∧ e.getD 0 0 % 16 = 7) :
    ∃ t, exec i s = .next t ∧ Waits t := by
  have h : InBundle s s := .refl s
  simp only [transactional, nonTransactional, List.mem_append, List.mem_cons, List.not_mem_nil, or_false] at hi
  rcases hi with (rfl | rfl | rfl | rfl | rfl | rfl | rfl) | rfl | rfl | rfl | rfl | rfl | rfl | rfl | rfl | rfl | rfl | rfl | rfl | rfl |
    rfl | rfl
  · exact ⟨_, rfl, issueFar_waits hs⟩
  · exact ⟨_, rfl, issueFar_waits hs⟩
  · exact ⟨_, rfl, issueFar_waits hs⟩
  · exact ⟨_, rfl, issueCmd_waits h.me hs⟩
  · exact ⟨_, rfl, (issueCmd_waits h.check.me hs).updMe⟩
  · exact ⟨_, rfl, issueCmd_waits h.check.readWords.check.me hs⟩
  · exact ⟨_, rfl, (issueCmd_waits h.check.me hs).updMe⟩
  · exact ⟨_, rfl, issueWords_waits hs⟩
  · exact ⟨_, rfl, issueWords_waits hs⟩
  · exact ⟨_, rfl, issueWords_waits hs⟩
  · exact ⟨_, rfl, issueWords_waits hs⟩
  · exact ⟨_, rfl, issueWords_waits hs⟩
  · exact ⟨_, rfl, issueWords_waits hs⟩
  · exact ⟨_, take_next .., takeFrom_waits h.check.readWords.check hs (ht rfl)⟩
  · exact ⟨_, rfl, issueWords_waits hs⟩
  · exact ⟨_, rfl, (issueCmd_waits h.check.me hs).updMe⟩
  · exact ⟨_, rfl, issueTable_waits hs⟩
  · exact ⟨_, rfl, issueTable_waits hs⟩
  · exact ⟨_, rfl, issueTable_waits hs⟩
  · exact ⟨_, rfl, issueTable_waits hs⟩
  · exact ⟨_, rfl, issueTable_waits hs⟩
  · exact ⟨_, rfl, issueWords_waits hs⟩

/-! ### Commands and transactions (R259) -/

theorem txActive_none (s : State) : s.me.txActive.isNone = true ↔ outsideTx s := by
  unfold Part.txActive outsideTx
  rw [Option.isNone_iff_eq_none, Option.filter_eq_none_iff]
  simp only [Bool.not_eq_true', Bool.not_eq_false]
  rfl

theorem Marked.reads (h : Marked m s) {q n : Nat} : Marked m (Machine.readWords q n s).2 := by
  rw [readWords_afterReads]
  exact (afterReads_slot ..).2 h

theorem Marked.issueWords (h : Marked m (noTx s)) {ok : List Nat → Bool} {k : EngKind} {f p a b n q : Nat} :
    Marked m (issueWords ok k f p a b n q s) := by
  have hr : Marked m (Machine.readWords q n (noTx s)).2 := h.reads
  unfold Machine.issueWords
  exact hr.check.issueCmd

theorem Marked.issueTable (h : Marked m (noTx s)) {tb st top : Nat} {busy : Nat → Bool} {p a b q : Nat} :
    Marked m (issueTable tb st top busy p a b q s) := by
  have hr : Marked m (Machine.readWords q 1 (noTx s)).2 := h.reads
  unfold Machine.issueTable
  exact hr.check.check.waitIf.issueCmd.emit

theorem Marked.updMe (h : Marked m s) {f : Part → Part} : Marked m (s.updMe f) := h

/-- Inside a transaction every command that it forbids marks the illegal sequence (R259). -/
theorem forbidden_marks (hs : ¬ outsideTx s) {p a b q : Nat} {i : Instr} (hi : i ∈ .txb p a b :: nonTransactional p a b q) :
    ∃ t, exec i s = .next t ∧ Marked ⟨s.cur.slot, 0x03, 0, 0⟩ t := by
  have h : Marked ⟨s.cur.slot, 0x03, 0, 0⟩ (noTx s) :=
    (InBundle.refl s).marked (by rw [Bool.eq_false_iff]; exact mt (txActive_none s).1 hs) _
  simp only [nonTransactional, List.mem_cons, List.not_mem_nil, or_false] at hi
  rcases hi with rfl | rfl | rfl | rfl | rfl | rfl | rfl | rfl | rfl | rfl | rfl | rfl | rfl | rfl | rfl | rfl
  · exact ⟨_, rfl, h.issueCmd.updMe⟩
  · exact ⟨_, rfl, h.issueWords⟩
  · exact ⟨_, rfl, h.issueWords⟩
  · exact ⟨_, rfl, h.issueWords⟩
  · exact ⟨_, rfl, h.issueWords⟩
  · exact ⟨_, rfl, h.issueWords⟩
  · exact ⟨_, rfl, h.issueWords⟩
  · exact ⟨_, take_next .., h.reads.check.takeFrom⟩
  · exact ⟨_, rfl, h.issueWords⟩
  · exact ⟨_, rfl, h.issueCmd.updMe⟩
  · exact ⟨_, rfl, h.issueTable⟩
  · exact ⟨_, rfl, h.issueTable⟩
  · exact ⟨_, rfl, h.issueTable⟩
  · exact ⟨_, rfl, h.issueTable⟩
  · exact ⟨_, rfl, h.issueTable⟩
  · exact ⟨_, rfl, h.issueWords⟩

/-- Outside one, what ends a transaction marks it too. -/
theorem transactionEnds_mark (hs : outsideTx s) (p a b q : Nat) :
    (∃ t, exec (.txc p a b q) s = .next t ∧ Marked ⟨s.cur.slot, 0x03, 0, 0⟩ t) ∧
      ∃ t, exec (.txa p a b) s = .next t ∧ Marked ⟨s.cur.slot, 0x03, 0, 0⟩ t := by
  have hn : s.me.txActive.isSome = false := Option.isSome_eq_false_iff.2 ((txActive_none s).2 hs)
  have h : Marked ⟨s.cur.slot, 0x03, 0, 0⟩ (s.check s.me.txActive.isSome causeIllegalSequence) := (InBundle.refl s).marked hn _
  exact ⟨⟨_, rfl, h.reads.check.issueCmd⟩, ⟨_, rfl, h.issueCmd.updMe⟩⟩

/-! ### Argument words out of order (R238) -/

/-- The words that a queue gives, whatever marks the bundle has. -/
theorem pops_readWords {q : Nat} {ws : List Nat} {u : State} (h : pops s q ws u) (ht : Marks s t) : (readWords q ws.length t).1 = ws := by
  induction ws generalizing s t with
  | nil => rfl
  | cons w ws ih =>
    obtain ⟨x, v, ⟨hx, rfl⟩, rfl, h⟩ := h
    have hme : t.me = s.me := by rw [ht.2]; rfl
    have htk : t.cur.taken = s.cur.taken := by rw [ht.2]
    have hx' : (Cells.get [] q t.me.sq)[t.takenOf q]? = some x := by
      unfold State.takenOf
      rw [hme, htk]
      exact hx
    rw [List.length_cons, readWords, readS_entry hx']
    exact congrArg _ (ih h (ht.take q false))

theorem issueWords_refused {q : Nat} {ws : List Nat} {u : State} (h : pops s q ws u) {ok : List Nat → Bool} (hok : ok ws = false)
    {k : EngKind} {f p a b n : Nat} (hn : n = ws.length) : Marked ⟨s.cur.slot, 0x1E, 0, 0⟩ (issueWords ok k f p a b n q s) := by
  subst hn
  have hw : (readWords q ws.length (noTx s)).1 = ws := pops_readWords h .check
  refine ((InBundle.refl s).check.readWords.marked ?_ _).issueCmd
  rw [← hok]
  exact congrArg ok hw

/-- The words of FLD, FST and FATOM that are out of order: a reserved bit set, or an operation that there is not (R242). -/
def farWordBad (atomic : Bool) (w : Nat) : Bool :=
  bit w 23 || fld w 37 8 != 0 || decide (2 ^ 50 ≤ w) ||
    (if atomic then fld w 24 13 != 0 || decide (10 ≤ fld w 46 4) else bit w 45 || fld w 46 4 != 0)

theorem issueFar_refused {q : Nat} {ws : List Nat} {u : State} (h : pops s q ws u) {at_ wr : Bool}
    (hbad : farWordBad at_ (ws.getD 1 0) = true) {k : EngKind} {f p a b n : Nat} (hn : n = ws.length) :
    Marked ⟨s.cur.slot, 0x1E, 0, 0⟩ (issueFar at_ wr k f p a b n q s) := by
  subst hn
  have hw : (readWords q ws.length s).1 = ws := pops_readWords h ⟨List.Subset.refl _, rfl⟩
  have hok : (!farWordBad at_ ((readWords q ws.length s).1.getD 1 0)) = false := by rw [hw, hbad]; rfl
  exact ((InBundle.refl s).readWords.marked hok _).windowCheck.issueCmd

/-- The words of table loads in order: no reserved bit set, the first index one of the table's rows (R265). -/
def tableWordOk (tbl step top w : Nat) : Bool :=
  decide (w < 2 ^ 39) && (tbl == 0 || fld w 36 3 == 0) && didx w % step == 0 && decide (didx w ≤ top)

theorem issueTable_refused {q w : Nat} {u : State} (h : pops s q [w] u) {tb st top : Nat} {busy : Nat → Bool}
    (hok : tableWordOk tb st top w = false) {p a b : Nat} : Marked ⟨s.cur.slot, 0x1E, 0, 0⟩ (issueTable tb st top busy p a b q s) := by
  have hw : (readWords q 1 (noTx s)).1 = [w] := pops_readWords h .check
  have hr : InBundle s (readWords q 1 (noTx s)).2 := (InBundle.refl s).check.readWords
  unfold issueTable
  dsimp only
  rw [hw]
  exact (hr.check.marked hok _).waitIf.issueCmd.emit

theorem take_refused {p a b q w : Nat} {u : State} (h : pops s q [w] u) (hw : 2 ^ 23 ≤ w) :
    ∃ t, exec (.take p a b q) s = .next t ∧ Marked ⟨s.cur.slot, 0x1E, 0, 0⟩ t := by
  have e : (readWords q 1 (noTx s)).1 = [w] := pops_readWords h .check
  refine ⟨_, take_next .., ((InBundle.refl s).check.readWords.marked ?_ _).takeFrom⟩
  rw [e]
  exact decide_eq_false (Nat.not_lt.2 hw)

theorem txc_refused {p a b q w : Nat} {u : State} (h : pops s q [w] u) (hw : 2 ^ 23 ≤ w ∨ w % 8 ≠ 0) :
    ∃ t, exec (.txc p a b q) s = .next t ∧ Marked ⟨s.cur.slot, 0x1E, 0, 0⟩ t := by
  have e : (readWords q 1 (s.check s.me.txActive.isSome causeIllegalSequence)).1 = [w] := pops_readWords h .check
  refine ⟨_, rfl, ((InBundle.refl s).check.readWords.marked ?_ _).issueCmd⟩
  rw [e]
  simp only [List.getD_cons_zero, Bool.and_eq_false_iff, decide_eq_false_iff_not, beq_eq_false_iff_ne]
  omega

theorem farWordBad_load {w : Nat} (h : bit w 23 = true ∨ fld w 37 8 ≠ 0 ∨ 2 ^ 45 ≤ w) : farWordBad false w = true := by
  have high : 2 ^ 45 ≤ w → 2 ^ 50 ≤ w ∨ bit w 45 = true ∨ fld w 46 4 ≠ 0 := fun hw => by
    simp only [bit, fld, beq_iff_eq]
    omega
  simp only [farWordBad, Bool.or_eq_true, bne_iff_ne, decide_eq_true_eq, Bool.false_eq_true, if_false]
  tauto

theorem farWordBad_atomic {w : Nat} (h : bit w 23 = true ∨ fld w 24 13 ≠ 0 ∨ fld w 37 8 ≠ 0 ∨ 9 < fld w 46 4 ∨ 2 ^ 50 ≤ w) :
    farWordBad true w = true := by
  simp only [farWordBad, Bool.or_eq_true, bne_iff_ne, decide_eq_true_eq, if_true]
  tauto

theorem tableWordOk_codebook {step top w : Nat} (h : 2 ^ 39 ≤ w ∨ fld w 23 13 % step ≠ 0 ∨ top < fld w 23 13) :
    tableWordOk 0 step top w = false := by
  rw [Bool.eq_false_iff]
  simp only [tableWordOk, didx, ne_eq, Bool.and_eq_true, decide_eq_true_eq, beq_iff_eq]
  rintro ⟨⟨⟨hw, -⟩, hs⟩, hn⟩
  rcases h with h | h | h
  · exact Nat.not_lt.2 h hw
  · exact h hs
  · exact Nat.not_le.2 h (of_decide_eq_true hn)

/-- Of a table that has no banks the bits above the first index are reserved. -/
theorem tableWordOk_unbanked {tbl step top w : Nat} (ht : tbl ≠ 0) (h : 2 ^ 36 ≤ w ∨ fld w 23 13 % step ≠ 0 ∨ top < fld w 23 13) :
    tableWordOk tbl step top w = false := by
  have high : 2 ^ 36 ≤ w → 2 ^ 39 ≤ w ∨ fld w 36 3 ≠ 0 := fun hw => by
    unfold fld
    omega
  rw [Bool.eq_false_iff]
  simp only [tableWordOk, didx, ne_eq, Bool.and_eq_true, Bool.or_eq_true, decide_eq_true_eq, beq_iff_eq]
  rintro ⟨⟨⟨hw, hb⟩, hs⟩, hn⟩
  rcases h with h | h | h
  · exact (high h).elim (Nat.not_le.2 hw) fun k => k (hb.resolve_left ht)
  · exact h hs
  · exact Nat.not_le.2 h (of_decide_eq_true hn)

/-- Is a one-word command refused of a word out of order (R243, R253 to R255, R263, R265)? -/
theorem oneWord_refused {p a b q v : Nat} {u : State} (h : pops s q [v] u) :
    let marks := fun (i : Instr) => ∃ t, exec i s = .next t ∧ Marked ⟨s.cur.slot, 0x1E, 0, 0⟩ t
    let e := Cells.get 0 (fld v 23 4) (s.cluster (s.cur.core / 16)).mcwin
    (2 ^ 23 ≤ v → marks (.copy p a b q) ∧ marks (.take p a b q)) ∧ (2 ^ 23 ≤ v ∨ v % 32 ≠ 0 → marks (.spawn p a b q)) ∧
      (2 ^ 23 ≤ v ∨ v % 8 ≠ 0 → marks (.txc p a b q)) ∧ (2 ^ 56 ≤ v ∨ v % 64 ≠ 0 → marks (.join p a b q)) ∧
      (2 ^ 44 ≤ v ∨ mcMask e = 0 ∨ mcSize e < 16 * fld v 27 12 + 128 * (fld v 39 5 + 1) → marks (.mcst p a b q)) := by
  intro marks e
  refine ⟨fun hv => ⟨⟨_, rfl, issueWords_refused h ?_ rfl⟩, take_refused h hv⟩, fun hv => ⟨_, rfl, issueWords_refused h ?_ rfl⟩,
    fun hv => txc_refused h hv, fun hv => ⟨_, rfl, issueWords_refused h ?_ rfl⟩, fun hv => ⟨_, rfl, issueWords_refused h ?_ rfl⟩⟩
  · exact decide_eq_false (Nat.not_lt.2 hv)
  · simp only [List.getD_cons_zero, Bool.and_eq_false_iff, decide_eq_false_iff_not, beq_eq_false_iff_ne]
    omega
  · simp only [List.getD_cons_zero, Bool.and_eq_false_iff, decide_eq_false_iff_not, beq_eq_false_iff_ne]
    omega
  · rw [Bool.eq_false_iff]
    simp only [ne_eq, Bool.and_eq_true, decide_eq_true_eq, bne_iff_ne]
    rintro ⟨⟨hv', hm⟩, hs⟩
    rcases hv with hv | hv | hv
    · exact Nat.not_lt.2 hv hv'
    · exact hm hv
    · exact Nat.not_le.2 hv hs

theorem tableLoads_refused {p a b q v : Nat} {u : State} (h : pops s q [v] u) :
    let marks := fun (i : Instr) => ∃ t, exec i s = .next t ∧ Marked ⟨s.cur.slot, 0x1E, 0, 0⟩ t
    let n := fld v 23 13
    (2 ^ 39 ≤ v ∨ n % 16 ≠ 0 ∨ 4080 < n → marks (.cbld p a b q)) ∧ (2 ^ 36 ≤ v ∨ n % 4 ≠ 0 ∨ 508 < n → marks (.cwtld p a b q)) ∧
      (2 ^ 36 ≤ v ∨ n % 8 ≠ 0 ∨ 1016 < n → marks (.mpsld p a b q)) ∧ (2 ^ 36 ≤ v ∨ n % 32 ≠ 0 ∨ 768 ≤ n → marks (.gtld p a b q)) ∧
      (2 ^ 36 ≤ v ∨ (n ≠ 0 ∧ n ≠ 32) → marks (.latld p a b q)) := by
  intro marks n
  refine ⟨fun hv => ⟨_, rfl, issueTable_refused h (tableWordOk_codebook hv)⟩,
    fun hv => ⟨_, rfl, issueTable_refused h (tableWordOk_unbanked (by decide) hv)⟩,
    fun hv => ⟨_, rfl, issueTable_refused h (tableWordOk_unbanked (by decide) hv)⟩,
    fun hv => ⟨_, rfl, issueTable_refused h (tableWordOk_unbanked (by decide) ?_)⟩,
    fun hv => ⟨_, rfl, issueTable_refused h (tableWordOk_unbanked (by decide) ?_)⟩⟩
  · change 2 ^ 36 ≤ v ∨ n % 32 ≠ 0 ∨ 736 < n
    omega
  · change 2 ^ 36 ≤ v ∨ n % 32 ≠ 0 ∨ 32 < n
    omega

theorem engineCommandsRefusedOrWaiting_holds : engineCommandsRefusedOrWaiting := by
  intro s p a b marks
  refine ⟨fun hs f q i hi ht => engineCommands_wait hs hi ht, fun q v u h => ?_, fun f q v w u h => ?_, fun f q v w x u h => ?_,
    fun hs q i hi => forbidden_marks hs hi, fun hs q => transactionEnds_mark hs p a b q⟩
  · obtain ⟨hcopy, hspawn, htxc, hjoin, hmcst⟩ := oneWord_refused (p := p) (a := a) (b := b) h
    exact ⟨hcopy, hspawn, htxc, hjoin, hmcst, tableLoads_refused h⟩
  · refine ⟨fun hw => ⟨⟨_, rfl, issueFar_refused h (farWordBad_load hw) rfl⟩, ⟨_, rfl, issueFar_refused h (farWordBad_load hw) rfl⟩⟩,
      fun hw => ⟨_, rfl, issueWords_refused h ?_ rfl⟩, fun hw => ⟨_, rfl, issueWords_refused h (decide_eq_false (Nat.not_lt.2 hw)) rfl⟩⟩
    simp only [List.getD_cons_zero, List.getD_cons_succ, Bool.and_eq_false_iff, decide_eq_false_iff_not, beq_eq_false_iff_ne]
    omega
  · have hok : 2 ^ 56 ≤ v ∨ 2 ^ 46 ≤ w ∨ 2 ^ 56 ≤ x → rowWordsOk [v, w, x] = false := fun hw => by
      simp only [rowWordsOk, List.getD_cons_zero, List.getD_cons_succ, Bool.and_eq_false_iff, decide_eq_false_iff_not]
      omega
    exact ⟨fun hw => ⟨_, rfl, issueFar_refused h (farWordBad_atomic hw) rfl⟩,
      fun hw => ⟨⟨_, rfl, issueWords_refused h (hok hw) rfl⟩, ⟨_, rfl, issueWords_refused h (hok hw) rfl⟩⟩⟩

/-- Settles O26: each refusal is a check that fails after the reads, and each wait stays. -/
theorem banksCallsAndCommandsRefused : Obligations.BanksCallsAndCommandsRefused :=
  ⟨tileOfASleepingBank_holds, slotTwoBankConflict_holds, matrixCallsRefusedOrWaiting_holds, engineCommandsRefusedOrWaiting_holds⟩

end Sys2Proof

/-!
PROOFS. Boot, device reset and the current governor (O48): images accepted or refused, the maps and memories after boot and reset, the
windows of the governor.
-/

namespace Sys2Proof

open Sys2Proof.Machine Sys2Proof.Says

/-! ### What boot makes of the repair record and of worn banks (R343, R358 to R360) -/

/-- A state that differs from s in clusters and cores alone. -/
def OnClusters (s t : State) : Prop := ∃ x y, t = { s with clusters := x, cores := y }

theorem OnClusters.refl (s : State) : OnClusters s s := ⟨_, _, rfl⟩

theorem OnClusters.trans {s t u : State} (h : OnClusters s t) (g : OnClusters t u) : OnClusters s u := by
  obtain ⟨x, y, rfl⟩ := h
  obtain ⟨v, w, rfl⟩ := g
  exact ⟨v, w, rfl⟩

theorem OnClusters.foldl {α : Type} {f : State → α → State} (h : ∀ s x, OnClusters s (f s x)) (l : List α) (s : State) :
    OnClusters s (l.foldl f s) := foldl_related .refl (fun h g => h.trans g) h l s

/-- State t is s with other maps: cores and rows out of service, clusters retired. -/
def Remapped (s t : State) : Prop := OnClusters s t ∧ ∀ n, ∃ o, t.core n = { s.core n with outrow := o }

theorem Remapped.refl (s : State) : Remapped s s := ⟨.refl s, fun _ => ⟨_, rfl⟩⟩

theorem Remapped.trans {s t u : State} (h : Remapped s t) (g : Remapped t u) : Remapped s u := by
  refine ⟨h.1.trans g.1, fun n => ?_⟩
  obtain ⟨o, ho⟩ := h.2 n
  obtain ⟨r, hr⟩ := g.2 n
  exact ⟨r, by rw [hr, ho]⟩

theorem Remapped.foldl {α : Type} {f : State → α → State} (h : ∀ s x, Remapped s (f s x)) (l : List α) (s : State) :
    Remapped s (l.foldl f s) := foldl_related .refl (fun h g => h.trans g) h l s

theorem Remapped.updCluster (s : State) (c : Nat) (f : Cluster → Cluster) : Remapped s (s.updCluster c f) :=
  ⟨⟨_, _, rfl⟩, fun _ => ⟨_, rfl⟩⟩

theorem Remapped.updOutrow (s : State) (n : Nat) (f : Cells Nat → Cells Nat) :
    Remapped s (s.updCore n fun c => { c with outrow := f c.outrow }) := by
  refine ⟨⟨_, _, rfl⟩, fun m => ?_⟩
  rw [State.core_updCore]
  split
  · subst m
    exact ⟨_, rfl⟩
  · exact ⟨_, rfl⟩

theorem applyRepair_remapped (s : State) (w : Nat) : Remapped s (applyRepair s w) := by
  unfold applyRepair
  split
  · exact .updCluster ..
  · exact .updOutrow ..
  · exact .updCluster ..
  · exact .refl s

theorem replaceRows_remapped (s : State) :
    Remapped { s with remap := s.amvin.worn.filter fun b => decide (b.2.length ≤ 8) } (replaceRows s) :=
  .foldl (fun _ _ => .updCluster ..) _ _

/-- A device that boots runs with the maps of its repair record and of its worn banks. -/
theorem repaired_remapped (l : List Nat) (s : State) : Remapped { s with remap := s.amvin.worn.filter fun b => decide (b.2.length ≤ 8) }
    (replaceRows (l.foldl applyRepair s)) := by
  obtain ⟨⟨x, y, e⟩, hc⟩ := Remapped.foldl applyRepair_remapped l s
  obtain ⟨⟨v, w, e'⟩, hd⟩ := replaceRows_remapped (l.foldl applyRepair s)
  refine ⟨⟨v, w, ?_⟩, fun n => ?_⟩
  · rw [e', e]
  · obtain ⟨o, ho⟩ := hc n
    obtain ⟨r, hr⟩ := hd n
    exact ⟨r, hr.trans (congrArg (fun c : Core => { c with outrow := r }) ho)⟩

/-! ### Boot (R343, R375, R377) -/

/-- The root-of-trust controller as boot begins. -/
def Machine.Amvin.unbooted (a : Amvin) : Amvin :=
  { a with boot := .recovery, meas := [], mailbox := Mem.zero, svn := 0, released := false }

/-- The controller with all three images measured and accepted. -/
def Machine.Amvin.booted (a : Amvin) : Amvin :=
  { (({ a.measure 1 with svn := bytesAt (a.imageHeader 1) 8 4 } : Amvin).measure 3).measure 2 with boot := .running, released := true }

theorem booted_meas (a : Amvin) {y : Nat} (h : y ∈ [1, 2, 3]) :
    Cells.get [] y a.booted.meas = Config.sha384 (a.imageHeader y ++ a.imageBody y) := by
  have e : a.booted.meas = Cells.put 2 (Config.sha384 (a.imageHeader 2 ++ a.imageBody 2))
      (Cells.put 3 (Config.sha384 (a.imageHeader 3 ++ a.imageBody 3))
        (Cells.put 1 (Config.sha384 (a.imageHeader 1 ++ a.imageBody 1)) a.meas)) := rfl
  rw [e]
  simp only [List.mem_cons, List.not_mem_nil, or_false] at h
  rcases h with rfl | rfl | rfl <;> simp

/-- Boot with each image accepted or refused: those of a later one are judged as before the earlier are measured. -/
theorem powerOnBoot_next (s : State) : ∃ t, execPowerOnBoot s = .next t ∧
    ((∀ y ∈ [1, 2, 3], s.amvin.unbooted.accepts y = true) →
      t = replaceRows (s.amvin.repair.foldl applyRepair { s.cleared with amvin := s.amvin.unbooted.booted })) ∧
    ((∃ y ∈ [1, 2, 3], s.amvin.unbooted.accepts y = false) → t.amvin.boot = .recovery ∧ t.amvin.released = false) := by
  let a := s.amvin.unbooted
  let b := { a.measure 1 with svn := bytesAt (a.imageHeader 1) 8 4 }
  refine ⟨if !a.accepts 1 then { s.cleared with amvin := a } else if !a.accepts 3 then { s.cleared with amvin := b }
    else if !a.accepts 2 then { s.cleared with amvin := b.measure 3 }
    else replaceRows (a.repair.foldl applyRepair { s.cleared with amvin := a.booted }), rfl, fun h => ?_, ?_⟩
  · rw [h 1 (by decide), h 2 (by decide), h 3 (by decide)]
    rfl
  · rintro ⟨y, hy, h⟩
    split_ifs with h1 h3 h2
    · exact ⟨rfl, rfl⟩
    · exact ⟨rfl, rfl⟩
    · exact ⟨rfl, rfl⟩
    · simp only [List.mem_cons, List.not_mem_nil, or_false] at hy
      rcases hy with rfl | rfl | rfl
      · exact absurd h (by simpa using h1)
      · exact absurd h (by simpa using h2)
      · exact absurd h (by simpa using h3)

/-- After an accepted boot the device runs, with every memory zero and the banks' maps. -/
theorem booted_state (s : State) (a : Amvin) : let t := replaceRows (s.amvin.repair.foldl applyRepair { s.cleared with amvin := a })
    t.amvin = a ∧ t.hbm = Mem.zero ∧ t.kernels = [] ∧ t.ctxen = 0 ∧ (∀ n, (t.core n).slice = Mem.zero) ∧
      t.remap = a.worn.filter fun b => decide (b.2.length ≤ 8) := by
  obtain ⟨⟨x, y, e⟩, hc⟩ := repaired_remapped s.amvin.repair { s.cleared with amvin := a }
  refine ⟨by rw [e], by rw [e]; rfl, by rw [e]; rfl, by rw [e]; rfl, fun n => ?_, by rw [e]⟩
  obtain ⟨o, ho⟩ := hc n
  rw [ho]
  rfl

/-- What refuses an image (R375). -/
theorem accepts_refused {a : Amvin} {y : Nat} (h : bytesAt (a.imageHeader y) 0 4 ≠ 0x4D414750 ∨
      bytesAt (a.imageHeader y) 8 4 < a.counter.toNat ∨
      Config.lmsOk (headerField (a.imageHeader y) 0xA8 56) (headerField (a.imageHeader y) 0 256)
        (headerField (a.imageHeader y) 0x200 3584) = false ∨
      Config.ecdsaOk (headerField (a.imageHeader y) 0x40 97) (Config.sha384 (headerField (a.imageHeader y) 0 256))
        (headerField (a.imageHeader y) 0x100 96) = false) : a.accepts y = false := by
  rw [Bool.eq_false_iff]
  unfold Amvin.accepts
  simp only [ne_eq, Bool.and_eq_true, beq_iff_eq, decide_eq_true_eq]
  rintro ⟨⟨⟨⟨⟨⟨⟨⟨⟨hmagic, -⟩, hsvn⟩, -⟩, -⟩, -⟩, -⟩, hecdsa⟩, hlms⟩, -⟩
  rcases h with h | h | h | h
  · exact h hmagic
  · exact absurd hsvn (Nat.not_le.2 h)
  · exact absurd hlms (by rw [h]; decide)
  · exact absurd hecdsa (by rw [h]; decide)

/-! ### Device reset (R20) -/

/-- A core after a reset, with what of the old one a reset keeps. -/
def keptCore (x y : Core) : Core := { x with imem := y.imem, slice := y.slice, side := y.side, outrow := y.outrow }

theorem foldl_kept {l : Cells Core} (h : (l.map Prod.fst).Nodup) (u : State) (n : Nat) :
    (l.foldl (fun u c => u.updCore c.1 fun x => keptCore x c.2) u).core n =
      if n ∈ l.map Prod.fst then keptCore (u.core n) (Cells.get Core.initial n l) else u.core n := by
  induction l generalizing u with
  | nil => rfl
  | cons e l ih =>
    obtain ⟨he, hl⟩ := List.nodup_cons.1 h
    rw [List.foldl_cons, ih hl, State.core_updCore, Cells.get]
    by_cases hn : n = e.1
    · subst hn
      simp [he]
    · rw [if_neg hn, if_neg hn]
      exact if_congr (by simp [hn]) rfl rfl

/-- The state of a reset before the cores have their memories back. -/
def resetMaps (s : State) : State :=
  s.clusters.foldl (fun u c => u.updCluster c.1 fun x => { x with out := c.2.out, dead := c.2.dead })
    { s.cleared with hbm := s.hbm, peers := s.peers, remap := s.remap }

theorem deviceReset_next (s : State) :
    execDeviceReset s = .next (s.cores.foldl (fun u c => u.updCore c.1 fun x => keptCore x c.2) (resetMaps s)) := rfl

theorem resetMaps_onClusters (s : State) :
    OnClusters { s.cleared with hbm := s.hbm, peers := s.peers, remap := s.remap } (resetMaps s) :=
  .foldl (fun _ _ => ⟨_, _, rfl⟩) _ _

theorem resetMaps_core (s : State) (n : Nat) : (resetMaps s).core n = Core.initial := by
  refine (foldl_keeps _ (fun t : State => t.core n) (fun _ _ => ?_) _ _).trans ?_ <;> rfl

theorem deviceReset_onClusters {s t : State} (h : execDeviceReset s = .next t) :
    OnClusters { s.cleared with hbm := s.hbm, peers := s.peers, remap := s.remap } t := by
  rw [deviceReset_next] at h
  cases h
  exact (resetMaps_onClusters s).trans (.foldl (fun _ _ => ⟨_, _, rfl⟩) _ _)

/-- A core that a reset finds listed once has its memories and nothing else of before. -/
theorem deviceReset_core {s t : State} (h : execDeviceReset s = .next t) (hn : (s.cores.map Prod.fst).Nodup) (n : Nat) :
    t.core n = keptCore Core.initial (s.core n) := by
  rw [deviceReset_next] at h
  cases h
  rw [foldl_kept hn, resetMaps_core]
  split
  · rfl
  · rw [State.core, Cells.get_unlisted ‹_›]
    rfl

/-! ### The governor (R378) -/

/-- The cores over their limit on this clock. -/
def hotCores (s : State) : List Nat :=
  ((s.cores.map fun c => (c.1, c.2.charged)).filter fun c => decide (s.limitOf (clusterOf c.1) < c.2.window.sum)).map Prod.fst

theorem mem_hotCores {s : State} {n : Nat} : n ∈ hotCores s ↔
    ∃ d, (n, d) ∈ s.cores ∧ (s.cluster (n / 16)).limit / (if s.alarm then 2 else 1) < d.charged.window.sum := by
  simp only [hotCores, List.mem_map, List.mem_filter, decide_eq_true_eq]
  constructor
  · rintro ⟨_, ⟨⟨⟨m, d⟩, hd, rfl⟩, hl⟩, rfl⟩
    exact ⟨d, hd, hl⟩
  · rintro ⟨d, hd, hl⟩
    exact ⟨_, ⟨⟨(n, d), hd, rfl⟩, hl⟩, rfl⟩

/-- The core numbered n after the governor's clock: frozen where it is over its limit, or its lockstep cluster has one that is. -/
def governed (s : State) (n : Nat) (c : Core) : Core :=
  { c.charged with frozen := (hotCores s).contains n || (c.lock && (hotCores s).any fun m => clusterOf m == clusterOf n) }

theorem governorClock_next (s : State) :
    execGovernorClock s = .next { s with cores := s.cores.map fun c => (c.1, governed s c.1 c.2) } := by
  unfold execGovernorClock
  dsimp only
  rw [List.map_map]
  rfl

theorem governed_frozen (s : State) (n : Nat) (c : Core) : (governed s n c).frozen = true ↔
    n ∈ hotCores s ∨ (c.lock = true ∧ ∃ m, m / 16 = n / 16 ∧ m ∈ hotCores s) := by
  simp only [governed, Bool.or_eq_true, Bool.and_eq_true, List.contains_iff_mem, List.any_eq_true, beq_iff_eq, clusterOf,
    and_comm (a := _ ∈ hotCores s)]

/-- Interrupts are delivered, or held, as R363 says. -/
theorem raise_eq_rung (i : Nat) (s : State) : s.raise i = rung i s := by
  unfold State.raise rung
  simp only [List.contains_iff_mem]

/-- Settles O48: images are judged by what boot leaves alone, a reset keeps the memories, and the governor adds up windows. -/
theorem bootResetAndGovernor : Obligations.BootResetAndGovernor := by
  unfold Obligations.BootResetAndGovernor
  refine ⟨?_, fun s => ?_, fun s => ?_, fun _ => rfl, fun s h => ?_⟩
  · rintro s a rfl
    obtain ⟨t, e, hok, hno⟩ := powerOnBoot_next s
    refine ⟨fun h1 h2 h3 => ?_, fun h => ⟨t, e, hno h⟩, fun y h => accepts_refused h⟩
    obtain ⟨ha, hhbm, hker, hen, hsl, hmap⟩ := booted_state s s.amvin.unbooted.booted
    have h : ∀ y ∈ [1, 2, 3], s.amvin.unbooted.accepts y = true := by
      simp only [List.mem_cons, List.not_mem_nil, or_false]
      rintro y (rfl | rfl | rfl)
      · exact h1
      · exact h2
      · exact h3
    rw [← hok h] at ha hhbm hker hen hsl hmap
    exact ⟨t, e, by rw [ha]; rfl, by rw [ha]; rfl, hhbm, hker, hen, hsl, hmap, fun y hy => by rw [ha]; exact booted_meas _ hy⟩
  · obtain ⟨x, y, e⟩ := deviceReset_onClusters (deviceReset_next s)
    refine ⟨_, deviceReset_next s, by rw [e], by rw [e]; rfl, by rw [e]; rfl, by rw [e]; rfl, by rw [e]; rfl, by rw [e]; rfl,
      by rw [e]; rfl, by rw [e]; rfl, by rw [e]; rfl, fun hn n => ?_⟩
    rw [deviceReset_core (deviceReset_next s) hn]
    exact ⟨rfl, rfl, rfl⟩
  · refine ⟨_, governorClock_next s, (List.map_map ..).trans rfl, ?_⟩
    intro w hot n x hx
    obtain ⟨⟨m, c⟩, hc, e⟩ := List.mem_map.1 hx
    cases e
    refine ⟨c, hc, rfl, rfl, rfl, (governed_frozen s m c).trans ?_⟩
    simp only [mem_hotCores]
    rfl
  · have hnone : (s.activeCtxs.filter fun k => (s.ctx k).lock) = [] := by
      simp only [List.filter_eq_nil_iff, State.activeCtxs, List.mem_filter, List.mem_range]
      rintro k ⟨hk, ha⟩
      simp [h k hk ha]
    unfold exec execThermalAlarmBegin
    dsimp only
    rw [hnone]
    exact congrArg _ (raise_eq_rung ..)

end Sys2Proof

end

section
/-!
PROOFS. Words and their instructions (O54, O55, O56): a word is laid out as pieces, bits its row fixes and fields; writing the pieces and
reading them undo each other.
-/

/- Elaborated in turn, as the file before. -/
set_option Elab.async false

namespace Sys2Proof.Words

/-! ### Layouts (R65, R220) -/

/-- A piece of a word: bits that its row fixes, a field with its value, or a single bit that is a field. -/
inductive Piece where
  | fix (n : Nat)
  | num (v n : Nat)
  | flag (b : Bool)

open Piece

/-- The pieces of an instruction's word, lowest first; the fixed bits' values stand in the constant of its encoding, a micro-operation's
opcode is a field. -/
def layout : Instr → List Piece
  | .add d a b k m | .sub d a b k m | .and d a b k m | .or d a b k m | .xor d a b k m | .andn d a b k m | .shl d a b k m
  | .shr d a b k m | .sra d a b k m | .min d a b k m | .max d a b k m | .minu d a b k m | .maxu d a b k m | .addss d a b k m
  | .subss d a b k m | .mul d a b k m | .mulh d a b k m | .mulhu d a b k m | .fmin d a b k m | .fmax d a b k m | .feq d a b k m
  | .flt d a b k m | .fle d a b k m | .funord d a b k m | .ceq d a b k m | .cne d a b k m | .clt d a b k m | .cle d a b k m
  | .cltu d a b k m | .cleu d a b k m => [fix 7, flag m, flag k, num b 5, num a 5, num d 5, fix 6, fix 2]
  | .mov d a k | .fabs d a k | .fneg d a k | .clz d a k | .ctz d a k | .popc d a k | .jrl d a k =>
    [fix 8, flag k, fix 5, num a 5, num d 5, fix 6, fix 2]
  | .addi d a k i => [num i 13, flag k, num a 5, num d 5, fix 6, fix 2]
  | .lui d s i => [num i 13, fix 1, num s 5, num d 5, fix 6, fix 2]
  | .fadd d a b k m r | .fsub d a b k m r | .fmul d a b k m r | .fdiv d a b k m r =>
    [fix 5, flag r, fix 1, flag m, flag k, num b 5, num a 5, num d 5, fix 6, fix 2]
  | .fsqrt d a k r => [fix 5, flag r, fix 2, flag k, fix 5, num a 5, num d 5, fix 6, fix 2]
  | .ceqi p a k i | .cnei p a k i | .clti p a k i | .cltui p a k i => [num i 13, flag k, num a 5, num p 3, fix 2, fix 6, fix 2]
  | .sel d a b k m p => [num p 3, fix 4, flag m, flag k, num b 5, num a 5, num d 5, fix 6, fix 2]
  | .shli d a n k h | .shri d a n k h | .srai d a n k h => [flag h, fix 7, flag k, num n 5, num a 5, num d 5, fix 6, fix 2]
  | .pand d a b | .por d a b | .pxor d a b | .pandn d a b => [fix 9, num b 5, num a 5, num d 5, fix 6, fix 2]
  | .pnot d a | .qcnt d a | .qcntV d a | .qcntVn d a => [fix 14, num a 5, num d 5, fix 6, fix 2]
  | .pset d | .pclr d | .lcnt d | .rdcyc d | .rdfrz d | .rdid d | .rdpix d => [fix 19, num d 5, fix 6, fix 2]
  | .cvtif d a k r | .cvtuf d a k r | .cvtwf d a k r | .cvtfi d a k r | .cvtfu d a k r | .cvtfw d a k r | .cvtfwu d a k r =>
    [fix 3, flag r, fix 4, flag k, fix 5, num a 5, num d 5, fix 6, fix 2]
  | .addx d a b k m s | .subx d a b k m s => [num s 3, fix 4, flag m, flag k, num b 5, num a 5, num d 5, fix 6, fix 2]
  | .brt p d | .brf p d | .callt p d | .callf p d | .brswt p d | .brswf p d => [num d 13, fix 7, num p 3, fix 1, fix 6, fix 2]
  | .jump d | .call d | .brsw d => [num d 13, fix 11, fix 6, fix 2]
  | .jr a k => [fix 8, flag k, fix 5, num a 5, fix 5, fix 6, fix 2]
  | .loop c d => [num d 13, num c 10, fix 1, fix 6, fix 2]
  | .loopQ k q d => [num d 13, num q 5, fix 4, flag k, fix 1, fix 6, fix 2]
  | .lpop | .lclr | .ifence | .eret | .halt => [fix 24, fix 6, fix 2]
  | .pblk p t l => [fix 10, num l 3, num t 8, num p 3, fix 6, fix 2]
  | .qclr a | .qclrV a | .qclrVn a => [fix 14, num a 5, fix 5, fix 6, fix 2]
  | .pfork m i => [num i 13, fix 2, num m 3, fix 6, fix 6, fix 2]
  | .pjoin s => [fix 14, num s 2, fix 8, fix 6, fix 2]
  | .sempost s n | .semwait s n => [num n 12, fix 2, num s 2, fix 8, fix 6, fix 2]
  | .barw c u => [num u 6, fix 13, num c 2, fix 3, fix 6, fix 2]
  | .crget d c => [num c 8, fix 11, num d 5, fix 6, fix 2]
  | .crset a k c => [num c 8, fix 5, flag k, num a 5, fix 5, fix 6, fix 2]
  | .trap c => [num c 8, fix 16, fix 6, fix 2]
  | .addQ d a b k m | .subQ d a b k m | .andQ d a b k m | .orQ d a b k m | .xorQ d a b k m | .andnQ d a b k m | .shlQ d a b k m
  | .shrQ d a b k m | .sraQ d a b k m | .minQ d a b k m | .maxQ d a b k m | .minuQ d a b k m | .maxuQ d a b k m
  | .addssQ d a b k m | .subssQ d a b k m | .mulQ d a b k m | .mulhQ d a b k m | .mulhuQ d a b k m | .fminQ d a b k m
  | .fmaxQ d a b k m | .feqQ d a b k m | .fltQ d a b k m | .fleQ d a b k m | .funordQ d a b k m | .ceqQ d a b k m
  | .cneQ d a b k m | .cltQ d a b k m | .cleQ d a b k m | .cltuQ d a b k m | .cleuQ d a b k m | .vand d a b k m | .vor d a b k m
  | .vxor d a b k m | .vandn d a b k m | .vpermt d a b k m | .vlmul d a b k m | .vldiv d a b k m | .vladd d a b k m
  | .vlsub d a b k m | .vtwr d a b k m => [fix 6, flag m, flag k, num b 6, num a 6, num d 6, fix 6]
  | .movQ d a k | .fabsQ d a k | .fnegQ d a k | .clzQ d a k | .ctzQ d a k | .popcQ d a k | .vnot d a k | .vlsqrt d a k
  | .vlneg d a k | .vlabs d a k | .vmov d a k | .tfind d a k => [fix 7, flag k, fix 6, num a 6, num d 6, fix 6]
  | .addiQ d a k i => [num i 13, flag k, num a 6, num d 6, fix 6]
  | .luiQ d s i => [num i 13, fix 1, num s 6, num d 6, fix 6]
  | .faddQ d a b k m r | .fsubQ d a b k m r | .fmulQ d a b k m r | .fdivQ d a b k m r =>
    [fix 5, flag r, flag m, flag k, num b 6, num a 6, num d 6, fix 6]
  | .fsqrtQ d a k r => [fix 5, flag r, fix 1, flag k, fix 6, num a 6, num d 6, fix 6]
  | .ceqiQ p a k i | .cneiQ p a k i | .cltiQ p a k i | .cltuiQ p a k i => [num i 13, flag k, num a 6, num p 3, fix 3, fix 6]
  | .selQ d a b k m p => [num p 3, fix 3, flag m, flag k, num b 6, num a 6, num d 6, fix 6]
  | .shliQ d a n k h | .shriQ d a n k h | .sraiQ d a n k h => [flag h, fix 6, flag k, num n 5, fix 1, num a 6, num d 6, fix 6]
  | .pandQ d a b | .porQ d a b | .pxorQ d a b | .pandnQ d a b | .mand d a b | .mor d a b | .mxor d a b | .mandn d a b =>
    [fix 8, num b 6, num a 6, num d 6, fix 6]
  | .pnotQ d a | .mnot d a | .mcnt d a => [fix 14, num a 6, num d 6, fix 6]
  | .psetQ d | .pclrQ d | .mset d | .mclr d => [fix 20, num d 6, fix 6]
  | .cvtifQ d a k r | .cvtufQ d a k r | .cvtwfQ d a k r | .cvtfiQ d a k r | .cvtfuQ d a k r | .cvtfwQ d a k r | .cvtfwuQ d a k r =>
    [fix 3, flag r, fix 3, flag k, fix 6, num a 6, num d 6, fix 6]
  | .addxQ d a b k m s | .subxQ d a b k m s => [num s 3, fix 3, flag m, flag k, num b 6, num a 6, num d 6, fix 6]
  | .vadd d a b k m t | .vsub d a b k m t | .vmul d a b k m t | .vmin d a b k m t | .vmax d a b k m t | .vadds d a b k m t
  | .vsubs d a b k m t | .vmulhi d a b k m t => [num t 3, fix 3, flag m, flag k, num b 6, num a 6, num d 6, fix 6]
  | .vsplati d v z => [num z 2, fix 2, num v 9, fix 7, num d 6, fix 6]
  | .vaddi d a k v z | .vshli d a k v z | .vsrai d a k v z => [num z 2, fix 2, num v 9, flag k, num a 6, num d 6, fix 6]
  | .vfadd d a b k m t | .vfsub d a b k m t | .vfmul d a b k m t | .vfma d a b k m t | .vfmin d a b k m t | .vfmax d a b k m t =>
    [fix 4, num t 2, flag m, flag k, num b 6, num a 6, num d 6, fix 6]
  | .vfabs d a k t | .vfneg d a k t => [fix 4, num t 2, fix 1, flag k, fix 6, num a 6, num d 6, fix 6]
  | .vshl d a b k m z | .vshr d a b k m z | .vsra d a b k m z | .vperm d a b k m z | .vext d a b k m z =>
    [num z 2, fix 4, flag m, flag k, num b 6, num a 6, num d 6, fix 6]
  | .vcmp d a b k m c t => [num t 3, num c 3, flag m, flag k, num b 6, num a 6, num d 3, fix 3, fix 6]
  | .vred d a g k o t => [num t 3, fix 1, num o 2, fix 1, flag k, num g 3, fix 3, num a 6, num d 6, fix 6]
  | .vmaxe a k c t => [num t 2, flag c, fix 4, flag k, fix 6, num a 6, fix 6, fix 6]
  | .vcvt d a s k f => [num f 4, fix 3, flag k, num s 4, fix 2, num a 6, num d 6, fix 6]
  | .vqnt d a k s f => [num f 4, flag s, fix 2, flag k, fix 6, num a 6, num d 6, fix 6]
  | .vcvtsr d a b k m s f => [num f 4, num s 2, flag m, flag k, num b 6, num a 6, num d 6, fix 6]
  | .vcbx d a b k t | .vcbn d a b k t => [num t 2, fix 5, flag k, num b 3, fix 3, num a 6, num d 6, fix 6]
  | .vrng d a k f => [num f 2, fix 11, flag k, num a 6, num d 6, fix 6]
  | .vtwrCvt d a b k m f => [num f 4, fix 2, flag m, flag k, num b 6, num a 6, num d 6, fix 6]
  | .vtrd d a b m => [fix 6, flag m, fix 1, num b 6, num a 6, num d 6, fix 6]
  | .vtrdCvt d a b m f | .vtcrCvt d a b m f => [num f 4, fix 2, flag m, fix 1, num b 6, num a 6, num d 6, fix 6]
  | .vtcr d a b m z => [num z 2, fix 4, flag m, fix 1, num b 6, num a 6, num d 6, fix 6]
  | .vct8 d a b k f => [num f 4, fix 3, flag k, num b 6, num a 6, num d 6, fix 6]
  | .vacrd d a b m f => [num f 4, fix 2, flag m, fix 1, num b 6, num a 3, fix 3, num d 6, fix 6]
  | .vsplat d a k z => [num z 2, fix 5, flag k, fix 6, num a 6, num d 6, fix 6]
  | .vsel d a b k m j => [num j 3, fix 3, flag m, flag k, num b 6, num a 6, num d 6, fix 6]
  | .mcall p a b r => [fix 2, num r 6, num b 6, num a 6, num p 6, fix 6]
  | .mpset n a k | .mpadd n a k => [fix 7, flag k, fix 6, num a 6, num n 3, fix 3, fix 6]
  | .mpget d n => [fix 14, num n 3, fix 3, num d 6, fix 6]
  | .pcwset a k | .pcwmem a k | .gsset a k | .twany a k | .twall a k | .tclr a k => [fix 7, flag k, fix 6, num a 6, fix 6, fix 6]
  | .scld g a k => [fix 13, flag k, num a 6, num g 2, fix 4, fix 6]
  | .scldi x v => [num v 13, fix 7, num x 4, fix 2, fix 6]
  | .wswap | .aclrAll => [fix 26, fix 6]
  | .aclr t => [fix 20, num t 3, fix 3, fix 6]
  | .acdrn p a b w q => [num q 5, flag w, fix 2, num b 6, num a 6, num p 6, fix 6]
  | .fld p a b f q | .fst p a b f q | .fatom p a b f q => [num q 5, num f 3, num b 6, num a 6, num p 6, fix 6]
  | .copy p a b q | .gath p a b q | .scat p a b q | .mcst p a b q | .cgath p a b q | .txc p a b q | .spawn p a b q
  | .take p a b q | .join p a b q | .cbld p a b q | .cwtld p a b q | .mpsld p a b q | .gtld p a b q | .latld p a b q
  | .ovld p a b q => [num q 5, fix 3, num b 6, num a 6, num p 6, fix 6]
  | .drn p a b f => [fix 5, num f 3, num b 6, num a 6, num p 6, fix 6]
  | .txb p a b | .txa p a b | .ckpt p a b => [fix 8, num b 6, num a 6, num p 6, fix 6]
  | .cbsel n => [fix 20, num n 3, fix 3, fix 6]
  | .lds x d m b i z => [num z 2, num i 11, fix 1, num b 5, flag m, num d 5, flag x, fix 6]
  | .sts d m b k i z => [num z 2, num i 11, flag k, num b 5, flag m, num d 5, fix 1, fix 6]
  | .ldv d m b i => [num i 13, fix 1, num b 5, flag m, num d 6, fix 6]
  | .stv d m b k i => [num i 13, flag k, num b 5, flag m, num d 6, fix 6]
  | .ldt t m b i r | .stt t m b i r => [num r 7, num i 6, fix 1, num b 5, flag m, num t 4, fix 2, fix 6]
  | .natom q m b k i z o => [num o 4, flag z, num i 8, flag k, num b 5, flag m, num q 5, fix 1, fix 6]
  | .ncas q m b i => [fix 5, num i 8, fix 1, num b 5, flag m, num q 5, fix 1, fix 6]
  | .uUnop => [num 0x00 6, fix 122]
  | .uWld pa pb bk tr h => [num 0x01 6, num pa 3, num pb 3, fix 13, flag bk, flag tr, fix 37, flag h, fix 63]
  | .uWsw => [num 0x02 6, fix 122]
  | .uWz bk => [num 0x03 6, fix 19, flag bk, fix 102]
  | .uStrm acc row cnt pa osel => [num 0x04 6, num pa 3, fix 3, num acc 3, num row 5, num cnt 5, fix 7, num osel 32, fix 64]
  | .uStrmz acc row cnt pa osel => [num 0x05 6, num pa 3, fix 3, num acc 3, num row 5, num cnt 5, fix 7, num osel 32, fix 64]
  | .uAclr acc => [num 0x06 6, fix 6, num acc 3, fix 113]
  | .uDrn acc row cnt pa => [num 0x07 6, num pa 3, fix 3, num acc 3, num row 5, num cnt 5, fix 103]
  | .uAst acc row cnt pa => [num 0x08 6, num pa 3, fix 3, num acc 3, num row 5, num cnt 5, fix 103]
  | .uAaddm acc row cnt pa => [num 0x09 6, num pa 3, fix 3, num acc 3, num row 5, num cnt 5, fix 103]
  | .uAadd acc row cnt pb => [num 0x0A 6, fix 3, num pb 3, num acc 3, num row 5, num cnt 5, fix 103]
  | .uAdv pa imm => [num 0x0B 6, num pa 3, fix 55, num imm 16, fix 48]
  | .uAdvs pa imm => [num 0x0C 6, num pa 3, fix 55, num imm 16, fix 48]
  | .uMovp pa pb => [num 0x0D 6, num pa 3, num pb 3, fix 116]
  | .uIdxl pb => [num 0x0E 6, fix 3, num pb 3, fix 116]
  | .uIdxa imm => [num 0x0F 6, fix 58, num imm 16, fix 48]
  | .uMems imm => [num 0x10 6, fix 58, num imm 16, fix 48]
  | .uMema imm => [num 0x11 6, fix 58, num imm 16, fix 48]
  | .uLset lc imm => [num 0x12 6, fix 6, num lc 2, fix 50, num imm 16, fix 48]
  | .uLdec lc tgt => [num 0x13 6, fix 6, num lc 2, fix 66, num tgt 10, fix 38]
  | .uJmp tgt => [num 0x14 6, fix 74, num tgt 10, fix 38]
  | .uWait imm => [num 0x15 6, fix 58, num imm 16, fix 48]
  | .uSync => [num 0x16 6, fix 122]
  | .uEnd => [num 0x17 6, fix 122]
  | .nop => [fix 24, fix 6, fix 2]
  | _ => []

/-- The bits of a layout. -/
def width : List Piece → Nat
  | [] => 0
  | fix n :: r => n + width r
  | num _ n :: r => n + width r
  | flag _ :: r => 1 + width r

/-- The fields of pieces that start at bit o, with their places, before those of l. -/
def fields (o : Nat) : List Piece → List (Nat × Nat) → List (Nat × Nat)
  | [], l => l
  | fix n :: r, l => fields (o + n) r l
  | num v n :: r, l => fields (o + n) r ((v, o) :: l)
  | flag b :: r, l => fields (o + 1) r ((b2n b, o) :: l)

/-- The number that pieces starting at bit o make up, the fixed bits being those of c. -/
def word (c o : Nat) : List Piece → Nat
  | [] => 0
  | fix n :: r => c / 2 ^ o % 2 ^ n + 2 ^ n * word c (o + n) r
  | num v n :: r => v + 2 ^ n * word c (o + n) r
  | flag b :: r => b2n b + 2 ^ 1 * word c (o + 1) r

/-- From bit o on, c has no bit outside the fixed pieces. -/
def clear (c o : Nat) : List Piece → Bool
  | [] => c / 2 ^ o == 0
  | fix n :: r => clear c (o + n) r
  | num _ n :: r => c / 2 ^ o % 2 ^ n == 0 && clear c (o + n) r
  | flag _ :: r => c / 2 ^ o % 2 ^ 1 == 0 && clear c (o + 1) r

/-- Every field fits its bits. -/
def Fits : List Piece → Prop
  | [] => True
  | fix _ :: r => Fits r
  | num v n :: r => v < 2 ^ n ∧ Fits r
  | flag _ :: r => Fits r

/-- From bit o on, w has the fixed bits of c and the values of the fields. -/
def Agrees (c w o : Nat) : List Piece → Prop
  | [] => True
  | fix n :: r => fld w o n = c / 2 ^ o % 2 ^ n ∧ Agrees c w (o + n) r
  | num v n :: r => v = fld w o n ∧ Agrees c w (o + n) r
  | flag b :: r => b = bit w o ∧ Agrees c w (o + 1) r

/-! ### Writing -/

theorem putFields_add (x y : Nat) (l : List (Nat × Nat)) : putFields (x + y) l = putFields x l + y := by
  induction l generalizing x with
  | nil => rfl
  | cons e l ih =>
    show putFields (x + y + _) l = _
    rw [Nat.add_right_comm, ih]
    rfl

/-- The bits of a number from o on, n of them set apart. -/
theorem div_split (c o n : Nat) : c / 2 ^ o = c / 2 ^ o % 2 ^ n + 2 ^ n * (c / 2 ^ (o + n)) := by
  rw [Nat.pow_add, ← Nat.div_div_eq_div_mul, Nat.mod_add_div]

theorem putFields_fields {c o : Nat} {ps : List Piece} (h : clear c o ps = true) (x : Nat) (l : List (Nat × Nat)) :
    putFields (x + 2 ^ o * (c / 2 ^ o)) (fields o ps l) = putFields x l + 2 ^ o * word c o ps := by
  induction ps generalizing o x l with
  | nil => rw [eq_of_beq h]; rfl
  | cons p r ih =>
    cases p with
    | fix n =>
      have e := ih h (x + 2 ^ o * (c / 2 ^ o % 2 ^ n)) l
      rw [putFields_add x] at e
      rw [div_split c o n, Nat.mul_add, ← Nat.mul_assoc, ← Nat.pow_add, ← Nat.add_assoc]
      refine e.trans ?_
      rw [word, Nat.mul_add, ← Nat.mul_assoc, ← Nat.pow_add, Nat.add_assoc]
    | num v n =>
      obtain ⟨h0, h⟩ := Bool.and_eq_true_iff.1 h
      have e := ih h x ((v, o) :: l)
      rw [div_split c o n, eq_of_beq h0, Nat.zero_add, ← Nat.mul_assoc, ← Nat.pow_add]
      refine e.trans ?_
      rw [putFields, putFields_add, word, Nat.mul_add, ← Nat.mul_assoc, ← Nat.pow_add, Nat.mul_comm v, Nat.add_assoc]
    | flag b =>
      obtain ⟨h0, h⟩ := Bool.and_eq_true_iff.1 h
      have e := ih h x ((b2n b, o) :: l)
      rw [div_split c o 1, eq_of_beq h0, Nat.zero_add, ← Nat.mul_assoc, ← Nat.pow_add]
      refine e.trans ?_
      rw [putFields, putFields_add, word, Nat.mul_add, ← Nat.mul_assoc, ← Nat.pow_add, Nat.mul_comm (b2n b), Nat.add_assoc]

/-- A word's sum of fields is the number that its pieces make up. -/
theorem putFields_eq_word {c : Nat} {ps : List Piece} (h : clear c 0 ps = true) : putFields c (fields 0 ps []) = word c 0 ps := by
  simpa [putFields] using putFields_fields h 0 []

/-! ### Reading -/

theorem word_lt {ps : List Piece} (h : Fits ps) (c o : Nat) : word c o ps < 2 ^ width ps := by
  induction ps generalizing o with
  | nil => exact Nat.one_pos
  | cons p r ih =>
    cases p with
    | fix n => exact fld_lt (Nat.mod_lt _ (Nat.two_pow_pos n)) (ih h _)
    | num v n => exact fld_lt h.1 (ih h.2 _)
    | flag b => exact fld_lt (b2n_lt b) (ih h _)

/-- n bits of pieces that start at bit o, from their bit lo on. -/
def read (c o lo n : Nat) : List Piece → Nat
  | [] => 0
  | fix k :: r =>
    if k ≤ lo then read c (o + k) (lo - k) n r
    else if lo + n ≤ k then c / 2 ^ (o + lo) % 2 ^ n
    else 2 ^ (k - lo) * read c (o + k) 0 (lo + n - k) r + c / 2 ^ (o + lo) % 2 ^ (k - lo)
  | num v k :: r =>
    if k ≤ lo then read c (o + k) (lo - k) n r
    else if lo = 0 ∧ n = k then v
    else if lo + n ≤ k then fld v lo n
    else fld v lo (k - lo) + 2 ^ (k - lo) * read c (o + k) 0 (lo + n - k) r
  | flag b :: r =>
    if 1 ≤ lo then read c (o + 1) (lo - 1) n r
    else if n = 0 then 0
    else b2n b + 2 * read c (o + 1) 0 (n - 1) r

theorem fld_zero_width (x lo : Nat) : fld x lo 0 = 0 := Nat.mod_one _

/-- A window that ends in the low part. -/
theorem fld_low {v k x lo n : Nat} (h : lo + n ≤ k) : fld (v + 2 ^ k * x) lo n = fld v lo n := by
  obtain ⟨j, rfl⟩ := Nat.exists_eq_add_of_le h
  unfold fld
  rw [Nat.pow_add, Nat.pow_add, Nat.mul_assoc, Nat.mul_assoc, Nat.add_mul_div_left _ _ (Nat.two_pow_pos lo), Nat.add_mul_mod_self_left]

/-- A window that begins in the low part and ends above it. -/
theorem fld_across {v k x lo n : Nat} (h : lo ≤ k) (g : k ≤ lo + n) (hv : v < 2 ^ k) :
    fld (v + 2 ^ k * x) lo n = fld v lo (k - lo) + 2 ^ (k - lo) * fld x 0 (lo + n - k) := by
  obtain ⟨j, rfl⟩ := Nat.exists_eq_add_of_le h
  obtain ⟨m, rfl⟩ := Nat.exists_eq_add_of_le (Nat.le_of_add_le_add_left g)
  have hj : v / 2 ^ lo < 2 ^ j := Nat.div_lt_of_lt_mul (by rwa [← Nat.pow_add])
  unfold fld
  rw [Nat.add_sub_cancel_left, show lo + (j + m) - (lo + j) = m by omega, Nat.pow_add, Nat.mul_assoc,
    Nat.add_mul_div_left _ _ (Nat.two_pow_pos lo), Nat.pow_zero, Nat.div_one, Nat.pow_add, Nat.mod_mul, Nat.add_mul_mod_self_left,
    Nat.add_mul_div_left _ _ (Nat.two_pow_pos j), Nat.div_eq_of_lt hj, Nat.zero_add]

theorem fld_fld {c o k lo n : Nat} (h : lo + n ≤ k) : fld (c / 2 ^ o % 2 ^ k) lo n = c / 2 ^ (o + lo) % 2 ^ n := by
  have e := fld_low (v := c / 2 ^ o % 2 ^ k) (x := c / 2 ^ (o + k)) h
  rw [← div_split] at e
  rw [← e, fld, Nat.div_div_eq_div_mul, ← Nat.pow_add]

/-- A window above the low part. -/
theorem fld_high {v k x lo n : Nat} (hv : v < 2 ^ k) (g : k ≤ lo) : fld (v + 2 ^ k * x) lo n = fld x (lo - k) n := by
  rw [← fld_skip (x := x) hv, Nat.add_sub_cancel' g]

theorem fld_whole {v k : Nat} (hv : v < 2 ^ k) : fld v 0 k = v := by
  rw [fld, Nat.pow_zero, Nat.div_one, Nat.mod_eq_of_lt hv]

theorem fld_within {w v lo n a m : Nat} (h : fld w lo n = v) (g : a + m ≤ n) : fld w (lo + a) m = fld v a m := by
  rw [← h]
  exact (fld_fld g).symm

/-- What the windows of a word read. -/
theorem fld_word {ps : List Piece} (h : Fits ps) (c o : Nat) : fld (word c o ps) = fun lo n => read c o lo n ps := by
  funext lo n
  induction ps generalizing o lo n with
  | nil => simp [word, read, fld]
  | cons p r ih =>
    cases p with
    | fix k =>
      have hv : c / 2 ^ o % 2 ^ k < 2 ^ k := Nat.mod_lt _ (Nat.two_pow_pos k)
      rw [word, read]
      split
      · rw [fld_high hv ‹_›, ih h]
      split
      · rw [fld_low ‹_›, fld_fld ‹_›]
      · rw [fld_across (by omega) (by omega) hv, fld_fld (by omega), ih h, Nat.add_comm]
    | num v k =>
      obtain ⟨hv, h⟩ := h
      rw [word, read]
      split
      · rw [fld_high hv ‹_›, ih h]
      split
      next e =>
        obtain ⟨rfl, rfl⟩ := e
        rw [fld_low (Nat.le_of_eq (Nat.zero_add n)), fld_whole hv]
      split
      · rw [fld_low ‹_›]
      · rw [fld_across (by omega) (by omega) hv, ih h]
    | flag b =>
      rw [word, read]
      split
      · rw [fld_high (b2n_lt b) ‹_›, ih h]
      split
      next e => rw [e, fld_zero_width]
      next g e =>
        obtain rfl : lo = 0 := by omega
        rw [fld_across (Nat.zero_le 1) (by omega) (b2n_lt b), ih h, fld_whole (b2n_lt b), Nat.zero_add]
        rfl

/-- The bit lo of pieces that start at bit o, where it is a field. -/
def readFlag (c o lo : Nat) : List Piece → Bool
  | [] => false
  | fix k :: r => if k ≤ lo then readFlag c (o + k) (lo - k) r else bit (c / 2 ^ o % 2 ^ k) lo
  | num v k :: r => if k ≤ lo then readFlag c (o + k) (lo - k) r else bit v lo
  | flag b :: r => if 1 ≤ lo then readFlag c (o + 1) (lo - 1) r else b

theorem bit_eq_fld (w k : Nat) : bit w k = (fld w k 1 == 1) := rfl

theorem bit_word {ps : List Piece} (h : Fits ps) (c o : Nat) : bit (word c o ps) = fun lo => readFlag c o lo ps := by
  funext lo
  induction ps generalizing o lo with
  | nil => simp [word, readFlag, bit]
  | cons p r ih =>
    cases p with
    | fix k =>
      rw [word, readFlag]
      split
      · rw [bit_eq_fld, fld_high (Nat.mod_lt _ (Nat.two_pow_pos k)) ‹_›, ← bit_eq_fld, ih h]
      · rw [bit_eq_fld, fld_low (by omega), bit_eq_fld]
    | num v k =>
      rw [word, readFlag]
      split
      · rw [bit_eq_fld, fld_high h.1 ‹_›, ← bit_eq_fld, ih h.2]
      · rw [bit_eq_fld, fld_low (by omega), bit_eq_fld]
    | flag b =>
      rw [word, readFlag]
      split
      · rw [bit_eq_fld, fld_high (b2n_lt b) ‹_›, ← bit_eq_fld, ih h]
      · obtain rfl : lo = 0 := by omega
        exact bit_of (by rw [fld_low (Nat.le_refl 1), fld_whole (b2n_lt b)])

theorem fld_add (w o n m : Nat) : fld w o (n + m) = fld w o n + 2 ^ n * fld w (o + n) m := by
  unfold fld
  rw [Nat.pow_add, Nat.mod_mul, Nat.div_div_eq_div_mul, ← Nat.pow_add]

/-- A word that agrees with a layout is the number that the pieces make up. -/
theorem word_eq_of_agrees {c w o : Nat} {ps : List Piece} (h : Agrees c w o ps) : word c o ps = fld w o (width ps) := by
  induction ps generalizing o with
  | nil => exact (fld_zero_width w o).symm
  | cons p r ih =>
    cases p with
    | fix n =>
      obtain ⟨h0, h⟩ := h
      rw [word, width, fld_add, ← h0, ih h]
    | num v n =>
      obtain ⟨rfl, h⟩ := h
      rw [word, width, fld_add, ih h]
    | flag b =>
      obtain ⟨rfl, h⟩ := h
      rw [word, width, fld_add, ih h, b2n_bit]
      rfl

/-! ### The words of an instruction -/

/-- What the rules of an instruction's fields say fits the bits of its layout. -/
theorem fits {i : Instr} (h : i.WellFormed) : Fits (layout i) := by
  cases i
  all_goals try exact trivial
  all_goals try exact ⟨by decide, trivial⟩
  all_goals
    replace h := of_decide_eq_true h
    unfold layout
    simp only [Fits, and_true]
    omega

/-- Instruction i is encoded in one word, the fields of its layout beside the fixed bits c. -/
def OneWord (c : Nat) (i : Instr) : Prop :=
  encode i = [putFields c (fields 0 (layout i) [])] ∧ clear c 0 (layout i) = true ∧ width (layout i) = 32

theorem OneWord.encode {i : Instr} {c : Nat} (h : OneWord c i) : encode i = [word c 0 (layout i)] := by
  obtain ⟨he, hc, -⟩ := h
  rw [he, putFields_eq_word hc]

theorem OneWord.join {i : Instr} {c : Nat} (h : OneWord c i) : joinWords (Sys2Proof.encode i) = word c 0 (layout i) := by
  rw [h.encode, joinWords, joinWords, Nat.mul_zero, Nat.add_zero]

theorem OneWord.lt {i : Instr} {c : Nat} (h : OneWord c i) (hi : Fits (layout i)) : joinWords (Sys2Proof.encode i) < 2 ^ 32 := by
  rw [h.join, ← h.2.2]
  exact word_lt hi c 0

theorem reads0_of {i : Instr} {c : Nat} (hi : Fits (layout i)) (hc : OneWord c i)
    (hm : read c 0 24 6 (layout i) = c / 2 ^ 24 ∧ majorReserved 0 (c / 2 ^ 24) = false ∧ read c 0 30 2 (layout i) = 0)
    (h : rows0 (c / 2 ^ 24) (word c 0 (layout i)) = some i) : Words.reads0 (joinWords (encode i)) i := by
  obtain ⟨hm, hr, hf⟩ := hm
  refine ⟨hc.lt hi, c / 2 ^ 24, ?_⟩
  rw [hc.join, fld_word hi]
  exact ⟨hm, hr, hf, h⟩

/-- What the decoder of slots 1 to 3 asks of the word of i, for a class with rows f. -/
theorem reads_of {i : Instr} {c k : Nat} {f : Nat → Nat → Option Instr} (hi : Fits (layout i)) (hc : OneWord c i)
    (hm : read c 0 26 6 (layout i) = c / 2 ^ 26 ∧ majorReserved k (c / 2 ^ 26) = false)
    (h : f (c / 2 ^ 26) (word c 0 (layout i)) = some i) :
    joinWords (encode i) < 2 ^ 32 ∧ ∃ m, fld (joinWords (encode i)) 26 6 = m ∧ majorReserved k m = false ∧
      f m (joinWords (encode i)) = some i := by
  obtain ⟨hm, hr⟩ := hm
  refine ⟨hc.lt hi, c / 2 ^ 26, ?_⟩
  rw [hc.join, fld_word hi]
  exact ⟨hm, hr, h⟩

/-! Three rows stand after one that asks for more bits than their own fixed ones: it fails on a field within those. Any other row is the
first of its major whose tests the word meets: with the windows of the word read from its layout, its chain of tests evaluates. Each theorem
takes one class, or those of its instructions whose layouts have so many pieces, and unfolds the rows of that class only. -/

theorem rows0_pjoin {w s : Nat} (h : fld w 0 14 = 0) (h' : fld w 16 8 = 8) (hs : fld w 14 2 = s) : rows0 0x19 w = some (.pjoin s) := by
  have e : fld w 18 6 = 2 := fld_within (a := 2) h' (by decide)
  show rows0M19 w = _
  rw [rows0M19, if_neg (by omega), if_pos ⟨h, h'⟩, hs]

theorem rows0_trap {w c : Nat} (h : fld w 8 16 = 2048) (hc : fld w 0 8 = c) : rows0 0x1F w = some (.trap c) := by
  have e : fld w 0 24 ≠ 0 := fun g => absurd ((fld_within (a := 8) g (by decide)).symm.trans h) (by decide)
  show rows0M1F w = _
  rw [rows0M1F, if_neg e, if_pos h, hc]

theorem rows13_scldi {w x v : Nat} (h : fld w 13 7 = 0) (h' : fld w 24 2 = 2) (hx : fld w 20 4 = x) (hv : fld w 0 13 = v) :
    rows13 0x2B w = some (.scldi x v) := by
  have e : fld w 22 4 ≠ 0 := fun g => absurd ((fld_within (a := 2) g (by decide)).symm.trans h') (by decide)
  show rows13M2B w = _
  rw [rows13M2B, if_neg (fun g => e g.2), if_pos ⟨h, h'⟩, hx, hv]

/-- Words of slot 0 of few pieces. -/
theorem reads0_of_short {i : Instr} (hs : i.slotOf = some 0) (hl : decide ((layout i).length < 8) = true) (hi : i.WellFormed) :
    Words.reads0 (joinWords (encode i)) i := by
  have h := fits hi
  cases i
  all_goals try cases (show _ = some 0 from hs)
  all_goals try cases (show _ = true from hl)
  case pjoin =>
    refine reads0_of h ⟨rfl, rfl, rfl⟩ ⟨rfl, rfl, rfl⟩ ?_
    apply rows0_pjoin <;> (rw [fld_word h]; rfl)
  case trap =>
    refine reads0_of h ⟨rfl, rfl, rfl⟩ ⟨rfl, rfl, rfl⟩ ?_
    apply rows0_trap <;> (rw [fld_word h]; rfl)
  all_goals
    refine reads0_of h ⟨rfl, rfl, rfl⟩ ⟨rfl, rfl, rfl⟩ ?_
    dsimp only [Nat.reducePow, Nat.reduceDiv,
      rows0, rows0M01, rows0M02, rows0M03, rows0M04, rows0M05, rows0M06, rows0M07, rows0M08, rows0M09, rows0M0A, rows0M0B, rows0M0C,
      rows0M0D, rows0M10, rows0M11, rows0M12, rows0M13, rows0M14, rows0M15, rows0M16, rows0M17, rows0M18, rows0M19, rows0M1A,
      rows0M1B, rows0M1C, rows0M1D, rows0M1E, rows0M1F]
    rw [fld_word h]
    try rw [bit_word h]
    rfl

/-- Words of slot 0 of many pieces. -/
theorem reads0_of_long {i : Instr} (hs : i.slotOf = some 0) (hl : decide (8 ≤ (layout i).length) = true) (hi : i.WellFormed) :
    Words.reads0 (joinWords (encode i)) i := by
  have h := fits hi
  cases i
  all_goals try cases (show _ = some 0 from hs)
  all_goals try cases (show _ = true from hl)
  all_goals
    refine reads0_of h ⟨rfl, rfl, rfl⟩ ⟨rfl, rfl, rfl⟩ ?_
    dsimp only [Nat.reducePow, Nat.reduceDiv,
      rows0, rows0M01, rows0M02, rows0M03, rows0M04, rows0M05, rows0M06, rows0M07, rows0M08, rows0M09, rows0M0A, rows0M0B, rows0M0C,
      rows0M0D, rows0M10, rows0M11, rows0M12, rows0M13, rows0M14, rows0M15, rows0M16, rows0M17, rows0M18, rows0M19, rows0M1A,
      rows0M1B, rows0M1C, rows0M1D, rows0M1E, rows0M1F]
    rw [fld_word h]
    try rw [bit_word h]
    rfl

/-- Words of slots 1 and 3 of few pieces. -/
theorem reads1_of_short {i : Instr} (hs : i.slotOf = some 1) (hl : decide ((layout i).length < 7) = true) (hi : i.WellFormed) :
    Words.reads1 (joinWords (encode i)) i := by
  have h := fits hi
  cases i
  all_goals try cases (show _ = some 1 from hs)
  all_goals try cases (show _ = true from hl)
  all_goals
    refine reads_of h ⟨rfl, rfl, rfl⟩ ⟨rfl, rfl⟩ ?_
    dsimp only [Nat.reducePow, Nat.reduceDiv,
      rows13, rows13M01, rows13M02, rows13M03, rows13M04, rows13M05, rows13M06, rows13M07, rows13M08, rows13M09, rows13M0A,
      rows13M0B, rows13M0C, rows13M0D, rows13M10, rows13M11, rows13M12, rows13M13, rows13M14, rows13M15, rows13M16, rows13M17,
      rows13M18, rows13M19, rows13M1A, rows13M1B, rows13M1C, rows13M1D, rows13M1E, rows13M1F, rows13M20, rows13M21, rows13M22,
      rows13M23, rows13M24, rows13M25, rows13M26, rows13M27]
    rw [fld_word h]
    try rw [bit_word h]
    rfl

/-- Words of slots 1 and 3 of seven pieces. -/
theorem reads1_of_seven {i : Instr} (hs : i.slotOf = some 1) (hl : decide ((layout i).length = 7) = true) (hi : i.WellFormed) :
    Words.reads1 (joinWords (encode i)) i := by
  have h := fits hi
  cases i
  all_goals try cases (show _ = some 1 from hs)
  all_goals try cases (show _ = true from hl)
  all_goals
    refine reads_of h ⟨rfl, rfl, rfl⟩ ⟨rfl, rfl⟩ ?_
    dsimp only [Nat.reducePow, Nat.reduceDiv,
      rows13, rows13M01, rows13M02, rows13M03, rows13M04, rows13M05, rows13M06, rows13M07, rows13M08, rows13M09, rows13M0A,
      rows13M0B, rows13M0C, rows13M0D, rows13M10, rows13M11, rows13M12, rows13M13, rows13M14, rows13M15, rows13M16, rows13M17,
      rows13M18, rows13M19, rows13M1A, rows13M1B, rows13M1C, rows13M1D, rows13M1E, rows13M1F, rows13M20, rows13M21, rows13M22,
      rows13M23, rows13M24, rows13M25, rows13M26, rows13M27]
    rw [fld_word h]
    try rw [bit_word h]
    rfl

/-- Words of slots 1 and 3 of many pieces. -/
theorem reads1_of_long {i : Instr} (hs : i.slotOf = some 1) (hl : decide (8 ≤ (layout i).length) = true) (hi : i.WellFormed) :
    Words.reads1 (joinWords (encode i)) i := by
  have h := fits hi
  cases i
  all_goals try cases (show _ = some 1 from hs)
  all_goals try cases (show _ = true from hl)
  all_goals
    refine reads_of h ⟨rfl, rfl, rfl⟩ ⟨rfl, rfl⟩ ?_
    dsimp only [Nat.reducePow, Nat.reduceDiv,
      rows13, rows13M01, rows13M02, rows13M03, rows13M04, rows13M05, rows13M06, rows13M07, rows13M08, rows13M09, rows13M0A,
      rows13M0B, rows13M0C, rows13M0D, rows13M10, rows13M11, rows13M12, rows13M13, rows13M14, rows13M15, rows13M16, rows13M17,
      rows13M18, rows13M19, rows13M1A, rows13M1B, rows13M1C, rows13M1D, rows13M1E, rows13M1F, rows13M20, rows13M21, rows13M22,
      rows13M23, rows13M24, rows13M25, rows13M26, rows13M27]
    rw [fld_word h]
    try rw [bit_word h]
    rfl

/-- Words of slot 2. -/
theorem reads2_of_slot2 {i : Instr} (hs : i.slotOf = some 2) (hi : i.WellFormed) :
    Words.reads2 (joinWords (encode i)) i := by
  have h := fits hi
  cases i
  all_goals try cases (show _ = some 2 from hs)
  all_goals
    refine reads_of h ⟨rfl, rfl, rfl⟩ ⟨rfl, rfl⟩ ?_
    dsimp only [Nat.reducePow, Nat.reduceDiv,
      rows2, rows2M01, rows2M02, rows2M03, rows2M04, rows2M05, rows2M06, rows2M07, rows2M08]
    rw [fld_word h]
    try rw [bit_word h]
    rfl

/-- Words of slot 3 alone. -/
theorem readsQ_of_slot3 {i : Instr} (hs : i.slotOf = some 3) (hi : i.WellFormed) :
    Words.readsQ (joinWords (encode i)) i := by
  have h := fits hi
  cases i
  all_goals try cases (show _ = some 3 from hs)
  case scldi =>
    refine reads_of h ⟨rfl, rfl, rfl⟩ ⟨rfl, rfl⟩ ?_
    apply rows13_scldi <;> (rw [fld_word h]; rfl)
  all_goals
    refine reads_of h ⟨rfl, rfl, rfl⟩ ⟨rfl, rfl⟩ ?_
    dsimp only [Nat.reducePow, Nat.reduceDiv,
      rows13, rows13M28, rows13M29, rows13M2A, rows13M2B, rows13M2C, rows13M2D, rows13M2E, rows13M2F, rows13M30, rows13M31,
      rows13M32, rows13M33, rows13M34, rows13M35, rows13M36, rows13M37, rows13M38, rows13M39, rows13M3A, rows13M3B, rows13M3C,
      rows13M3D]
    rw [fld_word h]
    try rw [bit_word h]
    rfl

theorem reads0_of_slot0 {i : Instr} (hs : i.slotOf = some 0) (hi : i.WellFormed) : Words.reads0 (joinWords (encode i)) i :=
  (Nat.lt_or_ge (layout i).length 8).elim (fun hl => reads0_of_short hs (decide_eq_true hl) hi)
    (fun hl => reads0_of_long hs (decide_eq_true hl) hi)

theorem reads1_of_slot1 {i : Instr} (hs : i.slotOf = some 1) (hi : i.WellFormed) : Words.reads1 (joinWords (encode i)) i := by
  obtain hl | hl | hl := Nat.lt_trichotomy (layout i).length 7
  · exact reads1_of_short hs (decide_eq_true hl) hi
  · exact reads1_of_seven hs (decide_eq_true hl) hi
  · exact reads1_of_long hs (decide_eq_true hl) hi

/-- A micro-operation's four words make up the fields of its layout. -/
theorem fourWords {i : Instr} (h : (encode i).length = 4) : joinWords (encode i) = word 0 0 (layout i) := by
  cases i
  all_goals try cases (show _ = 4 from h)
  case uUnop | uWsw | uSync | uEnd => rfl
  all_goals
    unfold encode layout
    simp only [joinWords, putFields, word, Nat.reducePow, Nat.reduceAdd]
    omega

/-- Micro-words. -/
theorem readsM_of_micro {i : Instr} (hm : (encode i).length = 4) (hi : i.WellFormed) : Words.readsM (joinWords (encode i)) i := by
  have h := fits hi
  rw [fourWords hm]
  refine ⟨?_, ?_⟩
  · refine Nat.lt_of_lt_of_eq (word_lt h 0 0) (congrArg _ ?_)
    cases i
    all_goals try cases (show _ = 4 from hm)
    all_goals rfl
  rw [fld_word h]
  cases i
  all_goals try cases (show _ = 4 from hm)
  all_goals
    refine ⟨_, rfl, Nat.le_of_ble_eq_true rfl, ?_⟩
    dsimp only [microRow]
    rw [fld_word h]
    try rw [bit_word h]
    rfl

/-! ### The instruction of a word -/

theorem OneWord.encode_of_agrees {i : Instr} {c w : Nat} (h : OneWord c i) (hw : w < 2 ^ 32) (g : Agrees c w 0 (layout i)) :
    Sys2Proof.encode i = [w] := by
  rw [h.encode, word_eq_of_agrees g, h.2.2, fld_whole hw]

/-- A word that a row of slot 0 answers is the one that its instruction is encoded in. -/
theorem rows0_encode {w m : Nat} {i : Instr} (hw : w < 2 ^ 32) (hm : fld w 24 6 = m) (hf : fld w 30 2 = 0)
    (h : rows0 m w = some i) : encode i = [w] := by
  unfold rows0 at h
  split at h
  all_goals repeat' (replace h := Words.chain h; obtain ⟨t, rfl⟩ | h := h)
  all_goals try cases h
  all_goals
    refine OneWord.encode_of_agrees ⟨rfl, rfl, rfl⟩ hw ?_
    unfold layout
    simp only [Agrees, *]
    decide

/-- The same of slots 1 and 3, in the majors of both. -/
theorem rows13_encode_shared {w m : Nat} {i : Instr} (hw : w < 2 ^ 32) (hm : fld w 26 6 = m) (hk : m < 0x28)
    (h : rows13 m w = some i) : encode i = [w] := by
  unfold rows13 at h
  split at h
  all_goals try exact absurd hk (by decide)
  all_goals repeat' (replace h := Words.chain h; obtain ⟨t, rfl⟩ | h := h)
  all_goals try cases h
  all_goals
    refine OneWord.encode_of_agrees ⟨rfl, rfl, rfl⟩ hw ?_
    unfold layout
    simp only [Agrees, *]
    decide

/-- The same, in the majors of slot 3 alone. -/
theorem rows13_encode_upper {w m : Nat} {i : Instr} (hw : w < 2 ^ 32) (hm : fld w 26 6 = m) (hk : 0x28 ≤ m)
    (h : rows13 m w = some i) : encode i = [w] := by
  unfold rows13 at h
  split at h
  all_goals try exact absurd hk (by decide)
  all_goals repeat' (replace h := Words.chain h; obtain ⟨t, rfl⟩ | h := h)
  all_goals try cases h
  all_goals
    refine OneWord.encode_of_agrees ⟨rfl, rfl, rfl⟩ hw ?_
    unfold layout
    simp only [Agrees, *]
    decide

theorem rows13_encode {w m : Nat} {i : Instr} (hw : w < 2 ^ 32) (hm : fld w 26 6 = m) (h : rows13 m w = some i) : encode i = [w] :=
  (Nat.lt_or_ge m 0x28).elim (fun hk => rows13_encode_shared hw hm hk h) (fun hk => rows13_encode_upper hw hm hk h)

/-- The same of slot 2. -/
theorem rows2_encode {w m : Nat} {i : Instr} (hw : w < 2 ^ 32) (hm : fld w 26 6 = m)
    (h : rows2 m w = some i) : encode i = [w] := by
  unfold rows2 at h
  split at h
  all_goals repeat' (replace h := Words.chain h; obtain ⟨t, rfl⟩ | h := h)
  all_goals try cases h
  all_goals
    refine OneWord.encode_of_agrees ⟨rfl, rfl, rfl⟩ hw ?_
    unfold layout
    simp only [Agrees, *]
    decide

theorem encode_of_agrees_micro {i : Instr} {w : Nat} (hm : (encode i).length = 4) (hl : width (layout i) = 128) (hw : w < 2 ^ 128)
    (g : Agrees 0 w 0 (layout i)) : joinWords (encode i) = w := by
  rw [fourWords hm, word_eq_of_agrees g, hl, fld_whole hw]

theorem microRow_encode {w m : Nat} {i : Instr} (hw : w < 2 ^ 128) (hm : fld w 0 6 = m)
    (h : microRow m w = some i) : joinWords (encode i) = w := by
  unfold microRow at h
  split at h
  all_goals try (obtain ⟨t, rfl⟩ | h := Words.chain h)
  all_goals try cases h
  all_goals
    refine encode_of_agrees_micro rfl rfl hw ?_
    unfold layout
    simp only [Agrees, *]
    decide

/-! ### The three obligations -/

theorem slotOf_lt {i : Instr} {k : Nat} (h : i.slotOf = some k) : k < 4 := by
  cases i
  all_goals cases (show _ = some k from h)
  all_goals decide

theorem decodeSlot_encode {i : Instr} {k : Nat} (hs : i.slotOf = some k) (hi : i.WellFormed) :
    decodeSlot k (joinWords (encode i)) = .ok i := by
  match k, slotOf_lt hs with
  | 0, _ =>
    obtain ⟨hw, m, hm, hr, hf, h⟩ := reads0_of_slot0 hs hi
    exact decodeSlot_zero hw hm hr hf h hi
  | 1, _ =>
    obtain ⟨hw, m, hm, hr, h⟩ := reads1_of_slot1 hs hi
    exact decodeSlot_one hw hm hr h hi
  | 2, _ =>
    obtain ⟨hw, m, hm, hr, h⟩ := reads2_of_slot2 hs hi
    exact decodeSlot_two hw hm hr h hi
  | 3, _ =>
    obtain ⟨hw, m, hm, hr, h⟩ := readsQ_of_slot3 hs hi
    exact decodeSlot_three hw hm hr h hi

/-- Slot 3 takes every major of slot 1. -/
theorem majorReserved_three_of_one {m : Nat} (h : majorReserved 1 m = false) : majorReserved 3 m = false := by
  simp only [majorReserved, decide_eq_false_iff_not] at h ⊢
  omega

theorem decodeSlot_three_encode {i : Instr} (hs : i.slotOf = some 1) (hi : i.WellFormed) :
    decodeSlot 3 (joinWords (encode i)) = .ok i := by
  obtain ⟨hw, m, hm, hr, h⟩ := reads1_of_slot1 hs hi
  exact decodeSlot_three hw hm (majorReserved_three_of_one hr) h hi

theorem decodeMicro_encode {i : Instr} (hm : (encode i).length = 4) (hi : i.WellFormed) : decodeMicro (joinWords (encode i)) = .ok i := by
  obtain ⟨hw, u, hu, hr, h⟩ := readsM_of_micro hm hi
  unfold decodeMicro
  rw [if_neg (not_or.2 ⟨by omega, Nat.not_le.2 hw⟩), hu, h]
  exact if_pos hi

/-- What a decoder that answers has found: a row that gives the instruction, and the instruction's rules. -/
theorem of_row {r : Option Instr} {i : Instr}
    (h : (match r with | none => .error .noEncoding | some j => if j.wf then .ok j else .error .illFormed) =
      (.ok i : Except DecodeError Instr)) : r = some i ∧ i.WellFormed := by
  cases r with
  | none => cases h
  | some j =>
    obtain ⟨hj, h⟩ | ⟨-, h⟩ := ite_eq_iff.1 h
    · cases h
      exact ⟨rfl, hj⟩
    · cases h

theorem encode_of_decodeSlot {k w : Nat} {i : Instr} (hk : k < 4) (h : decodeSlot k w = .ok i) : encode i = [w] ∧ i.WellFormed := by
  unfold decodeSlot at h
  obtain ⟨-, h⟩ | ⟨hc, h⟩ := ite_eq_iff.1 h
  · cases h
  rw [not_or, not_or, Nat.not_le] at hc
  obtain ⟨-, hf, hw⟩ := hc
  obtain ⟨hr, hi⟩ := of_row h
  refine ⟨?_, hi⟩
  match k, hk with
  | 0, _ => exact rows0_encode hw rfl (not_not.1 fun g => hf ⟨rfl, g⟩) hr
  | 1, _ => exact rows13_encode hw rfl hr
  | 2, _ => exact rows2_encode hw rfl hr
  | 3, _ => exact rows13_encode hw rfl hr

theorem join_encode_of_decodeMicro {w : Nat} {i : Instr} (h : decodeMicro w = .ok i) : joinWords (encode i) = w ∧ i.WellFormed := by
  unfold decodeMicro at h
  obtain ⟨-, h⟩ | ⟨hc, h⟩ := ite_eq_iff.1 h
  · cases h
  obtain ⟨hr, hi⟩ := of_row h
  exact ⟨microRow_encode (Nat.not_le.1 (not_or.1 hc).2) rfl hr, hi⟩

/-- Settles O54: the pieces of the word's layout, read where its row reads them, are the fields that were written. -/
theorem slotZeroWordsReadBack : Obligations.SlotZeroWordsReadBack := by
  unfold Obligations.SlotZeroWordsReadBack
  exact fun _ hi hs => decodeSlot_encode hs hi

/-- Settles O55: the same of the other slots' rows, and of the four words of a micro-operation as one number. -/
theorem otherWordsReadBack : Obligations.OtherWordsReadBack := by
  unfold Obligations.OtherWordsReadBack
  exact fun _ hi => ⟨fun _ _ hs => decodeSlot_encode hs hi, fun hs => decodeSlot_three_encode hs hi, fun hm => decodeMicro_encode hm hi⟩

/-- Settles O56: a row that answers has read every piece of the word, the fixed ones by its test. -/
theorem noBitOfAWordIsIgnored : Obligations.NoBitOfAWordIsIgnored := by
  unfold Obligations.NoBitOfAWordIsIgnored
  exact ⟨fun _ _ _ hk h => encode_of_decodeSlot hk h, fun _ _ h => join_encode_of_decodeMicro h⟩

end Sys2Proof.Words

end

section
/-!
PROOFS. Sequence and system forms (O19, O20): forks, joins, semaphores, queue clears and fences, and what marks an illegal one.
-/

/- Elaborated in turn, as the file before. -/
set_option Elab.async false

namespace Sys2Proof

open Sys2Proof.Machine Sys2Proof.Says

/-! ### Forks (R145) -/

theorem foldl_updPart_frame (l : List Nat) (f : Part → Part) (s : State) :
    { l.foldl (fun s p => s.updPart p f) s with parts := s.parts } = s := by
  induction l generalizing s with
  | nil => rfl
  | cons p l ih =>
    have e := ih (s.updPart p f)
    exact congrArg (fun t : State => { t with parts := s.parts }) e

/-- The partitions of core n that a mask names. -/
def named (n m : Nat) : List Nat := ((List.range 4).filter fun q => Sys2Proof.bit (2 * m) q).map (4 * n + ·)

theorem named_nodup (n m : Nat) : (named n m).Nodup :=
  (List.nodup_range.filter _).map fun _ _ h => Nat.add_left_cancel h

theorem mem_named {n m p : Nat} : p ∈ named n m ↔ p / 4 = n ∧ Sys2Proof.bit (2 * m) (p % 4) = true := by
  simp only [named, List.mem_map, List.mem_filter, List.mem_range]
  constructor
  · rintro ⟨q, ⟨hq, hb⟩, rfl⟩
    rw [Nat.mul_add_mod, Nat.mod_eq_of_lt hq]
    exact ⟨by omega, hb⟩
  · rintro ⟨rfl, hb⟩
    exact ⟨p % 4, ⟨Nat.mod_lt _ (by decide), hb⟩, Nat.div_add_mod p 4⟩

/-- A partition as a fork starts it. -/
def started (s : State) (i : Nat) (p : Part) : Part :=
  { p with run := .running, half := (me s).half, pc := Says.target s i, loops := [], pblk := ⟨0, 0, 0⟩, group2 := none,
           hold := 0, stale := [] }

/-- A fork is legal from partition 0 to partitions that are idle. -/
def forkable (s : State) (m : Nat) : Bool :=
  decide (s.cur.gpi % 4 = 0) &&
    ((List.range 4).filter fun q => Sys2Proof.bit (2 * m) q).all fun q => (s.part (4 * s.cur.core + q)).run == .idle

theorem exec_pfork (m i : Nat) (s : State) : exec (.pfork m i) s =
    .next ((named s.cur.core m).foldl (fun t p => t.updPart p (started s i)) (s.check (forkable s m) causeIllegalSequence)) := by
  rw [named, List.foldl_map]
  rfl

theorem forkable_iff {s : State} {m : Nat} : forkable s m = true ↔
    s.cur.gpi % 4 = 0 ∧ ∀ q, q < 4 → Sys2Proof.bit (2 * m) q = true → (s.part (4 * s.cur.core + q)).run = .idle := by
  simp [forkable, ← Bool.not_eq_true, ← imp_iff_not_or]

theorem fork_starts : forkStartsTheNamedPartitions := by
  intro s m i hg hidle
  have hf : forkable s m = true := forkable_iff.2 ⟨by omega, hidle⟩
  refine ⟨_, exec_pfork m i s, ?_, fun p => ?_⟩
  · rw [hf]
    exact foldl_updPart_frame ..
  · rw [foldl_updPart (named_nodup ..), hf]
    exact if_congr mem_named rfl rfl

theorem fork_marks {s : State} {m : Nat} (i : Nat) (h : forkable s m = false) :
    ∃ t, exec (.pfork m i) s = .next t ∧ t.cur.marks = s.cur.marks ++ [⟨s.cur.slot, 0x03, 0, 0⟩] := by
  refine ⟨_, exec_pfork m i s, ?_⟩
  rw [h, ← congrArg State.cur (foldl_updPart_frame (named s.cur.core m) (started s i) _).symm]
  rfl

/-! ### Semaphores (R145 to R147) -/

theorem postSema_of_le {k n : Nat} {s : State} (h : posted s k + n ≤ 65535) : postSema k n s = inFlight s 1 0 (.sema k n) := by
  unfold postSema
  rw [decide_eq_true (show semaOf s k + semaTaken s k + semaPending s k + n ≤ 65535 from h)]
  rfl

theorem postSema_of_lt {k n : Nat} {s : State} (h : 65535 < posted s k + n) :
    postSema k n s = inFlight (marked s 0x14 0 0) 1 0 (.sema k n) := by
  unfold postSema
  rw [decide_eq_false (show ¬ semaOf s k + semaTaken s k + semaPending s k + n ≤ 65535 from Nat.not_le.2 h)]
  rfl

theorem exec_pjoin_of_ne {k : Nat} {s : State} (h : s.cur.gpi % 4 ≠ 0) :
    exec (.pjoin k) s = .next ((postSema k 1 s).updCur fun c => { c with ends := some .idle }) := by
  show (.next ((postSema k 1 (s.check (decide (s.cur.gpi % 4 ≠ 0)) _)).updCur _) : Out) = _
  rw [decide_eq_true h]
  rfl

theorem semaphores_hold : semaphores := by
  refine fun s k => ⟨fun n h => congrArg Host.Outcome.next (postSema_of_le h), fun hg h => ?_, fun n => ?_⟩
  · rw [exec_pjoin_of_ne hg, postSema_of_le h]
    rfl
  · exact congrArg Host.Outcome.next (if_congr Iff.rfl rfl rfl)

/-! ### Illegal sequences (R85, R137) -/

/-- The mark of an illegal sequence in the slot in progress. -/
abbrev illegal (s : State) : Mark := ⟨s.cur.slot, 0x03, 0, 0⟩

theorem marked_of_check {s : State} {ok : Bool} {c : Nat} (h : ok = false) : Marked ⟨s.cur.slot, c, 0, 0⟩ (s.check ok c) := by
  rw [h]
  exact List.mem_append_right _ (List.mem_singleton_self _)

theorem check_slot (s : State) (ok : Bool) (c : Nat) : (s.check ok c).cur.slot = s.cur.slot := by cases ok <;> rfl

theorem check_me (s : State) (ok : Bool) (c : Nat) : (s.check ok c).me = s.me := by cases ok <;> rfl

theorem marked_notCovered {s : State} (h : s.cur.covered = true) : Marked (illegal s) (notCovered s) :=
  marked_of_check (by rw [h]; rfl)

theorem Marked.branchIf {m : Mark} {s : State} (h : Marked m s) {b : Bool} {d : Nat} {o : Bool} : Marked m (branchIf b d o s) := .ite _ h h

theorem Marked.callIf {m : Mark} {s : State} (h : Marked m (notCovered s)) {b : Bool} {d : Nat} : Marked m (callIf b d s) :=
  .ite _ h.branchIf h.branchIf

theorem Marked.postSema {m : Mark} {s : State} (h : Marked m s) {k n : Nat} : Marked m (postSema k n s) := h.check.emit

theorem Marked.switchIf {m : Mark} {s : State} (h : Marked m (notCovered s)) {b : Bool} {d : Nat} : Marked m (switchIf b d s) :=
  h.check.branchIf

theorem Marked.readS {m : Mark} {s : State} (h : Marked m s) {q : Nat} {k : Bool} : Marked m (readS q k s).2 :=
  (afterRead_slot s (false, q, k)).2 h

theorem readS_covered (q : Nat) (k : Bool) (s : State) : (readS q k s).2.cur.covered = s.cur.covered := by
  unfold Machine.readS
  split
  · rfl
  · cases k <;> rfl

theorem marked_openLoop_covered {n d : Nat} {s : State} (h : s.cur.covered = true) : Marked (illegal s) (openLoop n d s) := by
  have hc : Marked (illegal s) ((notCovered s).check (!endsTop s.me.loops s.me.pc) causeIllegalSequence) := (marked_notCovered h).check
  unfold Machine.openLoop
  dsimp only
  exact .ite _ hc (.ite _ hc.mark hc)

theorem marked_switch_of_loops {s : State} (h : (me s).loops ≠ []) (b : Bool) (d : Nat) : Marked (illegal s) (switchIf b d s) := by
  have hs : (notCovered s).cur.slot = s.cur.slot := by rw [notCovered, check_slot]
  have hc : Marked (illegal s) ((notCovered s).check s.me.loops.isEmpty causeIllegalSequence) := by
    rw [illegal, ← hs]
    exact marked_of_check (by rw [← Bool.not_eq_true, List.isEmpty_iff]; exact h)
  exact hc.branchIf

theorem illegal_sequences : illegalSequences := by
  refine ⟨fun i s hi hc => ?_, fun s p d hl i hi => ?_⟩
  · have hm := marked_notCovered hc
    obtain ⟨p, d, h⟩ | ⟨d, h⟩ | ⟨a, k, rfl⟩ | ⟨d, a, k, rfl⟩ | ⟨c, d, rfl⟩ | ⟨k, q, d, rfl⟩ | ⟨p, t, l, rfl⟩ | rfl | rfl | rfl := hi
    · obtain rfl | rfl | rfl | rfl | rfl | rfl := h
      · exact ⟨_, rfl, hm.branchIf⟩
      · exact ⟨_, rfl, hm.branchIf⟩
      · exact ⟨_, rfl, hm.callIf⟩
      · exact ⟨_, rfl, hm.callIf⟩
      · exact ⟨_, rfl, hm.switchIf⟩
      · exact ⟨_, rfl, hm.switchIf⟩
    · obtain rfl | rfl | rfl | rfl := h
      · exact ⟨_, rfl, hm.branchIf⟩
      · exact ⟨_, rfl, hm.callIf⟩
      · exact ⟨_, rfl, hm.switchIf⟩
      · exact ⟨_, rfl, hm.pushS⟩
    · exact ⟨_, rfl, hm.readS.transfer⟩
    · exact ⟨_, rfl, hm.readS.transfer.pushS⟩
    · exact ⟨_, rfl, marked_openLoop_covered hc⟩
    · have hr := marked_openLoop_covered (n := lo32 (readS q k s).1) (d := d) ((readS_covered q k s).trans hc)
      rw [illegal, show (readS q k s).2.cur.slot = s.cur.slot from (afterRead_slot s (false, q, k)).1] at hr
      exact ⟨_, rfl, hr⟩
    · exact ⟨_, rfl, hm⟩
    · exact ⟨_, rfl, Marked.ite _ hm.mark hm⟩
    · exact ⟨_, rfl, hm⟩
    · exact ⟨_, rfl, hm⟩
  · simp only [List.mem_cons, List.not_mem_nil, or_false] at hi
    obtain rfl | rfl | rfl := hi
    all_goals exact ⟨_, rfl, marked_switch_of_loops hl _ d⟩

/-! ### Loops (R138, R140) -/

theorem marked_openLoop_full {n d : Nat} {s : State} (hc : s.cur.covered = false) (hn : n ≠ 0) (h : 6 ≤ (me s).loops.length) :
    Marked ⟨s.cur.slot, 0x12, 0, 0⟩ (openLoop n d s) := by
  unfold openLoop
  dsimp only
  rw [notCovered_of hc, if_neg hn, check_me, if_pos (show 6 ≤ s.me.loops.length from h),
    ← check_slot s (!endsTop s.me.loops s.me.pc) causeIllegalSequence]
  exact List.mem_append_right _ (List.mem_singleton_self _)

theorem marked_openLoop_end {n d : Nat} {s : State} {l : LoopLevel} {r : List LoopLevel} (hc : s.cur.covered = false)
    (hl : (me s).loops = l :: r) (he : l.stop = (me s).pc) : Marked (illegal s) (openLoop n d s) := by
  have hm : Marked (illegal s) ((notCovered s).check (!endsTop s.me.loops s.me.pc) causeIllegalSequence) := by
    rw [notCovered_of hc]
    refine marked_of_check ?_
    rw [show s.me.loops = l :: r from hl, endsTop, show s.me.pc = l.stop from he.symm, beq_self_eq_true]
    rfl
  unfold openLoop
  dsimp only
  exact .ite _ hm (.ite _ hm.mark hm)

theorem loop_faults : loopFaults := by
  intro s d hc
  refine ⟨fun c => ⟨fun hn h => ⟨_, rfl, marked_openLoop_full hc hn h⟩, fun l r hl he => ⟨_, rfl, marked_openLoop_end hc hl he⟩⟩,
    fun k q x u hx => ?_⟩
  obtain ⟨hx, rfl⟩ := hx
  have e : exec (.loopQ k q d) s = .next (openLoop (x.toNat % 2 ^ 32) d (if k then s else taken s q)) := by
    show (.next (openLoop (lo32 (readS q k s).1) d (readS q k s).2) : Out) = _
    rw [readS_entry hx]
    rfl
  rw [e]
  cases k with
  | true => exact ⟨fun hn h => ⟨_, rfl, marked_openLoop_full hc hn h⟩, fun l r hl he => ⟨_, rfl, marked_openLoop_end hc hl he⟩⟩
  | false =>
    exact ⟨fun hn h => ⟨_, rfl, marked_openLoop_full (s := taken s q) hc hn h⟩,
      fun l r hl he => ⟨_, rfl, marked_openLoop_end (s := taken s q) hc hl he⟩⟩

/-! ### Faults of forks, joins, semaphores and barriers -/

theorem barw_marks {s : State} {c u : Nat} (h : s.cur.gpi ∉ (s.barUnit s.cur.core c u).parts) :
    ∃ t, exec (.barw c u) s = .next t ∧ t.cur.marks = s.cur.marks ++ [⟨s.cur.slot, 0x1F, 0, 0⟩] := by
  refine ⟨_, rfl, ?_⟩
  rw [show (s.barUnit s.cur.core c u).parts.contains s.cur.gpi = false by simpa using h]
  split
  · rw [startRelease_frame, setBarUnit_frame]
    rfl
  · rw [setBarUnit_frame]
    rfl

theorem system_faults : systemFaultsAtIssue := by
  refine fun s => ⟨fun k n h => ⟨_, congrArg Host.Outcome.next (postSema_of_lt h), rfl⟩, fun k hg h => ?_, fun m i h => ?_, fun k hg => ?_,
    fun c u h => barw_marks h⟩
  · refine ⟨_, exec_pjoin_of_ne hg, ?_⟩
    rw [postSema_of_lt h]
    rfl
  · refine fork_marks i ?_
    rw [← Bool.not_eq_true, forkable_iff]
    rintro ⟨hg, hq⟩
    obtain h | ⟨q, hq4, hb, hr⟩ := h
    · exact h hg
    · exact hr (hq q hq4 hb)
  · have hm : Marked (illegal s) (s.check (decide (s.cur.gpi % 4 ≠ 0)) causeIllegalSequence) :=
      marked_of_check (decide_eq_false (not_not.2 hg))
    have ht : Marked (illegal s) (postSema k 1 (s.check (decide (s.cur.gpi % 4 ≠ 0)) causeIllegalSequence)) := hm.postSema
    exact ⟨_, rfl, ht⟩

/-- Settles O19: every clause is the meaning of its form, the partitions that a fork starts taken one by one. -/
theorem forksSemaphoresAndFences : Obligations.ForksSemaphoresAndFences := by
  unfold Obligations.ForksSemaphoresAndFences
  exact ⟨fun s => ⟨rfl, fun _ _ => rfl, fun _ _ => rfl, fun _ _ => rfl, fun _ => rfl, fun _ => rfl, fun _ => rfl, fun _ => rfl, rfl⟩,
    fork_starts, semaphores_hold⟩

/-- Settles O20: the check that fails marks the slot, and nothing after it takes the mark away. -/
theorem sequenceAndSystemFaults : Obligations.SequenceAndSystemFaults := by
  unfold Obligations.SequenceAndSystemFaults
  exact ⟨illegal_sequences, loop_faults, system_faults⟩

end Sys2Proof

end

section
/-!
PROOFS. The issue of a bundle (O49): its fetch, the words of its form, the references of a compact bundle, and the marks of its staging.
-/

/- Elaborated in turn, as the file before. -/
set_option Elab.async false

namespace Sys2Proof

open Sys2Proof.Machine Sys2Proof.Says

/-! ### Fetch (R22, R152) -/

theorem old_isEmpty_iff {s : State} {p : Nat} :
    (((s.part p).stale.filter fun e => e.1 == place s p).map Prod.snd).isEmpty = true ↔ fresh s p := by
  simp [fresh, place]

theorem fetchBundle_of_fresh {s : State} {p : Nat} (h : fresh s p) : fetchBundle p s = (bundle s p, s) := by
  unfold fetchBundle
  exact if_pos (old_isEmpty_iff.2 h)

/-- A list that an index may pass the end of gives an element of it, or what stands after it. -/
theorem getD_mem_or {α : Type} (l : List α) (n : Nat) (x : α) : l.getD n x = x ∨ l.getD n x ∈ l := by
  rw [List.getD_eq_getElem?_getD]
  cases h : l[n]? with
  | none => exact .inl rfl
  | some y => exact .inr (List.mem_of_getElem? h)

theorem fetchBundle_word (s : State) (p : Nat) :
    (fetchBundle p s).1 = bundle s p ∨ (place s p, (fetchBundle p s).1) ∈ (s.part p).stale := by
  unfold fetchBundle
  extract_lets x a now old
  split
  · exact .inl rfl
  · refine (getD_mem_or old _ now).imp_right fun h => ?_
    obtain ⟨e, he, h⟩ := List.mem_map.1 h
    obtain ⟨he, ha⟩ := List.mem_filter.1 he
    rw [← h, show place s p = e.1 from (eq_of_beq ha).symm]
    exact he

/-- The fetch changes nothing but the count of free choices. -/
theorem fetchBundle_state (s : State) (p : Nat) :
    ∃ n, (fetchBundle p s).2 = { s with freeCtr := s.freeCtr + n } ∧ (fresh s p → n = 0) := by
  unfold fetchBundle
  extract_lets x a now old c n r
  split
  · exact ⟨0, rfl, fun _ => rfl⟩
  · next ho =>
    unfold r
    split
    · exact ⟨0, rfl, fun _ => rfl⟩
    · exact ⟨1, rfl, fun h => absurd (old_isEmpty_iff.2 h) ho⟩

/-! ### Covered bundles (R83, R85) -/

/-- The innermost of the levels that end here, passes left: those before it are at their last pass. -/
theorem loopsBack_iff {pc : Nat} {ls : List LoopLevel} : loopsBack pc ls = true ↔
    ∃ a l b, ls = a ++ l :: b ∧ (∀ x ∈ a, x.stop = pc ∧ x.remaining ≤ 1) ∧ l.stop = pc ∧ 1 < l.remaining := by
  induction ls with
  | nil => simp [loopsBack]
  | cons l r ih =>
    rw [loopsBack, Bool.and_eq_true, Bool.or_eq_true, beq_iff_eq, decide_eq_true_iff, ih]
    constructor
    · rintro ⟨hl, hr | ⟨a, k, b, rfl, ha, hk⟩⟩
      · exact ⟨[], l, r, rfl, nofun, hl, hr⟩
      · by_cases hr : 1 < l.remaining
        · exact ⟨[], l, _, rfl, nofun, hl, hr⟩
        · exact ⟨l :: a, k, b, rfl, List.forall_mem_cons.2 ⟨⟨hl, Nat.not_lt.1 hr⟩, ha⟩, hk⟩
    · rintro ⟨a, k, b, e, ha, hk⟩
      cases a with
      | nil =>
        obtain ⟨rfl, rfl⟩ := List.cons.inj e
        exact ⟨hk.1, .inl hk.2⟩
      | cons x a =>
        obtain ⟨rfl, rfl⟩ := List.cons.inj e
        obtain ⟨hx, ha⟩ := List.forall_mem_cons.1 ha
        exact ⟨hx.1, .inr ⟨a, k, b, rfl, ha, hk⟩⟩

theorem guards_eq (s : State) (p : Nat) : (!decide (0 < (s.part p).pblk.rem) ||
    (s.part p).preds.getLsbD (s.part p).pblk.pred == Sys2Proof.bit (s.part p).pblk.pat 0) = guards s p := by
  unfold guards
  congr 1
  rw [← decide_not]
  exact decide_eq_decide.2 (by omega)

/-! ### What staging changes -/

theorem stageRefs_frame (c : Core) (is : List Nat) (cu : Cursor) :
    stageRefs c is cu = { cu with staged := (stageRefs c is cu).staged, marks := (stageRefs c is cu).marks } := rfl

theorem stage_frame (c : Core) (cu : Cursor) : stage c cu = { cu with staged := (stage c cu).staged, marks := (stage c cu).marks } := by
  unfold stage
  split
  · rfl
  · dsimp only
    split <;> rfl
  · exact stageRefs_frame ..
  · rfl

theorem stage_plain {c : Core} {cu : Cursor} (h : formOf cu.word = 0) : stage c cu = { cu with staged := plainSlots cu.word } := by
  unfold stage
  rw [h]
  rfl

theorem stage_compact {c : Core} {cu : Cursor} (h : formOf cu.word = 2) : stage c cu = stageRefs c [0, 1, 2, 3] cu := by
  unfold stage
  rw [h]
  rfl

theorem stage_none {c : Core} {cu : Cursor} (h : formOf cu.word = 3) : stage c cu = cu.bad causeIllegalBundle [0] := by
  unfold stage
  rw [h]
  rfl

theorem stage_headed {c : Core} {cu : Cursor} (h : formOf cu.word = 1) : stage c cu =
    if headerBad cu.word then ({ cu with staged := headedSlots cu.word } : Cursor).bad causeIllegalEncoding [1, 2, 3]
    else { cu with staged := headedSlots cu.word } := by
  unfold stage
  rw [h]
  rfl

theorem stage_headed_staged {c : Core} {cu : Cursor} (h : formOf cu.word = 1) : (stage c cu).staged = headedSlots cu.word := by
  rw [stage_headed h]
  split <;> rfl

theorem stage_headed_marks {c : Core} {cu : Cursor} (h : formOf cu.word = 1) :
    (stage c cu).marks = cu.marks ++ if headerBad cu.word then [⟨1, 0x02, 0, 0⟩, ⟨2, 0x02, 0, 0⟩, ⟨3, 0x02, 0, 0⟩] else [] := by
  rw [stage_headed h]
  split
  · rfl
  · exact (List.append_nil _).symm

/-- The scalar ports of the four schemes (R68). -/
theorem spxPorts_eq {x : Nat} (h : x < 4) :
    spxPorts x = (([(2, 2, 2), (3, 2, 1), (1, 2, 3), (1, 1, 4)] : List (Nat × Nat × Nat))[x]?).getD (0, 0, 0) := by
  match x, h with
  | 0, _ | 1, _ | 2, _ | 3, _ => rfl

/-! ### A reference and its entry (R74, R76 to R78) -/

/-- The word that entry e stands for under offset k, where it can be used, with the other words that must decode. -/
theorem templateSlot_some {c : Core} {k : Nat} {r : RawSlot} (h : (templateSlot c k).2 = some r) :
    standsFor (Cells.get 0 (k / 128) c.cwt).toNat (k % 128) r := by
  unfold templateSlot at h
  dsimp only at h
  split at h
  · cases h
  · next w hw =>
    split at h
    · next ho =>
      cases h
      have hs : ∀ n : Nat, (n != 0) = decide (n ≠ 0) := fun n => Bool.eq_iff_iff.2 (by rw [bne_iff_ne, decide_eq_true_iff])
      exact ⟨rfl, ⟨hw, ho⟩, rfl, rfl, rfl, by rw [hs]⟩
    · cases h

theorem templateSlot_isSome {c : Core} {k : Nat} :
    (templateSlot c k).2.isSome = true ↔ ∃ x, usableEntry (Cells.get 0 (k / 128) c.cwt).toNat (k % 128) x := by
  constructor
  · intro h
    obtain ⟨r, h⟩ := Option.isSome_iff_exists.1 h
    obtain ⟨-, h, -⟩ := templateSlot_some h
    exact ⟨_, h⟩
  · rintro ⟨x, hx, ho⟩
    unfold templateSlot
    dsimp only
    rw [hx]
    dsimp only
    rw [if_pos ho]
    rfl

/-! ### The references of a group (R74 to R76) -/

/-- The enabled references of a group. -/
def enabledOf (w : W128) (is : List Nat) : List Nat := is.filter (refEnabled w)

/-- The slots that they name, with their words. -/
def templatesOf (c : Core) (w : W128) (is : List Nat) : List (Nat × Option RawSlot) :=
  (enabledOf w is).map fun i => templateSlot c (refOf w i)

/-- The templates of slot k. -/
def inSlot (k : Nat) (ts : List (Nat × Option RawSlot)) : List (Nat × Option RawSlot) := ts.filter fun t => t.1 == k

theorem mem_inSlot {k : Nat} {ts : List (Nat × Option RawSlot)} {t : Nat × Option RawSlot} : t ∈ inSlot k ts ↔ t ∈ ts ∧ t.1 = k := by
  rw [inSlot, List.mem_filter, beq_iff_eq]

/-- The slots that two references name. -/
def twiceIn (ts : List (Nat × Option RawSlot)) : List Nat := (List.range 4).filter fun k => decide (1 < (inSlot k ts).length)

/-- The slots of the references whose entries cannot be used. -/
def unusable (ts : List (Nat × Option RawSlot)) : List Nat := (ts.filter fun t => t.2.isNone).map Prod.fst

/-- A reserved bit is set, or a disabled reference is not 0. -/
def reservedSet (w : W128) (is : List Nat) : Bool :=
  Sys2Proof.fld w.toNat 16 7 != 0 || is.any fun i => !refEnabled w i && refOf w i != 0

theorem stageRefs_eq (c : Core) (is : List Nat) (cu : Cursor) : stageRefs c is cu = { cu with
    staged := (inSlotOrder (templatesOf c cu.word is)).filterMap Prod.snd,
    marks := cu.marks ++ (twiceIn (templatesOf c cu.word is) ++ unusable (templatesOf c cu.word is) ++
      if reservedSet cu.word is then [4] else []).map fun k => ⟨k, 0x02, 0, 0⟩ } := rfl

theorem reservedSet_iff {w : W128} {is : List Nat} : reservedSet w is = false ↔
    fld w.toNat 16 7 = 0 ∧ ∀ i ∈ is, refEnabled w i = false → reference w i = 0 := by
  simp only [reservedSet, Bool.or_eq_false_iff, bne_eq_false_iff_eq, List.any_eq_false, Bool.and_eq_true, Bool.not_eq_true',
    bne_iff_ne, not_and, not_not]
  rfl

theorem unusable_iff {c : Core} {w : W128} {is : List Nat} : unusable (templatesOf c w is) = [] ↔
    ∀ i ∈ is, refEnabled w i = true → (templateSlot c (refOf w i)).2.isSome = true := by
  simp only [unusable, templatesOf, enabledOf, List.map_eq_nil_iff, List.filter_eq_nil_iff, List.forall_mem_map, List.mem_filter,
    and_imp, Option.isNone_iff_eq_none, Option.isSome_iff_ne_none, ne_eq]

/-- A list without a repetition holds at most one element just where any two of its elements are one. -/
theorem length_le_one_iff {α : Type} {l : List α} (h : l.Nodup) : l.length ≤ 1 ↔ ∀ a ∈ l, ∀ b ∈ l, a = b := by
  match l, h with
  | [], _ => simp
  | [a], _ => simp
  | a :: b :: r, h =>
    have hne : a ≠ b := fun e => (List.nodup_cons.1 h).1 (e ▸ List.mem_cons_self)
    refine iff_of_false (by simp) fun g => hne (g a List.mem_cons_self b (List.mem_cons_of_mem _ List.mem_cons_self))

theorem inSlot_length {c : Core} {w : W128} {is : List Nat} (k : Nat) : (inSlot k (templatesOf c w is)).length =
    ((enabledOf w is).filter fun i => (templateSlot c (refOf w i)).1 == k).length := by
  rw [inSlot, templatesOf, List.filter_map, List.length_map]
  rfl

theorem twiceIn_iff {c : Core} {w : W128} {is : List Nat} (h : is.Nodup) : twiceIn (templatesOf c w is) = [] ↔
    ∀ i ∈ is, ∀ j ∈ is, refEnabled w i = true → refEnabled w j = true → i ≠ j →
      (templateSlot c (refOf w i)).1 ≠ (templateSlot c (refOf w j)).1 := by
  have hlt : ∀ i, (templateSlot c (refOf w i)).1 < 4 := fun i => Nat.mod_lt _ (by decide)
  simp only [twiceIn, List.filter_eq_nil_iff, List.mem_range, decide_eq_true_eq, Nat.not_lt, inSlot_length,
    length_le_one_iff ((h.filter _).filter _), enabledOf, List.mem_filter, beq_iff_eq]
  constructor
  · intro g i hi j hj ei ej hne hs
    exact hne (g _ (hlt i) i ⟨⟨hi, ei⟩, rfl⟩ j ⟨⟨hj, ej⟩, hs.symm⟩)
  · rintro g k - i ⟨⟨hi, ei⟩, rfl⟩ j ⟨⟨hj, ej⟩, hs⟩
    exact not_not.1 fun hne => g i hi j hj ei ej hne hs.symm

/-- The staging of references marks nothing just where they are in order. -/
theorem orderly_iff {s : State} {p : Nat} {w : W128} {is : List Nat} (h : is.Nodup) : orderly s p w is ↔
    twiceIn (templatesOf (s.core (p / 4)) w is) ++ unusable (templatesOf (s.core (p / 4)) w is) ++
      (if reservedSet w is then [4] else []) = [] := by
  rw [List.append_eq_nil_iff, List.append_eq_nil_iff, twiceIn_iff h, unusable_iff, ite_eq_right_iff,
    show (reservedSet w is = true → [4] = []) ↔ reservedSet w is = false by simp, reservedSet_iff]
  simp only [templateSlot_isSome]
  unfold orderly
  constructor
  · rintro ⟨h0, hd, hu, hs⟩
    exact ⟨⟨hs, hu⟩, h0, hd⟩
  · rintro ⟨⟨hs, hu⟩, h0, hd⟩
    exact ⟨h0, hd, hu, hs⟩

/-! ### Staged in slot order (R30) -/

theorem mem_inSlotOrder {c : Core} {w : W128} {is : List Nat} {t : Nat × Option RawSlot} :
    t ∈ inSlotOrder (templatesOf c w is) ↔ ∃ i ∈ is, refEnabled w i = true ∧ templateSlot c (refOf w i) = t := by
  have hlt : ∀ i, (templateSlot c (refOf w i)).1 < 4 := fun i => Nat.mod_lt _ (by decide)
  simp only [inSlotOrder, templatesOf, enabledOf, List.mem_flatMap, List.mem_range, List.mem_filter, List.mem_map, beq_iff_eq]
  constructor
  · rintro ⟨k, -, ⟨i, ⟨hi, ei⟩, rfl⟩, -⟩
    exact ⟨i, hi, ei, rfl⟩
  · rintro ⟨i, hi, ei, rfl⟩
    exact ⟨_, hlt i, ⟨i, ⟨hi, ei⟩, rfl⟩, rfl⟩

theorem staged_slot {c : Core} {w : W128} {is : List Nat} {t : Nat × Option RawSlot} {r : RawSlot}
    (h : t ∈ inSlotOrder (templatesOf c w is)) (hr : t.2 = some r) : r.slot = t.1 := by
  obtain ⟨i, -, -, rfl⟩ := mem_inSlotOrder.1 h
  exact (templateSlot_some hr).1

theorem inSlotOrder_pairwise {ts : List (Nat × Option RawSlot)} (h : twiceIn ts = []) :
    (inSlotOrder ts).Pairwise fun x y => x.1 < y.1 := by
  simp only [twiceIn, List.filter_eq_nil_iff, List.mem_range, decide_eq_true_eq, Nat.not_lt] at h
  refine List.pairwise_flatMap.2 ⟨fun k hk => ?_, List.pairwise_lt_range.imp fun hab x hx y hy => ?_⟩
  · have hl : (inSlot k ts).length ≤ 1 := h k (List.mem_range.1 hk)
    show (inSlot k ts).Pairwise _
    match inSlot k ts, hl with
    | [], _ => exact .nil
    | [t], _ => exact List.pairwise_singleton ..
  · rw [(mem_inSlot.1 hx).2, (mem_inSlot.1 hy).2]
    exact hab

/-- What is staged, and marked, of the references of one group. -/
theorem stageRefs_stages {s : State} {p : Nat} {is : List Nat} (h : is.Nodup) {cu : Cursor} (hm : cu.marks = []) :
    stages s p cu.word is (stageRefs (s.core (p / 4)) is cu).staged (stageRefs (s.core (p / 4)) is cu).marks := by
  rw [stageRefs_eq, hm]
  dsimp only
  refine ⟨fun ho => ?_, fun ho => ?_⟩
  · have hnil := (orderly_iff h).1 ho
    obtain ⟨⟨ht, -⟩, -⟩ := (List.append_eq_nil_iff.1 hnil).imp_left List.append_eq_nil_iff.1
    obtain ⟨-, -, hu, -⟩ := ho
    refine ⟨by rw [hnil]; rfl, ?_, fun i hi ei => ?_, fun r hr => ?_⟩
    · refine List.pairwise_map.2 (List.pairwise_filterMap.2 ((inSlotOrder_pairwise ht).imp_of_mem fun ha hb hlt x hx y hy => ?_))
      rw [staged_slot ha hx, staged_slot hb hy]
      exact hlt
    · obtain ⟨r, hr⟩ := Option.isSome_iff_exists.1 (templateSlot_isSome.2 (hu i hi ei))
      exact ⟨r, List.mem_filterMap.2 ⟨_, mem_inSlotOrder.2 ⟨i, hi, ei, rfl⟩, hr⟩, templateSlot_some hr⟩
    · obtain ⟨t, ht, hr⟩ := List.mem_filterMap.1 hr
      obtain ⟨i, hi, ei, rfl⟩ := mem_inSlotOrder.1 ht
      exact ⟨i, hi, ei, templateSlot_some hr⟩
  · obtain ⟨k, r, hk⟩ := List.exists_cons_of_ne_nil (mt (orderly_iff h).2 ho)
    rw [hk]
    exact ⟨_, List.mem_cons_self, rfl⟩

/-! ### Issue -/

/-- The cursor of the bundle w at partition p. -/
def startedAt (s : State) (p : Nat) (w : W128) : Cursor :=
  Cursor.start p (if formOf w = 2 then 1 else 0) w (decide (0 < (s.part p).pblk.rem)) (guards s p) 0

/-- The same with its words staged. -/
def stagedAt (s : State) (p : Nat) (w : W128) : Cursor := stage (s.core (p / 4)) (startedAt s p w)

/-- The mark of a covered bundle that would loop back (R85). -/
def loopMarks (s : State) (p : Nat) : List Mark :=
  if decide (1 < (s.part p).pblk.rem) && loopsBack (s.part p).pc (s.part p).loops then [⟨0, 0x03, 0, 0⟩] else []

theorem loopMarks_iff {s : State} {p : Nat} :
    (1 < (s.part p).pblk.rem → again s p → loopMarks s p = [⟨0, 0x03, 0, 0⟩]) ∧
      (¬ (1 < (s.part p).pblk.rem ∧ again s p) → loopMarks s p = []) := by
  have e : (decide (1 < (s.part p).pblk.rem) && loopsBack (s.part p).pc (s.part p).loops) = true ↔ 1 < (s.part p).pblk.rem ∧ again s p := by
    rw [Bool.and_eq_true, decide_eq_true_iff, loopsBack_iff]
    rfl
  exact ⟨fun hr ha => if_pos (e.2 ⟨hr, ha⟩), fun h => if_neg (mt e.1 h)⟩

theorem exec_bundleIssue (s : State) (p : Nat) : exec (.bundleIssue p) s = .next { (fetchBundle p s).2 with
    cur := { stagedAt s p (fetchBundle p s).1 with
      marks := (stagedAt s p (fetchBundle p s).1).marks ++ loopMarks s p } } := by
  show execBundleIssue p s = _
  unfold execBundleIssue
  dsimp only
  rw [guards_eq, loopMarks]
  split
  · rfl
  · rw [List.append_nil]
    rfl

theorem stagedAt_frame (s : State) (p : Nat) (w : W128) : stagedAt s p w =
    { startedAt s p w with staged := (stagedAt s p w).staged, marks := (stagedAt s p w).marks } := stage_frame ..

theorem stagedAt_marks (s : State) (p : Nat) (w : W128) (ms : List Mark) :
    ({ stagedAt s p w with marks := ms } : Cursor) = { startedAt s p w with staged := (stagedAt s p w).staged, marks := ms } :=
  congrArg (fun c : Cursor => { c with marks := ms }) (stagedAt_frame s p w)

/-- The words that a bundle stages, and what its staging marks, by its form. -/
theorem stagedAt_form (s : State) (p : Nat) (w : W128) :
    (form w = 0 → (stagedAt s p w).marks = [] ∧ (stagedAt s p w).staged = plainSlots w) ∧
    (form w = 1 → (stagedAt s p w).staged = headedSlots w ∧
      (stagedAt s p w).marks = if headerBad w then [⟨1, 0x02, 0, 0⟩, ⟨2, 0x02, 0, 0⟩, ⟨3, 0x02, 0, 0⟩] else []) ∧
    (form w = 2 → stages s p w [0, 1, 2, 3] (stagedAt s p w).staged (stagedAt s p w).marks) ∧
    (form w = 3 → (stagedAt s p w).staged = [] ∧ (stagedAt s p w).marks = [⟨0, 0x01, 0, 0⟩]) := by
  unfold stagedAt
  refine ⟨fun h => ?_, fun h => ⟨stage_headed_staged h, stage_headed_marks h⟩, fun h => ?_, fun h => ?_⟩
  · rw [stage_plain (cu := startedAt s p w) h]
    exact ⟨rfl, rfl⟩
  · rw [stage_compact (cu := startedAt s p w) h]
    exact stageRefs_stages (is := [0, 1, 2, 3]) (cu := startedAt s p w) (by decide) rfl
  · rw [stage_none (cu := startedAt s p w) h]
    exact ⟨rfl, rfl⟩

/-- The header's words with the ports that its scheme gives them (R68). -/
theorem headedSlots_eq (w : W128) :
    let h := wordOf w 0
    let sp := (([(2, 2, 2), (3, 2, 1), (1, 2, 3), (1, 1, 4)] : List (Nat × Nat × Nat))[fld h 6 2]?).getD (0, 0, 0)
    let mod := fun (x : Nat) => Machine.Mod.mk true (fld h x 6) 0 none none 0 false
    headedSlots w = [⟨1, wordOf w 1, [], mod 12, fld h 8 2, fld h 0 2, sp.1⟩, ⟨2, wordOf w 2, [], mod 18, 0, fld h 2 2, sp.2.1⟩,
      ⟨3, wordOf w 3, [], mod 24, fld h 10 2, fld h 4 2, sp.2.2⟩] := by
  unfold headedSlots
  dsimp only
  rw [spxPorts_eq (x := fld (slotWord w 0) 6 2) (Nat.mod_lt _ (by decide))]
  rfl

theorem bundle_issues (s : State) (p : Nat) : ∃ n w, exec (.bundleIssue p) s = .next { s with
    cur := { startedAt s p w with staged := (stagedAt s p w).staged, marks := (stagedAt s p w).marks ++ loopMarks s p },
    freeCtr := s.freeCtr + n } ∧ (w = bundle s p ∨ (place s p, w) ∈ (s.part p).stale) ∧ (fresh s p → w = bundle s p ∧ n = 0) := by
  obtain ⟨n, hn, h0⟩ := fetchBundle_state s p
  refine ⟨n, (fetchBundle p s).1, ?_, fetchBundle_word s p, fun h => ⟨by rw [fetchBundle_of_fresh h], h0 h⟩⟩
  rw [exec_bundleIssue, stagedAt_marks, hn]

/-- The cursor of group 2 of a compact bundle. -/
def startedTwo (s : State) (p : Nat) (g : Group2) : Cursor :=
  Cursor.start p 2 g.word (decide (0 < (s.part p).pblk.rem)) g.guard g.done

theorem exec_compactGroup2Issue {s : State} {p : Nat} {g : Group2} (h : (s.part p).group2 = some g) :
    exec (.compactGroup2Issue p) s = .next { s with cur := stageRefs (s.core (p / 4)) [4, 5, 6] (startedTwo s p g) } := by
  show execCompactGroup2Issue p s = _
  unfold execCompactGroup2Issue
  rw [h]
  rfl

theorem exec_compactGroup2Issue_none {s : State} {p : Nat} (h : (s.part p).group2 = none) :
    exec (.compactGroup2Issue p) s = .next s := by
  show execCompactGroup2Issue p s = _
  unfold execCompactGroup2Issue
  rw [h]

/-- Settles O49: the fetched bytes, the words of their form, and the marks of the checks that staging makes. -/
theorem bundlesAndGroupsIssue : Obligations.BundlesAndGroupsIssue := by
  unfold Obligations.BundlesAndGroupsIssue
  refine ⟨fun s p => ?_, fun s p g hg => ?_, fun s p hg => ?_⟩
  · obtain ⟨n, w, he, hw, hf⟩ := bundle_issues s p
    obtain ⟨hplain, hheaded, hcompact, hnone⟩ := stagedAt_form s p w
    refine ⟨_, n, w, (stagedAt s p w).marks, loopMarks s p, he, hw, hf, rfl, rfl, rfl, rfl, rfl, rfl, rfl, rfl, rfl, rfl, rfl, rfl,
      loopMarks_iff.1, loopMarks_iff.2, hplain, fun h => ?_, fun h => ⟨if_pos h, hcompact h⟩, hnone⟩
    obtain ⟨hs, hm⟩ := hheaded h
    refine ⟨hs.trans (headedSlots_eq w), hm.trans ?_⟩
    simp only [headerBad, decide_eq_true_eq]
    rfl
  · exact ⟨_, exec_compactGroup2Issue hg, rfl, rfl, rfl, rfl, rfl, rfl, rfl, rfl, rfl, rfl, rfl, rfl, rfl,
      stageRefs_stages (is := [4, 5, 6]) (cu := startedTwo s p g) (by decide) rfl⟩
  · exact exec_compactGroup2Issue_none hg

end Sys2Proof

end

section
/-!
PROOFS. Steps and words (O52, O53): the listed turn, a plain bundle of one word, the next phase, and words written from the encodings.
-/

/- Elaborated in turn, as the file before. -/
set_option Elab.async false

namespace Sys2Proof

open Sys2Proof.Machine Sys2Proof.Says

/-! ### Turns -/

theorem step_turn {s : State} {a : Turn} {r : List Turn} (h : s.agenda = a :: r) : step s = runTurn exec a { s with agenda := r } := by
  unfold step
  rw [h]

theorem step_phase {s : State} (h : s.agenda = []) : step s = .next (nextPhase exec s) := by
  unfold step
  rw [h]

theorem presents_eq_false {i : Instr} {s : State} (h : ∀ p, i ≠ .bundleIssue p ∧ i ≠ .compactGroup2Issue p) : presents i s = false := by
  unfold presents
  split
  · next p => exact absurd rfl (h p).1
  · next p => exact absurd rfl (h p).2
  · rfl

theorem step_of_event {s u : State} {n : Nat} {i : Instr} {r : List Turn} (ha : s.agenda = ⟨n, i⟩ :: r)
    (hi : ∀ p, i ≠ .bundleIssue p ∧ i ≠ .compactGroup2Issue p)
    (hu : exec i { s with agenda := r, cur := { Cursor.empty with core := n } } = .next u) :
    step s = .next { u with cur := Cursor.empty } := by
  rw [step_turn ha]
  unfold runTurn
  rw [presents_eq_false hi, hu]
  rfl

/-! ### A plain bundle of one word -/

theorem scalarPorts_le (m f : Nat) : scalarPorts m f ≤ 2 := by
  unfold scalarPorts
  split
  all_goals try split
  all_goals decide

theorem portsOf_slot0 (w : Nat) : portsOf 0 w =
    if majOf 0 w = 0x13 then (0, 1) else if majOf 0 w = 0x15 then (0, b2n (Sys2Proof.bit w 23)) else
      if majOf 0 w = 0x1E then (0, 1) else (0, scalarPorts (majOf 0 w) (fnOf w)) := rfl

/-- A word of slot 0 needs no vector port and at most two scalar ports (R49). -/
theorem portsOf_zero (w : Nat) : (portsOf 0 w).1 = 0 ∧ (portsOf 0 w).2 ≤ 2 := by
  rw [portsOf_slot0]
  split_ifs
  · exact ⟨rfl, Nat.le_succ 1⟩
  · exact ⟨rfl, (b2n_lt _).le⟩
  · exact ⟨rfl, Nat.le_succ 1⟩
  · exact ⟨rfl, scalarPorts_le ..⟩

/-- Slot 0 takes any word that decodes, under the default allotment. -/
theorem instr_slot0 {w : Nat} {i : Instr} (h : decodeSlot 0 w = .ok i) : (⟨0, w, [], Mod.plain, 0, 0, 2⟩ : RawSlot).instr = some i := by
  obtain ⟨hv, hs⟩ := portsOf_zero w
  have hf : (⟨0, w, [], Mod.plain, 0, 0, 2⟩ : RawSlot).fits = true := by
    unfold RawSlot.fits
    dsimp only
    rw [hv, decide_eq_true hs]
    rfl
  unfold RawSlot.instr
  rw [h, hf]
  rfl

/-- A word of 0 is a NOP in slots 1 to 3 (R64). -/
theorem instr_zero : (⟨1, 0, [], Mod.plain, 0, 2, 1⟩ : RawSlot).instr = some .nop ∧
    (⟨2, 0, [], Mod.plain, 0, 1, 2⟩ : RawSlot).instr = some .nop ∧ (⟨3, 0, [], Mod.plain, 0, 1, 1⟩ : RawSlot).instr = some .nop :=
  ⟨rfl, rfl, rfl⟩

/-- The end of a presentation does not look at the slot that ran last. -/
theorem finishIssue_slot (b v : State) (k : Nat) (m : Machine.Mod) :
    finishIssue b (v.updCur fun c => { c with slot := k, mod := m }) = finishIssue b v := by
  have ht : presentTrap b (v.updCur fun c => { c with slot := k, mod := m }) = presentTrap b v := rfl
  have hc : commitBundle b (v.updCur fun c => { c with slot := k, mod := m }) = commitBundle b v := by
    rw [commitBundle_eq, commitBundle_eq]
    rfl
  unfold finishIssue
  rw [ht, hc]
  rfl

/-- Slot 0 runs whatever the guard (R84). -/
theorem runSlots_slot0 {r : RawSlot} {i : Instr} {ws : List (RawSlot × Instr)} {s t : State} (h : r.slot = 0)
    (ht : exec i (s.updCur fun c => { c with slot := r.slot, mod := r.mod }) = .next t) :
    runSlots exec ((r, i) :: ws) s = runSlots exec ws t := by
  rw [runSlots, if_neg fun g => g.1 h, ht]

theorem runSlots_nops (ws : List RawSlot) (v : State) : ∃ k m, runSlots exec (ws.map fun r => (r, Instr.nop)) v =
    .next (v.updCur fun c => { c with slot := k, mod := m }) := by
  induction ws generalizing v with
  | nil => exact ⟨v.cur.slot, v.cur.mod, rfl⟩
  | cons r ws ih =>
    rw [List.map_cons, runSlots]
    split
    · exact ih v
    · exact ih (v.updCur fun c => { c with slot := r.slot, mod := r.mod })

/-- The words of a plain bundle whose slots 1 to 3 are 0. -/
abbrev oneWord (x : Nat) : List RawSlot :=
  [⟨0, x, [], Mod.plain, 0, 0, 2⟩, ⟨1, 0, [], Mod.plain, 0, 2, 1⟩, ⟨2, 0, [], Mod.plain, 0, 1, 2⟩, ⟨3, 0, [], Mod.plain, 0, 1, 1⟩]

/-- Where no word is a vector operation and no slot asks for a width, the widths are in order (R71). -/
theorem setWidths_of_scalar {rs : List RawSlot} (h : ∀ r ∈ rs, isVec r.slot r.word = false ∧ r.wcode = 0) : setWidths rs = ([], rs) := by
  unfold setWidths
  extract_lets vec two out total bad
  have ho : out = rs := by
    refine (List.map_congr_left fun r hr => if_neg ?_).trans (List.map_id' rs)
    rw [(h r hr).1]
    exact Bool.false_ne_true
  have hb : bad = [] := by
    unfold bad
    rw [ho, List.map_eq_nil_iff, List.filter_eq_nil_iff]
    intro r hr
    obtain ⟨hv, hw⟩ := h r hr
    rw [hv, hw]
    exact Bool.false_ne_true
  rw [ho, hb]

theorem setWidths_oneWord (x : Nat) : setWidths (oneWord x) = ([], oneWord x) := by
  refine setWidths_of_scalar ?_
  simp only [oneWord, List.forall_mem_cons]
  exact ⟨⟨rfl, trivial⟩, ⟨rfl, trivial⟩, ⟨rfl, trivial⟩, ⟨rfl, trivial⟩, nofun⟩

theorem portsBad_oneWord (x : Nat) : portsBad (oneWord x) = [] := rfl

theorem runStaged_oneWord {b : State} {x : Nat} {i : Instr} (hs : b.cur.staged = oneWord x) (hm : b.cur.marks = [])
    (hi : decodeSlot 0 x = .ok i) :
    runStaged exec b = runSlots exec ((⟨0, x, [], Mod.plain, 0, 0, 2⟩, i) :: ((oneWord x).tail.map fun r => (r, Instr.nop))) b := by
  obtain ⟨h1, h2, h3⟩ := instr_zero
  have hnone : (oneWord x).filter (fun r => r.instr.isNone) = [] := by simp [instr_slot0 hi, h1, h2, h3]
  have hsome : (oneWord x).filter (fun r => r.instr.isSome) = oneWord x := by simp [instr_slot0 hi, h1, h2, h3]
  have hi : (oneWord x).filterMap (fun r => r.instr.map fun i => (r, i)) =
      (⟨0, x, [], Mod.plain, 0, 0, 2⟩, i) :: ((oneWord x).tail.map fun r => (r, Instr.nop)) := by simp [instr_slot0 hi, h1, h2, h3]
  have ht : (b.updCur fun c => { c with staged := oneWord x }.bad causeIllegalEncoding []) = b := by
    show { b with cur := { b.cur with staged := oneWord x, marks := b.cur.marks ++ [] } } = b
    rw [List.append_nil, ← hs]
  unfold runStaged
  dsimp only
  rw [hs, hnone, hsome, setWidths_oneWord, portsBad_oneWord]
  dsimp only
  rw [List.map_nil, List.append_nil, List.append_nil, ht, hm, hi]
  rfl

/-- The nops of slots 1 to 3 add nothing to the run of slot 0. -/
theorem issueSlots_oneWord {b v : State} {x : Nat} {i : Instr} (hs : b.cur.staged = oneWord x) (hm : b.cur.marks = [])
    (hi : decodeSlot 0 x = .ok i) (hv : exec i { b with cur := { b.cur with slot := 0, mod := Machine.Mod.plain } } = .next v) :
    issueSlots exec b = .next (finishIssue b v) := by
  obtain ⟨k, m, hn⟩ := runSlots_nops (oneWord x).tail v
  have hr : runStaged exec b = .next (v.updCur fun c => { c with slot := k, mod := m }) := by
    rw [runStaged_oneWord hs hm hi, runSlots_slot0 rfl hv]
    exact hn
  unfold issueSlots
  rw [hr]
  exact congrArg Host.Outcome.next (finishIssue_slot b v k m)

/-- A plain bundle, its bytes fenced, that would not loop back under a block stages its words and marks nothing. -/
theorem plain_issues {s : State} {p : Nat} (hf : fresh s p) (hw : form (bundle s p) = 0) (hl : ¬ (1 < (s.part p).pblk.rem ∧ again s p)) :
    exec (.bundleIssue p) s = .next { s with cur := { startedAt s p (bundle s p) with staged := plainSlots (bundle s p) } } := by
  obtain ⟨hm, hs⟩ := (stagedAt_form s p (bundle s p)).1 hw
  rw [exec_bundleIssue, stagedAt_marks, fetchBundle_of_fresh hf, hs, hm, loopMarks_iff.2 hl]
  rfl

theorem plainSlots_oneWord {w : W128} (h1 : wordOf w 1 = 0) (h2 : wordOf w 2 = 0) (h3 : wordOf w 3 = 0) :
    plainSlots w = oneWord (wordOf w 0) := by
  unfold plainSlots
  rw [show slotWord w 1 = 0 from h1, show slotWord w 2 = 0 from h2, show slotWord w 3 = 0 from h3]
  rfl

theorem step_of_plain {s : State} {n p : Nat} {r : List Turn} {i : Instr} {b v : State} (ha : s.agenda = ⟨n, .bundleIssue p⟩ :: r)
    (hf : fresh s p) (hw : form (bundle s p) = 0) (h1 : wordOf (bundle s p) 1 = 0) (h2 : wordOf (bundle s p) 2 = 0)
    (h3 : wordOf (bundle s p) 3 = 0) (hl : ¬ (1 < (s.part p).pblk.rem ∧ again s p)) (hi : decodeSlot 0 (wordOf (bundle s p) 0) = .ok i)
    (hb : exec (.bundleIssue p) { s with agenda := r } = .next b)
    (hv : exec i { b with cur := { b.cur with slot := 0, mod := Machine.Mod.plain } } = .next v) :
    step s = .next (finishIssue b v) := by
  have hp : exec (.bundleIssue p) { s with agenda := r, cur := { Cursor.empty with core := n } } = .next b :=
    (plain_issues (s := { s with agenda := r, cur := { Cursor.empty with core := n } }) hf hw hl).trans
      ((plain_issues (s := { s with agenda := r }) hf hw hl).symm.trans hb)
  obtain rfl := Host.Outcome.next.inj ((plain_issues (s := { s with agenda := r }) hf hw hl).symm.trans hb)
  rw [step_turn ha]
  unfold runTurn
  rw [hp]
  exact issueSlots_oneWord (plainSlots_oneWord h1 h2 h3) rfl hi hv

/-- Settles O52: the listed turn is run by its meaning, and a plain bundle of one word by the meaning of that word, the NOPs beside it
changing nothing. -/
theorem stepRunsTheDecodedInstruction : Obligations.StepRunsTheDecodedInstruction := by
  unfold Obligations.StepRunsTheDecodedInstruction
  refine ⟨fun _ _ _ _ _ ha hi hu => step_of_event ha hi hu, ?_, fun _ h => step_phase h⟩
  rintro s n p r w i b v ha hf rfl hw h1 h2 h3 hl hi hb hv
  exact step_of_plain ha hf hw h1 h2 h3 hl hi hb hv

/-- Settles O53: the decoder evaluated on each word. -/
theorem decodedWords : Obligations.DecodedWords := by
  unfold Obligations.DecodedWords
  simp only [List.forall_mem_cons]
  refine ⟨⟨rfl, rfl, rfl, rfl, rfl, rfl, rfl, rfl, rfl, rfl, nofun⟩,
    ⟨⟨rfl, rfl⟩, ⟨rfl, rfl⟩, ⟨rfl, rfl⟩, ⟨rfl, rfl⟩, ⟨rfl, rfl⟩, ⟨rfl, rfl⟩, ⟨rfl, rfl⟩, nofun⟩, ⟨rfl, rfl, nofun⟩, ⟨rfl, rfl, rfl, rfl, nofun⟩, ⟨rfl, rfl, rfl, nofun⟩, rfl, rfl, rfl, rfl⟩

end Sys2Proof

end

section
/-!
PROOFS. Number formats (O8): vector floating-point arithmetic element by element, and the sums of NaNs and of opposite numbers.
-/

/- Elaborated in turn, as the file before. -/
set_option Elab.async false

namespace Sys2Proof

open Sys2Proof.Machine Sys2Proof.Says

/-! ### Operations by elements (R157, R158) -/

/-- The masked elements of a result, pushed, are the entry that the shapes of vector instructions ask for. -/
theorem pushes_mapElems {s : State} (hs : wide s) (v : State) (d lat b : Nat) (f : Nat → Res) :
    pushes (.next (pushElems d lat b (mapElems s b (s.width / b) f) v)) s v d lat b (s.cur.mod.width / b) f :=
  ⟨_, _, holds_mapElems (mul_div_le_width hs (Nat.le_refl b)), rfl⟩

theorem vone_of_vector1 {i : Nat → Nat → Bool → Instr} {lat b : Nat} {f : State → Nat → Res}
    (h : ∀ s d a k, exec (i d a k) s = vector1 d a k lat b (f s) s) : vone i lat b f := by
  intro s d a k x u hs hx
  rw [h, vector1, readV_vsource hx]
  exact pushes_mapElems hs u d lat b fun j => f s (elem b j x)

theorem vtwo_of_vector2 {i : Nat → Nat → Nat → Bool → Bool → Instr} {lat b : Nat} {f : State → Nat → Nat → Res}
    (h : ∀ s d a c k m, exec (i d a c k m) s = vector2 d a c k m lat b (f s) s) : vtwo i lat b f := by
  intro s d a c k m x y u v hs hx hy
  rw [h, vector2, readV_vsource hx, readV_vsource hy]
  exact pushes_mapElems hs v d lat b fun j => f s (elem b j x) (elem b j y)

/-! ### Floating-point arithmetic (R159, R165) -/

theorem rnd_eq (s : State) : s.rnd = vmode s := by
  unfold State.rnd State.rmode vmode
  cases s.cur.mod.rm <;> rfl

/-- A two-source operation rounded once, in the mode that the slot names. -/
theorem vtwo_of_vfloat2 {i : Nat → Nat → Nat → Bool → Bool → Instr} {t : Nat} {f : RMode → Machine.Num → Machine.Num → Machine.Num × Nat}
    (h : ∀ s d a c k m, exec (i d a c k m) s = vfloat2 d a c k m t f s) :
    vtwo i 4 (if t = 0 then 32 else 16) fun s x y =>
      finish (.flt (vfloat t)) (vmode s) 0 false (f (vmode s) (readFlt (vfloat t) x) (readFlt (vfloat t) y)) :=
  vtwo_of_vector2 fun s d a c k m => by
    rw [h, vfloat2, rnd_eq]
    rfl

/-- VFMA reads its addend from its destination queue after the two factors. -/
theorem vfma_pushes {s u v w : State} {a c d : Nat} {k m : Bool} {x y z : V1024} (t : Nat) (hs : wide s)
    (hx : vsource s a k x u) (hy : vsource u c m y v) (hz : vsource v d false z w) :
    pushes (exec (.vfma d a c k m t) s) s w d 4 (if t = 0 then 32 else 16) (s.cur.mod.width / if t = 0 then 32 else 16) fun j =>
      let p := fun (e : V1024) => readFlt (vfloat t) (elem (if t = 0 then 32 else 16) j e)
      finish (.flt (vfloat t)) (vmode s) 0 false (dotNums (vmode s) [(p x, p y)] [p z]) := by
  rw [show exec (.vfma d a c k m t) s = execVfma d a c k m t s from rfl, execVfma, readV_vsource hx, readV_vsource hy,
    readV_vsource hz, rnd_eq]
  exact pushes_mapElems hs w d 4 (if t = 0 then 32 else 16) _

theorem vectorFloatArithmetic_holds : vectorFloatArithmetic := by
  intro t _
  refine ⟨?vfadd, ?vfsub, ?vfmul, ?vfma, ?vfmin, ?vfmax, ?vfabs, ?vfneg⟩
  case vfadd => exact vtwo_of_vfloat2 (f := fun md x y => sumNums md [x, y]) fun _ _ _ _ _ _ => rfl
  case vfsub => exact vtwo_of_vfloat2 (f := fun md x y => sumNums md [x, negNum y]) fun _ _ _ _ _ _ => rfl
  case vfmul => exact vtwo_of_vfloat2 (f := fun _ x y => mulNum x y) fun _ _ _ _ _ _ => rfl
  case vfma => exact fun _ _ _ _ _ _ _ _ _ _ _ _ hs hx hy hz => vfma_pushes t hs hx hy hz
  case vfmin => exact vtwo_of_vector2 fun _ _ _ _ _ _ => rfl
  case vfmax => exact vtwo_of_vector2 fun _ _ _ _ _ _ => rfl
  case vfabs => exact vone_of_vector1 fun _ _ _ _ => rfl
  case vfneg => exact vone_of_vector1 fun _ _ _ _ => rfl

/-! ### Sums of special values (R91, R110, R406) -/

@[simp] theorem isNan_negNum (x : Machine.Num) : (negNum x).isNan = x.isNan := by cases x <;> rfl
@[simp] theorem isInf_negNum (x : Machine.Num) : (negNum x).isInf = x.isInf := by cases x <;> rfl
@[simp] theorem den_negNum (x : Machine.Num) : (negNum x).den = x.den := by cases x <;> rfl

@[simp] theorem snum_negNum (x : Machine.Num) : (negNum x).snum = -x.snum := by
  cases x with
  | nan => rfl
  | inf s => rfl
  | fin s n d => cases s <;> simp [negNum, Num.neg, Num.withSign, Num.snum]

theorem sumNums_nan {xs : List Machine.Num} (h : xs.any Num.isNan = true) (md : RMode) : sumNums md xs = (.nan, 0) := if_pos h

/-- Over the common denominator a finite number and its negation have opposite numerators. -/
theorem sumNums_negNum {x : Machine.Num} (hn : x.isNan = false) (hi : x.isInf = false) (md : RMode) :
    ∃ z d, sumNums md [x, negNum x] = (.fin z 0 d, 0) := by
  have hnan : [x, negNum x].any Num.isNan = false := by simp [hn]
  have hinf : [x, negNum x].filter Num.isInf = [] := by simp [hi]
  simp [sumNums, hnan, hinf, numOfInt, den_negNum, snum_negNum]

theorem finish_nan {g : Flt} (h : g.hasNan = true) (md : RMode) (uni : Nat) (a128 : Bool) :
    finish (.flt g) md uni a128 (.nan, 0) = plain (fltNan g) := by
  simp [finish, convertNum, nanCase, h]

theorem finish_zero (g : Flt) (md : RMode) (uni : Nat) (a128 z : Bool) (d : Nat) :
    finish (.flt g) md uni a128 (.fin z 0 d, 0) = plain (fltSign g z 0) := by
  simp [finish, convertNum, zeroOf]

/-- A zero of either sign reads as a zero: its exponent and its mantissa are 0 (R91). -/
theorem readFlt_zero_isZero {g : Flt} (h : 0 < g.ebits) (z : Bool) : (readFlt g (fltSign g z 0)).isZero = true := by
  have hm : fltSign g z 0 % 2 ^ g.mbits = 0 := by
    rw [fltSign, Nat.zero_add, Nat.pow_add, ← Nat.mul_assoc, Nat.mul_mod_left]
  have he : fltSign g z 0 / 2 ^ g.mbits % 2 ^ g.ebits = 0 := by
    rw [fltSign, Nat.zero_add, Nat.pow_add, ← Nat.mul_assoc, Nat.mul_div_cancel _ (Nat.two_pow_pos _), Nat.mul_mod_left]
  have hz : (0 == 2 ^ g.ebits - 1) = false :=
    beq_false_of_ne (Nat.sub_ne_zero_of_lt (Nat.one_lt_two_pow h.ne')).symm
  simp only [readFlt, hm, he, hz, Bool.and_false, Bool.false_and, Bool.false_eq_true, if_false, if_true, Nat.zero_mul]
  split <;> rfl

theorem vfloat_hasNan (t : Nat) : (vfloat t).hasNan = true := by
  unfold vfloat
  split_ifs <;> rfl

theorem vfloat_ebits_pos (t : Nat) : 0 < (vfloat t).ebits := by
  unfold vfloat
  split_ifs <;> decide

theorem vectorFloatSumsOfSpecialValues_holds : vectorFloatSumsOfSpecialValues := by
  intro t _ md x y
  refine ⟨fun h => ?_, fun hn hi => ?_⟩
  · have ha : [readFlt (vfloat t) x, readFlt (vfloat t) y].any Num.isNan = true := by simpa using h
    rw [sumNums_nan ha, finish_nan (vfloat_hasNan t)]
  · obtain ⟨z, d, e⟩ := sumNums_negNum hn hi md
    rw [e, finish_zero]
    exact ⟨rfl, readFlt_zero_isZero (vfloat_ebits_pos t) z⟩

/-- Settles O8: each operation maps its element function over the lanes, and special values are settled by the sum before rounding. -/
theorem vectorFloatSums : Obligations.VectorFloatSums :=
  ⟨vectorFloatArithmetic_holds, vectorFloatSumsOfSpecialValues_holds⟩

end Sys2Proof

end

section
/-!
PROOFS. Vector arithmetic and compares (O6, O7, O9): elements that agree in their bits and flags, and packed ones bit by bit.
-/

/- Elaborated in turn, as the file before. -/
set_option Elab.async false

namespace Sys2Proof

open Sys2Proof.Machine Sys2Proof.Says

/-! ### Elements that agree (R101, R158) -/

theorem elem_lt (b i : Nat) (v : V1024) : elem b i v < 2 ^ b := Nat.mod_lt _ (Nat.two_pow_pos b)

/-- Two results that leave the same b bits and raise the same flags. -/
def sameElem (b : Nat) (r q : Res) : Prop := r.pat % 2 ^ b = q.pat % 2 ^ b ∧ r.flags = q.flags

theorem sameElem_mod (b n : Nat) : sameElem b (plain (n % 2 ^ b)) (plain n) := ⟨Nat.mod_mod _ _, rfl⟩

/-- An entry holds what every element function with the same bits and flags gives. -/
theorem holds_congr {pass : Nat → Bool} {b n : Nat} {f g : Nat → Res} {z : V1024} {fl : Nat} (h : holds pass b n f z fl)
    (hfg : ∀ i, sameElem b (f i) (g i)) : holds pass b n g z fl := by
  obtain ⟨he, hz, hfl⟩ := h
  refine ⟨fun i hi => ?_, hz, ?_⟩
  · rw [he i hi, (hfg i).1]
  · rw [hfl, funext fun a => funext fun i => congrArg (a ||| ·) (hfg i).2]

theorem pushes_congr {o : Machine.Out} {s v : State} {d lat b n : Nat} {f g : Nat → Res} (h : pushes o s v d lat b n f)
    (hfg : ∀ i, sameElem b (f i) (g i)) : pushes o s v d lat b n g := by
  obtain ⟨z, fl, hz, e⟩ := h
  exact ⟨z, fl, holds_congr hz hfg, e⟩

theorem pushesAll_congr {o : Machine.Out} {v : State} {d lat b n : Nat} {f g : Nat → Res} (h : pushesAll o v d lat b n f)
    (hfg : ∀ i, sameElem b (f i) (g i)) : pushesAll o v d lat b n g := by
  obtain ⟨z, fl, hz, e⟩ := h
  exact ⟨z, fl, holds_congr hz hfg, e⟩

/-- A two-source instruction whose element function agrees, on elements of b bits, with the one that the rule names. -/
theorem vtwo_of_sameElem {i : Nat → Nat → Nat → Bool → Bool → Instr} {lat b : Nat} {f g : State → Nat → Nat → Res}
    (h : ∀ s d a c k m, exec (i d a c k m) s = vector2 d a c k m lat b (f s) s)
    (hfg : ∀ s x y, x < 2 ^ b → y < 2 ^ b → sameElem b (f s x y) (g s x y)) : vtwo i lat b g :=
  fun s _ _ _ _ _ _ _ _ _ hs hx hy =>
    pushes_congr (vtwo_of_vector2 h s _ _ _ _ _ _ _ _ _ hs hx hy) fun _ => hfg s _ _ (elem_lt ..) (elem_lt ..)

/-- Masked elements that are no wider than the lanes they are counted in, pushed. -/
theorem pushes_mapElems_of_le {s : State} (hs : wide s) {b e : Nat} (hb : b ≤ e) (v : State) (d lat : Nat) (f : Nat → Res) :
    pushes (.next (pushElems d lat b (mapElems s b (s.width / e) f) v)) s v d lat b (s.cur.mod.width / e) f :=
  ⟨_, _, holds_mapElems (mul_div_le_width hs hb), rfl⟩

/-- The elements of a form that carries no mask, pushed. -/
theorem pushesAll_map {b n : Nat} (hb : b * n ≤ 1024) (v : State) (d lat : Nat) (f : Nat → Res) :
    pushesAll (.next (pushElems d lat b ((List.range n).map f) v)) v d lat b n f :=
  ⟨_, _, holds_all hb, rfl⟩

/-! ### Integer arithmetic (R162) -/

theorem low_sgn (n x : Nat) : low n (sgn n x) = x % 2 ^ n := by
  have h : ∀ k : Int, low n ((x : Int) % 2 ^ n - 2 ^ n * k) = x % 2 ^ n := fun k => by
    rw [low, Int.sub_mul_emod_self_left, Int.emod_emod_of_dvd _ (dvd_refl _)]
    exact congrArg Int.toNat (Int.natCast_emod x (2 ^ n)).symm
  unfold sgn
  split
  · simpa using h 0
  · simpa using h 1

theorem low_value {t x : Nat} (hx : x < 2 ^ vtBits t) : low (vtBits t) (value t x) = x := by
  unfold value
  split
  · rw [low_sgn, Nat.mod_eq_of_lt hx]
  · exact congrArg Int.toNat ((Int.natCast_emod x (2 ^ vtBits t)).symm.trans (congrArg _ (Nat.mod_eq_of_lt hx)))

theorem vtVal_eq {t x : Nat} (hx : x < 2 ^ vtBits t) : vtVal t x = value t x := by
  unfold vtVal value vtSigned
  by_cases ht : t % 2 = 0
  · rw [if_pos ht, if_pos (beq_iff_eq.2 ht)]
  · rw [if_neg ht, if_neg (mt beq_iff_eq.1 ht)]
    exact (Int.natCast_emod x (2 ^ vtBits t)).symm.trans (congrArg _ (Nat.mod_eq_of_lt hx))

/-- Saturation clamps to the stored range and sets SAT where the value lies outside it (R162). -/
theorem vtSat_eq (t : Nat) (v : Int) : vtSat t v = clamped t v := by
  have hlo : vtLo t = if t % 2 = 0 then -2 ^ (vtBits t - 1) else 0 := if_congr beq_iff_eq rfl rfl
  have hhi : vtHi t = if t % 2 = 0 then 2 ^ (vtBits t - 1) - 1 else 2 ^ vtBits t - 1 := if_congr beq_iff_eq rfl rfl
  have hle : vtLo t ≤ vtHi t := by
    have h := Int.pow_pos (n := 2) (m := vtBits t - 1) (by decide)
    have h' := Int.pow_pos (n := 2) (m := vtBits t) (by decide)
    rw [hlo, hhi]
    split <;> omega
  unfold vtSat clamped satInt
  rw [← hlo, ← hhi]
  generalize vtLo t = lo at hle
  generalize vtHi t = hi at hle
  dsimp only
  rcases lt_or_ge v lo with h | h
  · rw [if_pos h, if_neg (by omega), max_eq_left (by omega)]
  · rcases lt_or_ge hi v with h' | h'
    · rw [if_neg (by omega), if_pos h', if_neg (by omega), min_eq_left (by omega), max_eq_right hle]
    · rw [if_neg (by omega), if_neg (by omega), if_pos ⟨h, h'⟩, min_eq_right h', max_eq_right h]

/-- A two-source integer instruction by its values. -/
theorem vtwo_of_values {i : Nat → Nat → Nat → Bool → Bool → Instr} {lat t : Nat} {f : Int → Int → Res} {g : Nat → Nat → Res}
    (h : ∀ s d a c k m, exec (i d a c k m) s = vector2 d a c k m lat (vtBits t) (fun x y => f (vtVal t x) (vtVal t y)) s)
    (hfg : ∀ x y, x < 2 ^ vtBits t → y < 2 ^ vtBits t → f (value t x) (value t y) = g x y) :
    vtwo i lat (vtBits t) fun _ => g :=
  vtwo_of_sameElem h fun _ x y hx hy => by
    rw [vtVal_eq hx, vtVal_eq hy, hfg x y hx hy]
    exact ⟨rfl, rfl⟩

/-- Settles O6: each element function, on the values of its two elements, is the rule's. -/
theorem vectorIntegerArithmetic : Obligations.VectorIntegerArithmetic := by
  intro t _
  refine ⟨?vadd, ?vsub, ?vmul, ?vmin, ?vmax, ?vadds, ?vsubs, ?vmulhi⟩
  case vadd => exact vtwo_of_values (f := fun u v => vtWrap t (u + v)) (fun _ _ _ _ _ _ => rfl) fun _ _ _ _ => rfl
  case vsub => exact vtwo_of_values (f := fun u v => vtWrap t (u - v)) (fun _ _ _ _ _ _ => rfl) fun _ _ _ _ => rfl
  case vmul => exact vtwo_of_values (f := fun u v => vtWrap t (u * v)) (fun _ _ _ _ _ _ => rfl) fun _ _ _ _ => rfl
  case vmin =>
    refine vtwo_of_values (f := fun u v => vtWrap t (min u v)) (fun _ _ _ _ _ _ => rfl) fun x y hx hy => ?_
    rw [vtWrap, min_def, apply_ite (low (vtBits t)), low_value hx, low_value hy]
  case vmax =>
    refine vtwo_of_values (f := fun u v => vtWrap t (max u v)) (fun _ _ _ _ _ _ => rfl) fun x y hx hy => ?_
    rw [vtWrap, max_def, apply_ite (low (vtBits t)), low_value hx, low_value hy]
  case vadds => exact vtwo_of_values (f := fun u v => vtSat t (u + v)) (fun _ _ _ _ _ _ => rfl) fun _ _ _ _ => vtSat_eq ..
  case vsubs => exact vtwo_of_values (f := fun u v => vtSat t (u - v)) (fun _ _ _ _ _ _ => rfl) fun _ _ _ _ => vtSat_eq ..
  case vmulhi =>
    exact vtwo_of_values (f := fun u v => vtWrap t (u * v / 2 ^ vtBits t)) (fun _ _ _ _ _ _ => rfl) fun _ _ _ _ => rfl

/-! ### Logic, shifts and immediates (R163, R164) -/

/-- A left shift keeps the low bits of the product. -/
theorem shlB_same (b x n : Nat) : sameElem b (plain (shlB b x n)) (plain (x * 2 ^ (n % b))) := sameElem_mod ..

theorem shrB_eq {b x : Nat} (hx : x < 2 ^ b) (n : Nat) : shrB b x n = x / 2 ^ (n % b) := by
  rw [shrB, Nat.mod_eq_of_lt hx]

/-- The count of an immediate shift is below the element size already. -/
theorem immediateCount_mod (s : State) (v z : Nat) :
    (vimm s v % (szBits z : Int)).toNat % szBits z = (vimmediate s v % (8 * 2 ^ z)).toNat := by
  have e : ((8 * 2 ^ z : Nat) : Int) = 8 * 2 ^ z := by push_cast; rfl
  have hb : (0 : Int) < 8 * 2 ^ z := by positivity
  rw [show vimm s v = vimmediate s v from rfl, szBits, e]
  refine Nat.mod_eq_of_lt ((Int.toNat_lt (Int.emod_nonneg _ hb.ne')).2 ?_)
  rw [e]
  exact Int.emod_lt_of_pos _ hb

theorem vecImm_pushesAll {s u : State} {a : Nat} {k : Bool} {x : V1024} (hs : wide s) (hx : vsource s a k x u) (d z : Nat)
    (f : Nat → Nat) : pushesAll (vecImm d a k z f s) u d 2 (8 * 2 ^ z) (s.cur.mod.width / (8 * 2 ^ z))
      fun j => plain (f (elem (8 * 2 ^ z) j x)) := by
  unfold vecImm
  dsimp only
  rw [readV_vsource hx]
  exact pushesAll_map (mul_div_le_width hs (Nat.le_refl _)) u d 2 _

/-- Settles O7: each element function by its definition, a shift by what the element size leaves of it. -/
theorem vectorLogicShiftsAndImmediates : Obligations.VectorLogicShiftsAndImmediates := by
  refine ⟨?vand, ?vor, ?vxor, ?vandn, ?vnot, fun z _ => ⟨?vshl, ?vshr, ?vsra, fun s d v hs => ?vsplati,
    fun s d a k v x u hs hx => ⟨?vaddi, ?vshli, ?vsrai⟩⟩⟩
  case vand => exact vtwo_of_vector2 fun _ _ _ _ _ _ => rfl
  case vor => exact vtwo_of_vector2 fun _ _ _ _ _ _ => rfl
  case vxor => exact vtwo_of_vector2 fun _ _ _ _ _ _ => rfl
  case vandn => exact vtwo_of_vector2 fun _ _ _ _ _ _ => rfl
  case vnot => exact vone_of_vector1 fun _ _ _ _ => rfl
  case vshl => exact vtwo_of_sameElem (fun _ _ _ _ _ _ => rfl) fun _ x y _ _ => shlB_same _ x y
  case vshr =>
    refine vtwo_of_sameElem (f := fun _ x y => plain (shrB (8 * 2 ^ z) x y)) (fun _ _ _ _ _ _ => rfl) fun _ x y hx _ => ?_
    rw [shrB_eq hx]
    exact ⟨rfl, rfl⟩
  case vsra => exact vtwo_of_vector2 fun _ _ _ _ _ _ => rfl
  case vsplati => exact pushesAll_map (mul_div_le_width hs (Nat.le_refl _)) s d 2 _
  case vaddi => exact vecImm_pushesAll hs hx d z fun x => low (szBits z) (x + vimm s v)
  case vshli =>
    refine pushesAll_congr (vecImm_pushesAll hs hx d z fun x => shlB (szBits z) x (vimm s v % (szBits z : Int)).toNat) fun j => ?_
    rw [← immediateCount_mod]
    exact shlB_same ..
  case vsrai =>
    refine pushesAll_congr (vecImm_pushesAll hs hx d z fun x => sraB (szBits z) x (vimm s v % (szBits z : Int)).toNat) fun j => ?_
    rw [← immediateCount_mod]
    exact ⟨rfl, rfl⟩

/-! ### Compares and masks (R166, R167) -/

/-- Bits of packed elements: those of the element that each lies in. -/
theorem testBit_packNat {b : Nat} (hb : 0 < b) (xs : List Nat) (i : Nat) :
    (packNat b xs).testBit i = (xs.getD (i / b) 0).testBit (i % b) := by
  rcases lt_or_ge (i / b) xs.length with h | h
  · have e := congrArg (Nat.testBit · (i % b)) (packNat_elem b (i / b) xs h)
    simp only [Nat.testBit_mod_two_pow, Nat.testBit_div_two_pow, Nat.mod_lt i hb, decide_true, Bool.true_and, Nat.mod_add_div] at e
    rw [e, List.getD_eq_getElem _ _ h]
  · rw [List.getD_eq_default _ _ h, Nat.zero_testBit]
    refine Nat.testBit_lt_two_pow ((packNat_lt b xs).trans_le (Nat.pow_le_pow_right Nat.two_pos ?_))
    exact (Nat.mul_le_mul_left b h).trans (Nat.mul_div_le i b)

/-- Packed elements that are all ones where they pass, else 0. -/
theorem testBit_packNat_ones {b : Nat} (hb : 0 < b) (n : Nat) (p : Nat → Bool) (i : Nat) :
    (packNat b ((List.range n).map fun j => if p j then 2 ^ b - 1 else 0)).testBit i = (decide (i < b * n) && p (i / b)) := by
  have hlt : i / b < n ↔ i < b * n := by rw [Nat.div_lt_iff_lt_mul hb, Nat.mul_comm]
  rw [testBit_packNat hb]
  rcases lt_or_ge (i / b) n with h | h
  · rw [List.getD_eq_getElem _ _ (by simpa using h), List.getElem_map, List.getElem_range, decide_eq_true (hlt.1 h)]
    cases p (i / b)
    · simp
    · simp [Nat.testBit_two_pow_sub_one, Nat.mod_lt i hb]
  · rw [List.getD_eq_default _ _ (by simpa using h), decide_eq_false (mt hlt.2 (Nat.not_lt.2 h))]
    simp

/-- The same as bits of a register that has room for the elements. -/
theorem getLsbD_packNat_ones {b n w : Nat} (hb : 0 < b) (hn : b * n ≤ w) (p : Nat → Bool) (i : Nat) :
    (BitVec.ofNat w (packNat b ((List.range n).map fun j => if p j then 2 ^ b - 1 else 0))).getLsbD i =
      (decide (i < b * n) && p (i / b)) := by
  rw [BitVec.getLsbD_ofNat, testBit_packNat_ones hb]
  rcases lt_or_ge i (b * n) with h | h
  · rw [decide_eq_true (h.trans_le hn), Bool.true_and]
  · rw [decide_eq_false (not_lt.2 h), Bool.false_and, Bool.and_false]

theorem vcBits_eq (t : Nat) : vcBits t = compareBits t := by
  unfold vcBits compareBits vfBits
  by_cases h : t ≤ 4
  · rw [if_pos h, if_pos h]
  · rw [if_neg h, if_neg h]
    exact if_congr (by omega) rfl rfl

/-- The elements of a compare are one, two or four byte lanes wide. -/
theorem compareBits_bytes (t : Nat) : ∃ m, (m = 1 ∨ m = 2 ∨ m = 4) ∧ compareBits t = 8 * m := by
  unfold compareBits vtBits
  split_ifs
  exacts [⟨1, by simp⟩, ⟨2, by simp⟩, ⟨4, by simp⟩, ⟨4, by simp⟩, ⟨2, by simp⟩]

/-- Elements of m byte lanes fill the byte lanes of the width. -/
theorem byteLanes {s : State} (hs : wide s) {m : Nat} (hm : m = 1 ∨ m = 2 ∨ m = 4) :
    m * (s.cur.mod.width / (8 * m)) = s.cur.mod.width / 8 := by
  rcases hs with h | h | h <;> rcases hm with rfl | rfl | rfl <;> rw [h]

theorem vcHolds_eq {c t x y : Nat} (hc : c ≤ 4) (hx : x < 2 ^ compareBits t) (hy : y < 2 ^ compareBits t) :
    vcHolds c t x y = truth c t x y := by
  unfold vcHolds truth
  by_cases ht : t ≤ 4
  · have hb : compareBits t = vtBits t := if_pos ht
    rw [if_pos ht, if_pos ht, vtVal_eq (hb ▸ hx), vtVal_eq (hb ▸ hy)]
    match c, hc with
    | 0, _ => rfl
    | 1, _ => exact (decide_not ..).symm
    | 2, _ | 3, _ | 4, _ => rfl
  · rw [if_neg ht, if_neg ht]
    match c, hc with
    | 0, _ | 1, _ | 2, _ | 3, _ | 4, _ => rfl

/-- The lane mask that VCMP makes. -/
def vcmpMask (s : State) (c t : Nat) (x y : V1024) : W128 :=
  BitVec.ofNat 128 (packNat (vcBits t / 8) ((List.range (s.width / vcBits t)).map fun i =>
    if s.enabled (vcBits t) i && vcHolds c t (elem (vcBits t) i x) (elem (vcBits t) i y) then 2 ^ (vcBits t / 8) - 1 else 0))

theorem vcmpMask_bit {s : State} (hs : wide s) {c : Nat} (hc : c ≤ 4) (t : Nat) (x y : V1024) (i : Nat) :
    (vcmpMask s c t x y).getLsbD i = (decide (i < s.cur.mod.width / 8) && (let j := 8 * i / compareBits t
      enabled s (compareBits t) j && truth c t (elem (compareBits t) j x) (elem (compareBits t) j y))) := by
  obtain ⟨m, hm, e⟩ := compareBits_bytes t
  have hpos : 0 < m := by omega
  have hbytes : compareBits t / 8 = m := by rw [e, Nat.mul_div_cancel_left _ (by decide)]
  have hlane : 8 * i / compareBits t = i / m := by rw [e, Nat.mul_div_mul_left _ _ (by decide)]
  have hcount : m * (s.width / compareBits t) = s.cur.mod.width / 8 := by rw [e]; exact byteLanes hs hm
  have hfit : m * (s.width / compareBits t) ≤ 128 := by
    rw [hcount]
    exact Nat.div_le_div_right (c := 8) (width_le hs)
  unfold vcmpMask
  rw [vcBits_eq, hbytes, getLsbD_packNat_ones hpos hfit, hcount, enabled_eq, hlane, vcHolds_eq hc (elem_lt ..) (elem_lt ..)]

/-- Settles O9: the packed ones of VCMP bit by bit; the masks as each operation is defined. -/
theorem vectorComparesAndMasks : Obligations.VectorComparesAndMasks := by
  refine ⟨fun s d a b k m c t x y u v hc _ hs hx hy => ⟨vcmpMask s c t x y, vcmpMask_bit hs hc t x y, ?_⟩,
    fun _ _ _ _ => rfl, fun _ _ _ _ => rfl, fun _ _ _ _ => rfl, fun _ _ _ _ => rfl, fun _ _ _ _ => rfl, fun _ _ _ _ => rfl,
    fun _ _ _ _ => rfl, fun s d a => ?_⟩
  · show execVcmp d a b k m c t s = _
    rw [execVcmp, readV_vsource hx, readV_vsource hy]
    rfl
  · show execMcnt d a s = _
    rw [execMcnt, List.countP_eq_length_filter]
    rfl

end Sys2Proof

end

section
/-!
PROOFS. Permutes, conversions and logarithms (O10, O12, O13), tiles and the accumulator read (O15, O16).
-/

/- Elaborated in turn, as the file before. -/
set_option Elab.async false

namespace Sys2Proof

open Sys2Proof.Machine Sys2Proof.Says

/-! ### Permutes and moves (R168, R183) -/

theorem vperm_pushes {s u v : State} {a b : Nat} {k m : Bool} {x y : V1024} (hs : wide s) (hx : vsource s a k x u)
    (hy : vsource u b m y v) (d z : Nat) :
    pushes (exec (.vperm d a b k m z) s) s v d 3 (8 * 2 ^ z) (s.cur.mod.width / (8 * 2 ^ z)) fun i =>
      let j := elem (8 * 2 ^ z) i y
      plain (if j < s.cur.mod.width / (8 * 2 ^ z) then elem (8 * 2 ^ z) j x else 0) := by
  show pushes (execVperm d a b k m z s) ..
  rw [execVperm, readV_vsource hx, readV_vsource hy]
  exact pushes_mapElems hs v d 3 (8 * 2 ^ z) _

theorem vpermt_pushes {s u v : State} {a b : Nat} {k m : Bool} {x y : V1024} (hs : wide s) (hx : vsource s a k x u)
    (hy : vsource u b m y v) (d : Nat) :
    pushes (exec (.vpermt d a b k m) s) s v d 3 32 (s.cur.mod.width / 32) fun i =>
      let j := fld s.cur.mod.perm (6 * i) 6
      let n := s.cur.mod.width / 32
      plain (if j < n then elem 32 j x else if j < 2 * n then elem 32 (j - n) y else 0) := by
  show pushes (execVpermt d a b k m s) ..
  rw [execVpermt, readV_vsource hx, readV_vsource hy]
  exact pushes_mapElems hs v d 3 32 _

/-- VSPLAT takes the low bits of the scalar entry. -/
theorem vsplat_pushes {s u : State} {a : Nat} {k : Bool} {x : W64} (hs : wide s) (hx : source s a k x u) (d z : Nat) :
    pushes (exec (.vsplat d a k z) s) s u d 2 (8 * 2 ^ z) (s.cur.mod.width / (8 * 2 ^ z)) fun _ => plain x.toNat := by
  show pushes (execVsplat d a k z s) ..
  rw [execVsplat, readS_source hx]
  exact pushes_congr (pushes_mapElems hs u d 2 (8 * 2 ^ z) _) fun _ => sameElem_mod ..

theorem vext_next {s u v : State} {a b : Nat} {k m : Bool} {x : V1024} {y : W64} (hx : vsource s a k x u)
    (hy : source u b m y v) (d z : Nat) :
    exec (.vext d a b k m z) s = .next (inFlight v 2 0 (.spush d (BitVec.ofNat 64
      (elem (8 * 2 ^ z) (y.toNat % 128 % (s.cur.mod.width / (8 * 2 ^ z))) x)))) := by
  show execVext d a b k m z s = _
  rw [execVext, readV_vsource hx, readS_source hy]
  rfl

theorem vsel_pushesAll {s u v : State} {a b : Nat} {k m : Bool} {x y : V1024} (hs : wide s) (hx : vsource s a k x u)
    (hy : vsource u b m y v) (d j : Nat) :
    pushesAll (exec (.vsel d a b k m j) s) v d 2 8 (s.cur.mod.width / 8) fun i =>
      plain (if (Cells.get 0 j (me s).masks).getLsbD i then elem 8 i x else elem 8 i y) := by
  show pushesAll (execVsel d a b k m j s) ..
  rw [execVsel, readV_vsource hx, readV_vsource hy]
  exact pushesAll_map (mul_div_le_width hs (Nat.le_refl 8)) v d 2 _

/-- Settles O10: each form by what it reads and the elements that it then pushes. -/
theorem vectorPermutesAndMoves : Obligations.VectorPermutesAndMoves := by
  refine ⟨fun z _ => ⟨?vperm, ?vsplat, ?vext⟩, ?vpermt, ?vsel, ?vmov⟩
  case vperm => exact fun s d a b k m x y u v hs hx hy => vperm_pushes hs hx hy d z
  case vsplat => exact fun s d a k x u hs hx => vsplat_pushes hs hx d z
  case vext => exact fun s d a b k m x y u v _ hx hy => vext_next hx hy d z
  case vpermt => exact fun s d a b k m x y u v hs hx hy => vpermt_pushes hs hx hy d
  case vsel => exact fun s d a b k m j x y u v hs hx hy => vsel_pushesAll hs hx hy d j
  case vmov => exact vone_of_vector1 fun _ _ _ _ => rfl

/-! ### Conversions (R105, R171 to R173) -/

theorem dstFmt_eq (s : State) (f : Nat) : s.dstFmt f = format s f := by
  unfold State.dstFmt format
  cases s.cur.mod.cf <;> rfl

theorem vcvt_pushes {s u : State} {a : Nat} {k : Bool} {x : V1024} (hs : wide s) (hx : vsource s a k x u) (d src f : Nat) :
    let dst := format s f
    pushes (exec (.vcvt d a src k f) s) s u d 4 (fmtBits dst) (s.cur.mod.width / max (fmtBits src) (fmtBits dst)) fun i =>
      if src = dst then plain (elem (fmtBits src) i x)
      else convertPat (fmtOf src) (fmtOf dst) (vmode s) 0 (bit (me s).pcw.toNat 31) (elem (fmtBits src) i x) := by
  show pushes (execVcvt d a src k f s) ..
  rw [execVcvt, readV_vsource hx, rnd_eq, dstFmt_eq]
  exact pushes_mapElems_of_le hs (Nat.le_max_right ..) u d 4 _

theorem vqnt_pushes {s u : State} {a : Nat} {k : Bool} {x : V1024} (hs : wide s) (hx : vsource s a k x u) (d : Nat) (h : Bool) (f : Nat) :
    let b := if h then 16 else 32
    let dst := format s f
    pushes (exec (.vqnt d a k h f) s) s u d 4 (fmtBits dst) (s.cur.mod.width / max b (fmtBits dst)) fun i =>
      if (me s).slatch = 0xFF then nanCase (fmtOf dst)
      else convertNum (fmtOf dst) (vmode s) 0 (bit (me s).pcw.toNat 31)
        (scaleNum (topExp dst - ((me s).slatch.toNat - 127)) (readFlt (if h then fmtBF16 else fmtBinary32) (elem b i x))) := by
  have hl : (me s).slatch = 0xFF ↔ s.me.slatch.toNat = 0xFF := BitVec.toNat_inj.symm
  show pushes (execVqnt d a k h f s) ..
  rw [execVqnt, readV_vsource hx, rnd_eq, dstFmt_eq]
  simp only [hl]
  exact pushes_mapElems_of_le hs (Nat.le_max_right ..) u d 4 _

theorem vcvtsr_pushes {s u v : State} {a b : Nat} {k m : Bool} {x : V1024} {y : W64} (hs : wide s) (hx : vsource s a k x u)
    (hy : source u b m y v) (d t f : Nat) :
    let dst := format s f
    let n := if t = 0 then 32 else 16
    pushes (exec (.vcvtsr d a b k m t f) s) s v d 4 (fmtBits dst) (s.cur.mod.width / max n (fmtBits dst)) fun i =>
      convertNum (fmtOf dst) .sr
        (keyedMix (mine s).kseed.toNat (me s).gstrm.toNat 0xFFFF ((y.toNat + i) % 2 ^ 48))
        (bit (me s).pcw.toNat 31) (readFlt (vfloat t) (elem n i x)) := by
  show pushes (execVcvtsr d a b k m t f s) ..
  rw [execVcvtsr, readV_vsource hx, readS_source hy, dstFmt_eq]
  unfold roundUni roundMember
  exact pushes_mapElems_of_le hs (Nat.le_max_right ..) v d 4 _

/-- Settles O12: the conversions of the elements that source and destination both have room for. -/
theorem vectorConversions : Obligations.VectorConversions :=
  ⟨fun _ d _ src _ f _ _ hs hx => vcvt_pushes hs hx d src f, fun _ d _ _ h f _ _ hs hx => vqnt_pushes hs hx d h f,
    fun _ d _ _ _ _ t f _ _ _ _ _ hs hx hy => vcvtsr_pushes hs hx hy d t f⟩

/-! ### Logarithms (R174, R175) -/

theorem lnsDiv_eq (x y : Nat) : lnsDiv x y =
    if lnsZero x && lnsZero y then ⟨0x4000, fIV⟩
    else if lnsZero y then ⟨lnsPat (bit x 15 != bit y 15) 16383, fDZ⟩
    else if lnsZero x then plain (lnsPat (bit x 15 != bit y 15) (-16384))
    else lnsOut (bit x 15 != bit y 15) (lnsL x - lnsL y) := by
  unfold lnsDiv
  cases lnsZero x
  · simp
  · cases lnsZero y <;> simp

/-- The sign bit of an LNS16 pattern turned over. -/
theorem lnsNegated (x : Nat) : x % 2 ^ 15 + b2n (!bit x 15) * 2 ^ 15 = if bit x 15 then x % 2 ^ 15 else x % 2 ^ 15 + 2 ^ 15 := by
  cases bit x 15 <;> rfl

theorem logarithmicArithmetic_holds : logarithmicArithmetic := by
  refine ⟨?vlmul, ?vldiv, ?vlsqrt, ?vlneg, ?vlabs, ?vladd, ?vlsub⟩
  case vlmul => exact vtwo_of_vector2 fun _ _ _ _ _ _ => rfl
  case vldiv => exact vtwo_of_sameElem (f := fun _ => lnsDiv) (fun _ _ _ _ _ _ => rfl) fun _ x y _ _ => lnsDiv_eq x y ▸ ⟨rfl, rfl⟩
  case vlsqrt => exact vone_of_vector1 fun _ _ _ _ => rfl
  case vlneg =>
    simp only [← lnsNegated]
    exact vone_of_vector1 fun _ _ _ _ => rfl
  case vlabs => exact vone_of_vector1 fun _ _ _ _ => rfl
  case vladd => exact vtwo_of_vector2 fun _ _ _ _ _ _ => rfl
  case vlsub =>
    simp only [← lnsNegated]
    exact vtwo_of_vector2 fun _ _ _ _ _ _ => rfl

/-- The log-add of two numbers that are not zero, the one of larger magnitude first (R175). -/
def lnsAddOrdered (T : Nat → Nat) (x y : Nat) : Res :=
  let dd := lnsL x - lnsL y
  let c : Int :=
    if 16384 ≤ dd then 0
    else if bit x 15 == bit y 15 then logAddCorr T (dd / 512).toNat dd (512 * (dd / 512))
    else logAddCorr T (32 + (dd / 512).toNat) dd (512 * (dd / 512 + 1))
  let r := lnsOut (bit x 15) (lnsL x + c)
  ⟨r.pat, r.flags ||| fNX⟩

theorem lnsAdd_of_lt {T : Nat → Nat} {a b : Nat} (ha : lnsZero a = false) (hb : lnsZero b = false) (h : lnsL b < lnsL a) :
    lnsAdd T a b = lnsAddOrdered T a b ∧ lnsAdd T b a = lnsAddOrdered T a b := by
  have hd : lnsL a - lnsL b ≠ 0 := by omega
  have hz : (lnsL a - lnsL b == 0) = false := beq_false_of_ne hd
  constructor
  · simp only [lnsAdd, ha, hb, if_pos h.le, hz, if_neg hd, Bool.and_false, Bool.false_eq_true, if_false]
    rfl
  · simp only [lnsAdd, ha, hb, if_neg (not_le.2 h), hz, if_neg hd, Bool.and_false, Bool.false_eq_true, if_false, Bool.beq_comm (a := bit b 15)]
    rfl

theorem logarithmicSums_hold : logarithmicSums := by
  intro T a b _ _
  refine ⟨fun h ha hb => ?_, fun ha hb => ?_, fun ha hb => ?_, fun ha h hs => ?_⟩
  · rcases lt_or_gt_of_ne h with h | h
    · obtain ⟨e, e'⟩ := lnsAdd_of_lt (T := T) hb ha h
      rw [e, e']
    · obtain ⟨e, e'⟩ := lnsAdd_of_lt (T := T) ha hb h
      rw [e, e']
  · simp [lnsAdd, ha, hb]
  · simp [lnsAdd, ha, hb]
  · have hb : lnsZero b = false := by rw [← ha, lnsZero, lnsZero, h]
    simp [lnsAdd, ha, hb, h, hs]

/-- Settles O13: the elements of each operation, and the sums by the order of the two magnitudes. -/
theorem logarithmicNumbers : Obligations.LogarithmicNumbers := ⟨logarithmicArithmetic_holds, logarithmicSums_hold⟩

/-! ### Tiles (R37, R179) -/

theorem InBundle.of_vsource {r s u : State} {a : Nat} {k : Bool} {x : V1024} (h : InBundle r s) (hx : vsource s a k x u) :
    InBundle r u := by
  have e : (Machine.readV a k s).2 = u := congrArg Prod.snd (readV_vsource hx)
  exact e ▸ h.readV

theorem InBundle.of_source {r s u : State} {a : Nat} {k : Bool} {x : W64} (h : InBundle r s) (hx : source s a k x u) :
    InBundle r u := by
  have e : (Machine.readS a k s).2 = u := congrArg Prod.snd (readS_source hx)
  exact e ▸ h.readS

/-- The bank check of a tile whose bank is awake changes nothing. -/
theorem InBundle.needTile_awake {s t : State} (h : InBundle s t) {k : Nat} (hk : awake s k) : t.needTile k = t := by
  rw [State.needTile, h.me, (tileAwake_iff s k).2 hk, State.check_true]

theorem needTile_source {s u : State} {t b : Nat} {m : Bool} {y : W64} (hk : awake s t) (hy : source s b m y u) : u.needTile t = u :=
  ((InBundle.refl s).of_source hy).needTile_awake hk

theorem needTile_sources {s u v : State} {t a b : Nat} {k m : Bool} {x : V1024} {y : W64} (hk : awake s t) (hx : vsource s a k x u)
    (hy : source u b m y v) : v.needTile t = v :=
  (((InBundle.refl s).of_vsource hx).of_source hy).needTile_awake hk

theorem rowBits_rowEnables (s : State) {b n : Nat} (hb : 0 < b) (hn : b * n ≤ 1024) : rowBits s b n (rowEnables s b n) := by
  intro i
  rw [rowEnables, pack, getLsbD_packNat_ones hb hn, enabled_eq]

theorem fmtBits_pos (f : Nat) : 0 < fmtBits f := by
  unfold fmtBits
  split <;> decide

theorem fmtBits_le (f : Nat) : fmtBits f ≤ 32 := by
  unfold fmtBits
  split <;> decide

/-- Rows are counted modulo 128 (R33). -/
theorem row_mod (s : State) (t r : Nat) : s.me.row t (r % 128) = row s t r := by
  unfold Part.row row
  rw [Nat.mod_mod]
  rfl

theorem columnElem_eq (s : State) (t b c v i : Nat) :
    columnElem s.me t b c (fld v 8 7) i = elem b c (row s t (v / 256 % 128 + i)) := by
  rw [columnElem, row_mod]
  rfl

/-- Settles O15: the bank being awake, each form reads or enables the named row or column. -/
theorem tileReadsAndWrites : Obligations.TileReadsAndWrites := by
  refine ⟨?vtwr, ?vtwrCvt, ?vtrd, ?vtrdCvt, ?vtcr, ?vtcrCvt⟩
  case vtwr =>
    intro s t a b k m x y u v hs hk hx hy
    refine ⟨_, rowBits_rowEnables s (by decide) (mul_div_le_width hs (Nat.le_refl 8)), ?_⟩
    show execVtwr t a b k m s = _
    rw [execVtwr, readV_vsource hx, readS_source hy]
    dsimp only
    rw [needTile_sources hk hx hy]
    rfl
  case vtwrCvt =>
    intro s t a b k m f x y u v hs hk hx hy n w
    have hfit : w * n ≤ 1024 := mul_div_le_width hs (fmtBits_le _)
    refine ⟨_, _, _, rowBits_rowEnables s (fmtBits_pos _) hfit, holds_mapElems hfit, ?_⟩
    show execVtwrCvt t a b k m f s = _
    rw [execVtwrCvt, readV_vsource hx, readS_source hy, rnd_eq, dstFmt_eq]
    dsimp only
    rw [needTile_sources hk hx hy]
    rfl
  case vtrd =>
    intro s d t b m y u hs hk hy
    show pushes (execVtrd d t b m s) ..
    rw [execVtrd, readS_source hy]
    dsimp only
    rw [needTile_source hk hy, row_mod]
    exact pushes_mapElems hs u d 2 8 _
  case vtrdCvt =>
    intro s d t b m f y u hs hk hy
    show pushes (execVtrdCvt d t b m f s) ..
    rw [execVtrdCvt, readS_source hy]
    dsimp only
    rw [needTile_source hk hy, row_mod]
    exact pushes_mapElems hs u d 2 32 _
  case vtcr =>
    intro s d t b m z y u _ hs hk hy n
    show pushes (execVtcr d t b m z s) ..
    rw [execVtcr, readS_source hy]
    dsimp only
    rw [needTile_source hk hy]
    simp only [columnElem_eq]
    exact pushes_mapElems hs u d 3 n _
  case vtcrCvt =>
    intro s d t b m f y u hs hk hy
    show pushes (execVtcrCvt d t b m f s) ..
    rw [execVtcrCvt, readS_source hy]
    dsimp only
    rw [needTile_source hk hy]
    simp only [columnElem_eq]
    exact pushes_mapElems hs u d 3 32 _

/-! ### The operator contraction and the accumulator read (R181, R182) -/

theorem vct8_pushes {s u : State} {a t : Nat} {k : Bool} {x : V1024} (hs : wide s) (hk : awake s t) (hx : vsource s a k x u)
    (d blk : Nat) :
    pushes (exec (.vct8 d a t k blk) s) s u d 6 32 (s.cur.mod.width / 32) fun j =>
      finish (.flt fmtBinary32) (vmode s) 0 false (dotNums (vmode s) ((List.range 8).map fun m =>
        (readFlt fmtBinary32 (elem 32 m (row s t (8 * blk + j % 8))), readFlt fmtBinary32 (elem 32 (8 * (j / 8) + m) x))) []) := by
  show pushes (execVct8 d a t k blk s) ..
  rw [execVct8, readV_vsource hx, rnd_eq]
  dsimp only
  rw [((InBundle.refl s).of_vsource hx).needTile_awake hk]
  exact pushes_mapElems hs u d 6 32 _

/-- Masked elements, whatever they are: the disabled ones are 0, and so are the bits above. -/
theorem holds_disabled {s : State} {b n : Nat} {f : Nat → Res} {z : V1024} {fl : Nat} (h : holds (enabled s b) b n f z fl) :
    (∀ i, i < n → enabled s b i = false → elem b i z = 0) ∧ z.toNat < 2 ^ (b * n) := by
  obtain ⟨he, hz, -⟩ := h
  refine ⟨fun i hi hd => ?_, hz⟩
  rw [he i hi, hd]
  rfl

/-- The number of the cell that VACRD reads for element i (R182, R195). -/
def vacrdNum (s : State) (t : Nat) (y : W64) (i : Nat) : Machine.Num :=
  accNum (s.myCore.tagOf t) (s.myCore.accCell t (y.toNat % 32) (y.toNat / 2 ^ 8 % 256 + i)).x

/-- Of a row that no call is writing VACRD converts each cell. -/
theorem vacrd_pushes {s u : State} {t b : Nat} {m : Bool} {y : W64} (hs : wide s) (hy : source s b m y u)
    (h : s.myCore.accBusy t (y.toNat % 32) = false) (d f : Nat) :
    pushes (exec (.vacrd d t b m f) s) s u d 4 (fmtBits (format s f)) (s.cur.mod.width / fmtBits (format s f)) fun i =>
      convertNum (fmtOf (format s f)) (vmode s) 0 (bit (me s).pcw.toNat 31) (vacrdNum s t y i) := by
  show pushes (execVacrd d t b m f s) ..
  rw [execVacrd, readS_source hy, rnd_eq, dstFmt_eq]
  dsimp only
  simp only [h, Bool.false_eq_true, if_false]
  exact pushes_mapElems hs u d 4 _ _

/-- What VACRD draws for element i of a row that a call is writing: a pattern, and the flags of some cell converted (R12, R182). -/
def vacrdDrawn (s : State) (dst i : Nat) : Res :=
  ⟨Config.freeNat (s.freeCtr + 3 * i) % 2 ^ fmtBits dst,
    (convertNum (fmtOf dst) (vmode s) 0 s.a128 (accNum ⟨true, Config.freeNat (s.freeCtr + 3 * i + 2) % 128⟩
      (sgn 80 (Config.freeNat (s.freeCtr + 3 * i + 1))))).flags⟩

theorem vacrd_busy {s u : State} {t b : Nat} {m : Bool} {y : W64} (hs : wide s) (hy : source s b m y u)
    (h : s.myCore.accBusy t (y.toNat % 32) = true) (d f : Nat) :
    let n := s.cur.mod.width / fmtBits (format s f)
    pushes (exec (.vacrd d t b m f) s) s { u with freeCtr := u.freeCtr + 3 * n } d 4 (fmtBits (format s f)) n
      (vacrdDrawn s (format s f)) := by
  show pushes (execVacrd d t b m f s) ..
  rw [execVacrd, readS_source hy, rnd_eq, dstFmt_eq]
  dsimp only
  simp only [h, if_true]
  exact pushes_mapElems hs _ d 4 _ _

theorem accCell_eq (s : State) (t r c i : Nat) : s.myCore.accCell t (r % 32) (c + i) =
    (Cells.get (List.replicate 256 ⟨0, false⟩) (32 * t + r % 32) (mine s).acc).getD ((c + i) % 256) ⟨0, false⟩ := by
  rw [Core.accCell, Core.accRow, Nat.mod_mod]
  rfl

/-- Settles O16: the contraction element by element, and the accumulator read by whether a call is still writing the row. -/
theorem operatorContractionAndAccumulatorRead : Obligations.OperatorContractionAndAccumulatorRead := by
  refine ⟨fun s d a t k blk x u hs hk hx => vct8_pushes hs hk hx d blk, fun s d t b m f y u hs hy => ⟨fun hb => ?_, fun hb => ?_⟩⟩
  · obtain ⟨z, fl, hz, e⟩ := vacrd_busy hs hy hb d f
    obtain ⟨hoff, hlt⟩ := holds_disabled hz
    exact ⟨_, z, fl, hoff, hlt, e⟩
  · have h := vacrd_pushes hs hy hb d f
    simp only [vacrdNum, accCell_eq] at h
    exact h

end Sys2Proof

end

section
/-!
PROOFS. Reductions and the scale latch (O11): what VRED and VMAXE push, which staged VRED is marked, and the slot number that is not.
-/

/- Elaborated in turn, as the file before. -/
set_option Elab.async false

namespace Sys2Proof

open Sys2Proof.Machine Sys2Proof.Says

/-! ### The clauses of O11 that hold (R169, R170) -/

/-- Bits of an element of a type of VRED (R169). -/
def reducedBits (t : Nat) : Nat := if t < 3 then (if t = 0 then 32 else 16) else if t = 3 then 32 else if t = 4 then 16 else 8

/-- The enabled elements of a group, in order. -/
theorem filterMap_enabled (s : State) (n : Nat) (x : V1024) (l : List Nat) :
    (l.filterMap fun i => if s.enabled n i then some (elem n i x) else none) = (l.filter (enabled s n)).map fun i => elem n i x := by
  rw [← List.filterMap_eq_map, List.filterMap_filter, enabled_eq]
  rfl

theorem vred_pushesAll {s u : State} {a : Nat} {k : Bool} {x : V1024} (hs : wide s) (hx : vsource s a k x u) (d g o t : Nat) :
    let n := reducedBits t
    pushesAll (exec (.vred d a g k o t) s) u d 6 n (s.cur.mod.width / n / 2 ^ g) fun j =>
      reduceGroup (vmode s) o t ((((List.range (2 ^ g)).map fun i => j * 2 ^ g + i).filter (enabled s n)).map fun i => elem n i x) := by
  intro n
  have hfit : n * (s.cur.mod.width / n / 2 ^ g) ≤ 1024 :=
    (Nat.mul_le_mul_left n (Nat.div_le_self ..)).trans (mul_div_le_width hs (Nat.le_refl n))
  show pushesAll (execVred d a g k o t s) ..
  rw [execVred, readV_vsource hx, rnd_eq]
  simp only [filterMap_enabled]
  exact pushesAll_map hfit u d 6 _

/-- The largest of a list and a start: none is larger, and it is one of them or the start. -/
theorem foldl_max_spec (l : List Nat) (a : Nat) :
    a ≤ l.foldl Nat.max a ∧ (∀ x ∈ l, x ≤ l.foldl Nat.max a) ∧ (l.foldl Nat.max a = a ∨ l.foldl Nat.max a ∈ l) := by
  induction l generalizing a with
  | nil => exact ⟨Nat.le_refl a, nofun, .inl rfl⟩
  | cons y l ih =>
    obtain ⟨hle, hall, hmem⟩ := ih (Nat.max a y)
    refine ⟨(Nat.le_max_left a y).trans hle, fun x hx => ?_, ?_⟩
    · rcases List.mem_cons.1 hx with rfl | hx
      · exact (Nat.le_max_right a x).trans hle
      · exact hall x hx
    · rw [List.foldl_cons]
      rcases hmem with e | hm
      · rw [e]
        rcases le_total a y with h | h
        · exact .inr (List.mem_cons.2 (.inl (Nat.max_eq_right h)))
        · exact .inl (Nat.max_eq_left h)
      · exact .inr (List.mem_cons_of_mem _ hm)

/-- The exponents that VMAXE compares, 0 for a disabled element (R170). -/
def vmaxeExponents (s : State) (t : Nat) (x : V1024) : List Nat :=
  (List.range (s.width / vfBits t)).map fun i => if s.enabled (vfBits t) i then expOf (readFlt (vfFmt t) (elem (vfBits t) i x)) else 0

/-- What VMAXE puts in flight: the largest of them, and of SLATCH where it accumulates. -/
def vmaxeLargest (s : State) (c : Bool) (t : Nat) (x : V1024) : Nat :=
  (vmaxeExponents s t x).foldl Nat.max (if c then s.me.slatch.toNat else 0)

theorem vmaxe_next {s u : State} {a : Nat} {k : Bool} {x : V1024} (hx : vsource s a k x u) (c : Bool) (t : Nat) :
    exec (.vmaxe a k c t) s = .next (inFlight u 3 0 (.creg 0x01 0xFF (BitVec.ofNat 64 (vmaxeLargest s c t x)))) := by
  show execVmaxe a k c t s = _
  rw [execVmaxe, readV_vsource hx]
  rfl

theorem le_vmaxeLargest (s : State) (c : Bool) (t : Nat) (x : V1024) :
    (∀ i, i < s.cur.mod.width / vfBits t → enabled s (vfBits t) i = true →
      expOf (readFlt (vfloat t) (elem (vfBits t) i x)) ≤ vmaxeLargest s c t x) ∧
    (c = true → (me s).slatch.toNat ≤ vmaxeLargest s c t x) := by
  obtain ⟨hstart, hall, -⟩ := foldl_max_spec (vmaxeExponents s t x) (if c then s.me.slatch.toNat else 0)
  refine ⟨fun i hi hon => hall _ (List.mem_map.2 ⟨i, List.mem_range.2 hi, ?_⟩), fun hc => (if_pos hc).symm.trans_le hstart⟩
  rw [enabled_eq]
  exact if_pos hon

theorem vmaxeLargest_mem (s : State) (c : Bool) (t : Nat) (x : V1024) :
    vmaxeLargest s c t x = 0 ∨ (c = true ∧ vmaxeLargest s c t x = (me s).slatch.toNat) ∨
      ∃ i, i < s.cur.mod.width / vfBits t ∧ enabled s (vfBits t) i = true ∧
        vmaxeLargest s c t x = expOf (readFlt (vfloat t) (elem (vfBits t) i x)) := by
  obtain ⟨-, -, e | hm⟩ := foldl_max_spec (vmaxeExponents s t x) (if c then s.me.slatch.toNat else 0)
  · cases c
    · exact .inl e
    · exact .inr (.inl ⟨rfl, e⟩)
  · obtain ⟨i, hi, e⟩ := List.mem_map.1 hm
    rw [enabled_eq] at e
    rcases ite_eq_iff.1 e with ⟨hon, e⟩ | ⟨-, e⟩
    · exact .inr (.inr ⟨i, List.mem_range.1 hi, hon, e.symm⟩)
    · exact .inl e.symm

/-! ### The width check of a staged VRED (R71, R169) -/

/-- A word that decodes to a VRED in a slot of a bundle stands in slot 1 or 3, under major 0x17, with its type and group in place. -/
theorem vred_of_decodeSlot {k w d a g o t : Nat} {p : Bool} (hk : k < 4) (h : decodeSlot k w = .ok (.vred d a g p o t)) :
    isVec k w = true ∧ majOf k w = 0x17 ∧ redBits (fnOf w) = reducedBits t ∧ fld w 8 3 = g := by
  obtain ⟨hw, hi⟩ := Words.encode_of_decodeSlot hk h
  have hword : 0x5C000000 + d * 2 ^ 20 + a * 2 ^ 14 + g * 2 ^ 8 + b2n p * 2 ^ 7 + o * 2 ^ 4 + t * 2 ^ 0 = w := List.head_eq_of_cons_eq hw
  obtain ⟨hd, ha, hg, ho, ht, -⟩ : d < 64 ∧ a < 64 ∧ g < 8 ∧ o < 3 ∧ t < 6 ∧ 1 ≤ g := of_decide_eq_true hi
  have hp := b2n_lt p
  have hmajor : fld w 26 6 = 0x17 := by unfold fld; omega
  have hform : fld w 30 2 = 1 := by unfold fld; omega
  have htype : fnOf w % 8 = t := by unfold fnOf fld; omega
  have hgroup : fld w 8 3 = g := by unfold fld; omega
  have hslot : k = 1 ∨ k = 3 := by
    match k, hk with
    | 0, _ =>
      rw [decodeSlot, if_pos (.inr (.inl ⟨rfl, by rw [hform]; decide⟩))] at h
      cases h
    | 1, _ => exact .inl rfl
    | 2, _ =>
      rw [decodeSlot, hmajor] at h
      cases h
    | 3, _ => exact .inr rfl
  have hmaj : majOf k w = 0x17 := by rcases hslot with rfl | rfl <;> exact hmajor
  refine ⟨?_, hmaj, ?_, hgroup⟩
  · rw [isVec, hmaj]
    rcases hslot with rfl | rfl <;> rfl
  · rw [redBits, htype]
    interval_cases t <;> rfl

theorem setWidths_marks {rs : List RawSlot} {r : RawSlot} (hr : r ∈ rs) (hv : isVec r.slot r.word = true) (hm : majOf r.slot r.word = 0x17)
    (h : widthOf (decide (1 < (rs.filter fun r => isVec r.slot r.word).length)) r.wcode / redBits (fnOf r.word) /
      2 ^ fld r.word 8 3 = 0) : r.slot ∈ (setWidths rs).1 := by
  unfold setWidths
  extract_lets vec two out total bad
  have hout : { r with mod := { r.mod with width := widthOf two r.wcode } } ∈ out :=
    List.mem_map.2 ⟨r, hr, if_pos hv⟩
  refine List.mem_map.2 ⟨_, List.mem_filter.2 ⟨hout, ?_⟩, rfl⟩
  dsimp only
  rw [if_pos hv, hm, Bool.or_eq_true]
  right
  exact beq_iff_eq.2 h

theorem laneWidth_eq {s : State} {r : RawSlot} (h : r.wcode < 4) : laneWidth s r =
    widthOf (decide (1 < ((s.cur.staged.filter fun r => r.instr.isSome).filter fun r => isVec r.slot r.word).length)) r.wcode := by
  have e : (s.cur.staged.filter fun r => r.instr.isSome).filter (fun r => isVec r.slot r.word) =
      s.cur.staged.filter fun r => r.instr.isSome && isVec r.slot r.word := by
    rw [List.filter_filter]
    exact List.filter_congr fun r _ => Bool.and_comm ..
  rw [e]
  unfold laneWidth widthOf
  match hw : r.wcode, h with
  | 0, _ => simp
  | 1, _ | 2, _ | 3, _ => rfl

/-- A slot that a width check finds bad ends the run before any slot, marked with the illegal encoding (R86). -/
theorem runStaged_of_badWidth {run : Instr → State → Machine.Out} {s : State} {k : Nat}
    (h : k ∈ (setWidths (s.cur.staged.filter fun r => r.instr.isSome)).1) :
    ∃ u, runStaged run s = .next u ∧ (⟨k, 0x02, 0, 0⟩ : Mark) ∈ u.cur.marks := by
  unfold runStaged
  extract_lets rs fails ok ws t
  have hm : (⟨k, 0x02, 0, 0⟩ : Mark) ∈ t.cur.marks :=
    List.mem_append_right _ (List.mem_map.2 ⟨k, List.mem_append_left _ (List.mem_append_right _ h), rfl⟩)
  exact ⟨t, if_pos (List.any_eq_true.2 ⟨_, hm, rfl⟩), hm⟩

/-- In the slots that a bundle has, a VRED whose groups are wider than its lanes is marked. -/
theorem vred_tooWide_marked {s : State} {r : RawSlot} {d a g o t : Nat} {k : Bool} (hk : r.slot < 4) (hr : r ∈ s.cur.staged)
    (hw : r.wcode < 4) (hi : r.instr = some (.vred d a g k o t)) (h : laneWidth s r < 2 ^ g * reducedBits t) :
    ∃ u, runStaged exec s = .next u ∧ (⟨r.slot, 0x02, 0, 0⟩ : Mark) ∈ u.cur.marks := by
  have hd : decodeSlot r.slot r.word = .ok (.vred d a g k o t) := by
    unfold RawSlot.instr at hi
    split at hi
    · cases hi
    · next e =>
      rw [e]
      exact congrArg _ (Option.some.inj (ite_eq_iff.1 hi |>.elim And.right fun f => nomatch f.2))
  obtain ⟨hv, hm, hb, hg⟩ := vred_of_decodeSlot hk hd
  refine runStaged_of_badWidth (setWidths_marks (List.mem_filter.2 ⟨hr, hi ▸ rfl⟩) hv hm ?_)
  rw [← laneWidth_eq hw, hb, hg, Nat.div_div_eq_div_mul, Nat.mul_comm]
  exact Nat.div_eq_of_lt h

/-! ### A slot number that no bundle has -/

/-- A VRED whose groups of 128 elements of 32 bits are wider than any lane, staged under slot number 5. -/
def slotFiveVred : RawSlot := ⟨5, 0b010111_000001_000010_000_111_0_0_00_0_000, [], Machine.Mod.plain, 0, 4, 4⟩

/-- A bundle whose guard fails, with that one word staged. -/
def slotFiveBundle : State := { State.reset with cur := { Cursor.empty with guard := false, staged := [slotFiveVred] } }

theorem slotFiveVred_instr : slotFiveVred.instr = some (.vred 1 2 7 false 0 0) := rfl

theorem slotFiveBundle_unmarked : ∃ u, runStaged exec slotFiveBundle = .next u ∧ u.cur.marks = [] := ⟨_, rfl, rfl⟩

/-- Refutes O11, whose second clause ranges over every slot number: the width check of R169 looks at slots 1 and 3 alone
(vred_tooWide_marked), and a word staged under slot number 5 decodes as in slot 1 but is not marked. -/
theorem not_vectorReductionsAndScaleLatch : ¬ Obligations.VectorReductionsAndScaleLatch := by
  unfold Obligations.VectorReductionsAndScaleLatch
  rintro ⟨-, h, -⟩
  obtain ⟨u, e, hm⟩ := h slotFiveBundle slotFiveVred 1 2 7 false 0 0 (List.mem_singleton_self _) (by decide) slotFiveVred_instr (by decide)
  obtain ⟨u', e', hn⟩ := slotFiveBundle_unmarked
  obtain rfl : u' = u := Host.Outcome.next.inj (e'.symm.trans e)
  rw [hn] at hm
  exact absurd hm List.not_mem_nil

end Sys2Proof

end

section
/-!
PROOFS. The matrix unit's parameters and calls (O24): writes in flight, and entries that join the call queue.
-/

/- Elaborated in turn, as the file before. -/
set_option Elab.async false

namespace Sys2Proof

open Sys2Proof.Machine Sys2Proof.Says

variable {s u : State}

/-! ### Parameter writes (R212 to R214, R218, R267) -/

/-- A form that reads one source and puts one write in flight. -/
theorem emit_of_source {a : Nat} {k : Bool} {x : W64} (h : source s a k x u) (lat : Nat) (w : State → W64 → LandAct) :
    (Host.Outcome.next (emit lat 0 (w s (readS a k s).1) (readS a k s).2) : Machine.Out) = .next (inFlight u lat 0 (w s x)) := by
  rw [readS_source h]
  rfl

theorem matrixParameterWrites_holds : matrixParameterWrites := by
  refine ⟨fun s a k x u h => ⟨fun n => ?_, fun n => ?_, ?_, ?_, fun g => ?_, ?_⟩, fun _ _ _ => rfl, fun s x v => ?_, fun _ _ => rfl⟩
  · exact emit_of_source h 1 fun _ x => .mparam n x
  · exact emit_of_source h 1 fun s x => .mparam n (Cells.get 0 n (me s).mps + x)
  · exact emit_of_source h 1 fun _ x => .creg 0x02 0xFF x
  · exact emit_of_source h 1 fun _ x => .creg 0x02 0xC0 (x <<< 48)
  · exact emit_of_source h 4 fun _ x => .creg (0x20 + g) 0xFF x
  · exact emit_of_source h 1 fun _ x => .creg 0x03 0xFF (BitVec.ofNat 64 (x.toNat % 2 ^ 32))
  · rfl

/-! ### Entries that join the call queue (R204 to R206) -/

theorem readWords_pops {q : Nat} {ws : List Nat} (h : pops s q ws u) : readWords q ws.length s = (ws, u) := by
  induction ws generalizing s with
  | nil => exact congrArg _ (Eq.symm h)
  | cons w ws ih =>
    obtain ⟨x, t, hx, rfl, h⟩ := h
    rw [List.length_cons, readWords, readS_source hx, ih h]

/-- The state after an entry has joined the queue, its tag aside. -/
abbrev joined (u : State) (k : Call) : State :=
  { withMine u (fun c => { c with calls := c.calls ++ [k] }) with nextId := u.nextId + 1 }

theorem waitIf_queueFull (hr : roomy s) : s.waitIf s.myCore.queueFull = s := by
  rw [Bool.eq_false_of_not_eq_true fun h => (queueFull_iff s).1 h hr]
  rfl

theorem enqueue_untagged (hr : roomy s) {k : Call} (ht : k.tag = none) : enqueue k s = joined s k := by
  unfold enqueue
  rw [waitIf_queueFull hr, ht]
  rfl

theorem enqueue_tagged (hr : roomy s) {k : Call} {p : Nat} (ht : k.tag = some p) (hi : k.id = s.nextId) :
    enqueue k s = joined (claims s p) k := by
  unfold enqueue
  rw [waitIf_queueFull hr, ht, hi]
  rfl

/-- The issue view and the queue of calls change apart. -/
theorem joined_view (u : State) (k : Call) (v : Cells AccTag → Cells AccTag) :
    (joined u k).updMyCore (fun c => { c with accView := v c.accView }) =
      joined (withMine u fun c => { c with accView := v c.accView }) k := by
  simp only [joined, mine, State.updMyCore, State.updCore, State.setCore, State.core, Cells.get_put_self, Cells.put_put]

/-- An entry whose further captures alone are not those of a new one joins the queue as R204 says. -/
theorem queues_joined {v : State} {kind : CallKind} {f : Call → Prop} {k : Call} {o : Machine.Out} (e : o = .next (joined v k))
    (hv : v.nextId = s.nextId)
    (hk : k = { newCall s kind k.tag k.needs with cbs := k.cbs, awm := k.awm, acm := k.acm, word := k.word, xb := k.xb })
    (hf : f k) : queues o s v kind f := by
  refine ⟨k, ?_, ?_, ?_, ?_, ?_, ?_, ?_, ?_, ?_, ?_, ?_, ?_, hf, by rw [e, ← hv]⟩ <;> rw [hk] <;> rfl

theorem wswap_queues (hr : roomy s) : queues (exec .wswap s) s s .wswap fun k => k.tag = none ∧ k.needs = [] :=
  queues_joined (congrArg Host.Outcome.next (enqueue_untagged hr rfl)) rfl rfl ⟨rfl, rfl⟩

theorem aclrEntry_queues (hr : roomy s) (m : Nat) :
    queues (aclrEntry m s) s (withMine s fun c => { c with accView := views c.accView ⟨false, 0⟩ m }) (.aclr m)
      fun k => k.tag = none ∧ k.needs = [] := by
  have e : aclrEntry m s = .next ((joined s (newCall s (.aclr m) none [])).updMyCore fun c =>
      { c with accView := views c.accView ⟨false, 0⟩ m }) := by
    rw [← enqueue_untagged hr rfl]
    rfl
  exact queues_joined (e.trans (congrArg _ (joined_view s _ fun v => views v ⟨false, 0⟩ m))) rfl rfl ⟨rfl, rfl⟩

/-- The entry of an ACDRN with its argument words (R217). -/
def acdrnCall (s : State) (p a b : Nat) (ws : List Nat) : Call :=
  { newCall s (.acdrn (ws.headD 0) (ws.getD 1 0 % 2 ^ 48)) (some p) (consumed s p a b) with xb := ws.getD 1 0 % 2 ^ 48 }

theorem acdrn_queues (hr : roomy s) (hd : drainBad (me s).pcw = false) (p a b : Nat) {wide : Bool} {q w : Nat} {ws : List Nat}
    (hw : 1 + b2n wide = (w :: ws).length) (h : pops s q (w :: ws) u) :
    queues (exec (.acdrn p a b wide q) s) s (claims u p) (.acdrn w (ws.headD 0 % 2 ^ 48)) fun k =>
      k.tag = some p ∧ k.needs = needs s p a b ∧ k.xb = ws.headD 0 % 2 ^ 48 := by
  have hread : readWords q (1 + b2n wide) s = (w :: ws, u) := by rw [hw, readWords_pops h]
  have hu : InBundle s u := by
    have h' : InBundle s (readWords q (1 + b2n wide) s).2 := (InBundle.refl s).readWords
    rwa [hread] at h'
  have hn : u.nextId = s.nextId := by rw [hu.rest]
  have hru : roomy u := by
    rw [← not_not (a := roomy u), ← queueFull_iff, hu.myCore, queueFull_iff, not_not]
    exact hr
  have hcheck : u.check (!drainBad s.me.pcw) causePrecisionWord = u := by
    rw [show drainBad s.me.pcw = false from hd]
    rfl
  have e : execAcdrn p a b wide q s = .next (joined (claims u p) (acdrnCall s p a b (w :: ws))) := by
    rw [← enqueue_tagged hru rfl hn.symm, ← congrArg (enqueue _) hcheck, execAcdrn, hread]
    rfl
  have hx : (w :: ws).getD 1 0 = ws.headD 0 := by cases ws <;> rfl
  rw [← hx]
  exact queues_joined e hn rfl ⟨rfl, rfl, rfl⟩

/-- The entry of an MCALL that passes its checks (R204). -/
def mcallCall (s : State) (p a b r : Nat) : Call :=
  { newCall s (.mcall r) (some p) (consumed s p a b) with
    cbs := capturedBanks s.myCore s.me.pcw, awm := fld (s.myCore.routine r) 10 8, acm := fld (s.myCore.routine r) 18 8,
    word := fld (s.myCore.routine r) 0 10 }

theorem mcall_queues (hr : roomy s) (p a b : Nat) {r : Nat} (hf : mcallFault s false (s.myCore.routine r) = none)
    (hl : tableInFlight s s.cur.core (fun t => t == 2) = false) :
    let e := (mine s).routine r
    queues (exec (.mcall p a b r) s) s
      (withMine (claims s p) fun c => { c with
        accView := views (views c.accView ⟨true, fld (me s).pcw.toNat 14 8⟩ (fld e 10 8)) ⟨false, 0⟩ (fld e 18 8) })
      (.mcall r) fun k => k.tag = some p ∧ k.needs = needs s p a b ∧ k.awm = fld e 10 8 ∧ k.acm = fld e 18 8 ∧
        k.word = fld e 0 10 := by
  intro x
  have e : execMcall p a b r s = .next ((joined (claims s p) (mcallCall s p a b r)).updMyCore fun c => { c with
      accView := views (views c.accView ⟨true, fld (me s).pcw.toNat 14 8⟩ (fld x 10 8)) ⟨false, 0⟩ (fld x 18 8) }) := by
    rw [← enqueue_tagged hr rfl rfl, execMcall]
    dsimp only
    rw [hl, hf]
    rfl
  exact queues_joined (e.trans (congrArg _ (joined_view (claims s p) _ fun v => views (views v _ _) ⟨false, 0⟩ _)))
    rfl rfl ⟨rfl, rfl, rfl, rfl, rfl⟩

theorem matrixCallsJoinTheQueue_holds : matrixCallsJoinTheQueue := by
  intro s hr
  refine ⟨wswap_queues hr, fun t => aclrEntry_queues hr (2 ^ t), aclrEntry_queues hr 255, fun hd => ⟨?_, ?_⟩, fun p a b r => ?_⟩
  · exact fun p a b q w u h => acdrn_queues (wide := false) hr hd p a b rfl h
  · exact fun p a b q w x u h => acdrn_queues (wide := true) hr hd p a b rfl h
  · exact mcall_queues hr p a b

/-- Settles O24: a parameter write is its source's value in flight; an entry with a free place joins by one operation, and what it
captures is a new entry's. -/
theorem matrixParametersAndCalls : Obligations.MatrixParametersAndCalls :=
  ⟨matrixParameterWrites_holds, matrixCallsJoinTheQueue_holds⟩

end Sys2Proof
end

section
/-!
PROOFS. Micro-operations on the running call: those that change only the call (O30), and the words the others share.
-/

/- Elaborated in turn, as the file before. -/
set_option Elab.async false

namespace Sys2Proof

open Sys2Proof.Machine Sys2Proof.Says

variable {s : State} {k : Call}

/-! ### The offset field of a descriptor (R188, R221) -/

theorem low_lt (n : Nat) (v : Int) : low n v < 2 ^ n := by
  have h0 := Int.emod_nonneg v (b := 2 ^ n) (by positivity)
  have h1 := Int.emod_lt_of_pos v (b := 2 ^ n) (by positivity)
  rw [← Int.ofNat_lt, low, Int.toNat_of_nonneg h0]
  exact_mod_cast h1

theorem low_cast (n : Nat) (v : Int) : (low n v : Int) = v % 2 ^ n :=
  Int.toNat_of_nonneg (Int.emod_nonneg v (by positivity))

/-- The bits of a descriptor with its offset moved on: the new offset's in the field, its own elsewhere. -/
theorem advDesc_getLsbD (d : W64) (y : Int) {i : Nat} (hi : i < 64) :
    (advDesc d y).getLsbD i = if 7 ≤ i ∧ i < 23 then (low 16 (fld d.toNat 7 16 + y)).testBit (i - 7) else d.getLsbD i := by
  have hm : Nat.testBit (0xFFFF * 2 ^ 7) i = decide (7 ≤ i ∧ i < 23) := by
    rw [Nat.testBit_mul_two_pow, show 0xFFFF = 2 ^ 16 - 1 from rfl, Nat.testBit_two_pow_sub_one, ← Bool.decide_and]
    exact decide_eq_decide.2 (by omega)
  unfold advDesc
  dsimp only
  rw [BitVec.getLsbD_or, BitVec.getLsbD_and, BitVec.getLsbD_not, BitVec.getLsbD_ofNat, BitVec.getLsbD_ofNat, hm,
    Nat.testBit_mul_two_pow]
  split
  · next h => simp [hi, h]
  · next h =>
    have hz : ∀ n : Nat, n < 2 ^ 16 → (decide (7 ≤ i) && n.testBit (i - 7)) = false := fun n hn => by
      by_cases h7 : 7 ≤ i
      · rw [Nat.testBit_lt_two_pow (hn.trans_le (Nat.pow_le_pow_right Nat.two_pos (by omega))), Bool.and_false]
      · rw [decide_eq_false h7, Bool.false_and]
    simp [hi, h, hz _ (low_lt 16 _)]

theorem advDesc_frame (d : W64) (y : Int) {i : Nat} (h : i < 7 ∨ 23 ≤ i) : (advDesc d y).getLsbD i = d.getLsbD i := by
  rcases Nat.lt_or_ge i 64 with hi | hi
  · rw [advDesc_getLsbD d y hi, if_neg (by omega)]
  · rw [BitVec.getLsbD_of_ge _ _ hi, BitVec.getLsbD_of_ge _ _ hi]

theorem advDesc_offset (d : W64) (y : Int) : fld (advDesc d y).toNat 7 16 = low 16 (fld d.toNat 7 16 + y) := by
  refine Nat.eq_of_testBit_eq fun j => ?_
  rw [fld, Nat.testBit_mod_two_pow, Nat.testBit_div_two_pow, ← BitVec.getLsbD]
  rcases Nat.lt_or_ge j 16 with hj | hj
  · rw [advDesc_getLsbD d y (by omega), if_pos (by omega), decide_eq_true hj, Bool.true_and, Nat.add_sub_cancel]
  · rw [decide_eq_false (by omega), Bool.false_and,
      Nat.testBit_lt_two_pow ((low_lt 16 _).trans_le (Nat.pow_le_pow_right Nat.two_pos hj))]

/-! ### The running call -/

theorem micro_runs (h : runs s k) (f : Core → Call → State → State) : micro f s = .next (f (mine s) k s) := micro_next h

theorem microCall_runs (h : runs s k) (f : Call → Call) : microCall f s = .next (withCall s (onward (f k))) := micro_next h

theorem withCore_updCore (s : State) (n : Nat) (f g : Core → Core) : (withCore s n f).updCore n g = withCore s n fun c => g (f c) :=
  State.updCore_updCore ..

theorem putCall_updCore (n : Nat) (k : Call) (s : State) (f : Core → Core) :
    (putCall n k s).updCore n f = withCore s n fun c => f { c with calls := renewed k c.calls } := State.updCore_updCore ..

/-- A descriptor in a call's copies, its offset moved on by what the call says. -/
theorem advDesc_moves (h : runs s k) (p : Nat) (y : Call → Int) : ∃ d : W64,
    (∀ i, i < 7 ∨ 23 ≤ i → d.getLsbD i = (param k p).getLsbD i) ∧
    (fld d.toNat 7 16 : Int) = (fld (param k p).toNat 7 16 + y k) % 2 ^ 16 ∧
    microCall (fun k => { k with mps := Cells.put p (advDesc (param k p) (y k)) k.mps }) s =
      .next (withCall s (onward { k with mps := Cells.put p d k.mps })) :=
  ⟨advDesc (param k p) (y k), fun _ hi => advDesc_frame _ _ hi, by rw [advDesc_offset, low_cast], microCall_runs h _⟩

theorem uLdec_next (h : runs s k) (l w : Nat) {v : Nat} (hv : v = ((Cells.get 0 l k.loops - 1 : Int) % 2 ^ 16).toNat) :
    exec (.uLdec l w) s = .next (withCall s
      (if v = 0 then onward { k with loops := Cells.put l v k.loops } else goesTo { k with loops := Cells.put l v k.loops } w)) := by
  subst hv
  show execULdec l w s = _
  rw [execULdec, micro_runs h]
  rfl

theorem uJmp_next (h : runs s k) (w : Nat) : exec (.uJmp w) s = .next (withCall s (goesTo k w)) := by
  show execUJmp w s = _
  rw [execUJmp, micro_runs h]
  rfl

theorem uWait_next (h : runs s k) (n : Nat) : exec (.uWait n) s = .next (withCall s { k with waiting := true, busy := n }) := by
  show execUWait n s = _
  rw [execUWait, micro_runs h]
  rfl

theorem uSync_next (h : runs s k) : exec .uSync s = .next (withCall s { k with syncing := true }) := by
  show execUSync s = _
  rw [execUSync, micro_runs h]
  rfl

theorem uEnd_next (h : runs s k) : exec .uEnd s = .next (withMine s fun c => { c with
    calls := renewed { k with stage := .ended, ended := c.lclk + 1 } c.calls, btag := k.btag, lastEnd := c.lclk + 1 }) := by
  show execUEnd s = _
  rw [execUEnd, micro_runs h, putCall_updCore]

/-- Settles O30: each micro-operation is one change of the running call; a descriptor's offset is set bit by bit. -/
theorem microSequencing : Obligations.MicroSequencing := by
  unfold Obligations.MicroSequencing
  intro s k h
  exact ⟨microCall_runs h _, microCall_runs h _, fun p n => advDesc_moves h p fun _ => sgn 16 n,
    fun p n => advDesc_moves h p fun k => sgn 16 n * fld (param k p).toNat 23 16, fun p q => microCall_runs h _,
    fun q => microCall_runs h _, fun n => microCall_runs h _, fun n => microCall_runs h _, fun n => microCall_runs h _,
    fun l n => microCall_runs h _, fun l w v hv => uLdec_next h l w hv, uJmp_next h, uWait_next h, uSync_next h, uEnd_next h⟩

end Sys2Proof
end

section
/-!
PROOFS. Weight loads and streams (O31): faults of the running call, bank loads, and the rows of a stream.
-/

/- Elaborated in turn, as the file before. -/
set_option Elab.async false

namespace Sys2Proof

open Sys2Proof.Machine Sys2Proof.Says

variable {s : State} {k : Call}

/-! ### A call that meets a fault (R210, R318) -/

/-- A call's new state leaves the numbers of the calls. -/
theorem putCall_any_id (n : Nat) (k : Call) (s : State) (m i : Nat) :
    ((putCall n k s).core m).calls.any (fun x => x.id == i) = (s.core m).calls.any fun x => x.id == i := by
  have hid : ∀ x : Call, (if x.id = k.id then k else x).id = x.id := fun x => by
    split
    · next h => exact h.symm
    · rfl
  rw [putCall, State.core_updCore]
  split
  · next h => simp only [List.any_map, Function.comp_def, hid, h]
  · rfl

/-- The order of the faults of one clock, as the model computes it. -/
theorem faultsFirst_putCall (n : Nat) (k : Call) (s : State) (p id : Nat) :
    (fun e : LateFault × Nat =>
      if ((putCall n k s).core (p / 4)).calls.any (fun x => x.id == id) = ((putCall n k s).core (p / 4)).calls.any (fun x => x.id == e.2)
      then decide (e.2 < id) else ((putCall n k s).core (p / 4)).calls.any fun x => x.id == e.2) = faultsFirst s p id := by
  funext e
  rw [putCall_any_id, putCall_any_id, faultsFirst]
  dsimp only
  generalize (s.core (p / 4)).calls.any (fun x => x.id == id) = b
  generalize (s.core (p / 4)).calls.any (fun x => x.id == e.2) = b'
  cases b <;> cases b' <;> simp

theorem faultCall_eq (s : State) (k : Call) (f : LateFault) : faultCall s.cur.core k f s = stopped s k f := by
  unfold faultCall pendFault
  dsimp only
  rw [faultsFirst_putCall]
  rfl

/-! ### Descriptors (R188, R346) -/

theorem dBad_iff (d : W64) : dBad d = true ↔ 2 ^ 45 ≤ d.toNat := by
  rw [dBad, bne_iff_ne, ne_eq, Nat.div_eq_zero_iff, not_or, not_lt]
  exact and_iff_right (by decide)

theorem dBad_false {d : W64} (h : d.toNat < 2 ^ 45) : dBad d = false :=
  Bool.eq_false_of_not_eq_true fun hb => absurd ((dBad_iff d).1 hb) (Nat.not_le.2 h)

/-- A descriptor that is not compressed, or has had its clocks, holds nothing up. -/
theorem needsDelay_false {d : W64} (h : bit d.toNat 39 = true → k.primed = true ∨ k.row ≠ 0) : needsDelay k d = false := by
  unfold needsDelay dCmp
  cases hb : bit d.toNat 39 with
  | false => rfl
  | true => rcases h hb with hp | hr <;> simp [*]

/-! ### Weight banks (R221, R222, R224) -/

theorem bankNo_eq (k : Call) (b : Bool) : bankNo k b = if k.btag = b then 0 else 1 := by
  unfold bankNo b2n
  cases k.btag <;> cases b <;> rfl

/-- A bank's new contents under way: from here on the call goes on. -/
theorem loadInto_eq (s : State) (k : Call) (bank n : Nat) (w : WBank) (f : Nat) :
    loadInto k bank n w f s = withMine s fun c => { c with
      calls := renewed { onward (lands k (c.lclk + n - 1)) with flags := k.flags ||| f } c.calls,
      loads := c.loads ++ [⟨c.lclk + n, k.id, bank, w⟩],
      bankDone := Cells.put bank (max (c.lclk + n) (Cells.get 0 bank c.bankDone)) c.bankDone } := by
  unfold loadInto
  dsimp only
  rw [putCall_updCore]
  rfl

theorem uWz_next (h : runs s k) {b : Bool} (hf : Cells.get 0 (bankNo k b) (mine s).bankFree ≤ (mine s).lclk) :
    exec (.uWz b) s = .next (loadInto k (bankNo k b) 4 ⟨0, [], [], [], 0⟩ 0 s) := by
  show execUWz b s = _
  rw [execUWz, micro_runs h]
  dsimp only
  rw [if_neg (Nat.not_lt.2 hf)]
  rfl

/-- What a load that nothing holds up does with what it reads. -/
theorem uWld_next (h : runs s k) {b : Bool} (hf : Cells.get 0 (bankNo k b) (mine s).bankFree ≤ (mine s).lclk) {p q : Nat} (t r : Bool)
    (hd : needsDelay k (param k p) = false ∧ (pcSwe k.pcw && needsDelay k (param k q)) = false) :
    exec (.uWld p q b t r) s = .next (match loadBank (mine s) k (param k p) (param k q) t r with
      | .error f => stopped s k f
      | .ok x => loadInto k (bankNo k b) 16 x.1 x.2 s) := by
  obtain ⟨hp, hq⟩ := hd
  have hd : ¬ (needsDelay k (k.mp p) || (pcSwe k.pcw && needsDelay k (k.mp q))) = true := by
    rw [show needsDelay k (k.mp p) = false from hp, show (pcSwe k.pcw && needsDelay k (k.mp q)) = false from hq]
    decide
  show execUWld p q b t r s = _
  rw [execUWld, micro_runs h]
  dsimp only
  rw [if_neg (Nat.not_lt.2 hf), if_neg hd]
  simp only [faultCall_eq]
  rfl

theorem loadBank_badDescriptor (c : Core) {pa pb : W64} (tr h : Bool)
    (hb : 2 ^ 45 ≤ pa.toNat ∨ (pcSwe k.pcw = true ∧ 2 ^ 45 ≤ pb.toNat)) : loadBank c k pa pb tr h = .error microFault := by
  have hb : (dBad pa || (pcSwe k.pcw && dBad pb)) = true := by
    rwa [Bool.or_eq_true, Bool.and_eq_true, dBad_iff, dBad_iff]
  unfold loadBank
  rw [if_pos hb]
  rfl

theorem loadBank_reservedMember (c : Core) {pa pb : W64} (tr h : Bool)
    (hb : ¬ (2 ^ 45 ≤ pa.toNat ∨ (pcSwe k.pcw = true ∧ 2 ^ 45 ≤ pb.toNat))) (hs : pcSwe k.pcw = true) (hm : k.mem = 0xFFFF) :
    loadBank c k pa pb tr h = .error ⟨causeGeneratorKey, 0, 0⟩ := by
  have hb : ¬ (dBad pa || (pcSwe k.pcw && dBad pb)) = true := by
    rwa [Bool.or_eq_true, Bool.and_eq_true, dBad_iff, dBad_iff]
  have hk : (pcSwe k.pcw && decide (k.mem = 0xFFFF)) = true := by rw [hs, decide_eq_true hm]; rfl
  unfold loadBank
  rw [if_neg hb]
  exact (if_pos hk).trans rfl

theorem weightBankMicroOperations_holds : weightBankMicroOperations := by
  intro s k b bank h hbank hf starts
  have hno : bankNo k b = bank := (bankNo_eq k b).trans hbank.symm
  rw [← hno] at hf
  have hstarts : ∀ {i n w f}, exec i s = .next (loadInto k (bankNo k b) n w f s) → starts (exec i s) n w f := fun e => by
    rw [hno, loadInto_eq] at e
    exact e
  refine ⟨hstarts (uWz_next h hf), fun p q t r hdelay => ?_⟩
  intro bad
  have hd : needsDelay k (param k p) = false ∧ (pcSwe k.pcw && needsDelay k (param k q)) = false := by
    refine ⟨needsDelay_false fun hb => hdelay (.inl hb), ?_⟩
    cases hs : pcSwe k.pcw with
    | false => rfl
    | true => exact needsDelay_false fun hb => hdelay (.inr ⟨hs, hb⟩)
  have hnext := uWld_next h hf t r hd
  refine ⟨fun hb => ?_, fun hb hs hm => ?_, fun w f e => hstarts ?_, fun f e => ?_⟩
  · rw [loadBank_badDescriptor _ t r hb] at hnext
    exact hnext
  · rw [loadBank_reservedMember _ t r hb hs hm] at hnext
    exact hnext
  · rw [e] at hnext
    exact hnext
  · rw [e] at hnext
    exact hnext

/-! ### Streams (R193, R222, R225) -/

/-- A micro-word of a stream is in order: its tile may be written, its descriptor can be used, and every enabled band selects a block
of the window, whose blocks are even in number where they are MX blocks. -/
def Formed (k : Call) (acc : Nat) (d : W64) (o : Nat) : Prop :=
  bit k.awm acc = true ∧ d.toNat < 2 ^ 45 ∧ (∀ b < 8, bit o (4 * b + 2) = false → b + 8 * fld o (4 * b) 2 ≤ fld d.toNat 40 5) ∧
    (19 ≤ fld k.pcw.toNat 5 5 → fld d.toNat 40 5 % 2 = 1)

/-- The bands that a stream enables. -/
def enabledBands (o : Nat) : List Nat := (List.range 8).filter fun b => !bandOff o b

theorem mem_enabledBands {o b : Nat} : b ∈ enabledBands o ↔ b < 8 ∧ bit o (4 * b + 2) = false := by
  rw [enabledBands, List.mem_filter, List.mem_range, Bool.not_eq_true', bandOff]

/-- The model's test of a stream's micro-word. -/
def illFormed (k : Call) (acc : Nat) (d : W64) (o : Nat) : Bool :=
  !bit k.awm acc || dBad d || (enabledBands o).any (fun b => decide (dNbl d ≤ b + 8 * bandSel o b))
    || (isMx (pcAfmt k.pcw) && dNbl d % 2 == 1)

theorem window_covers_iff (d : W64) (o : Nat) : (enabledBands o).any (fun b => decide (dNbl d ≤ b + 8 * bandSel o b)) = false ↔
    ∀ b < 8, bit o (4 * b + 2) = false → b + 8 * fld o (4 * b) 2 ≤ fld d.toNat 40 5 := by
  rw [List.any_eq_false]
  refine forall_congr' fun b => ?_
  rw [mem_enabledBands, and_imp, decide_eq_true_eq, dNbl, bandSel, Nat.not_le]
  exact imp_congr_right fun _ => imp_congr_right fun _ => Nat.lt_succ_iff

theorem illFormed_false_iff (k : Call) (acc : Nat) (d : W64) (o : Nat) : illFormed k acc d o = false ↔ Formed k acc d o := by
  have hd : dBad d = false ↔ d.toNat < 2 ^ 45 := by rw [← Bool.not_eq_true, dBad_iff, Nat.not_le]
  have hm : (isMx (pcAfmt k.pcw) && dNbl d % 2 == 1) = false ↔ (19 ≤ fld k.pcw.toNat 5 5 → fld d.toNat 40 5 % 2 = 1) := by
    rw [Bool.and_eq_false_imp, isMx, decide_eq_true_eq, beq_eq_false_iff_ne, dNbl]
    refine imp_congr Iff.rfl ?_
    omega
  rw [illFormed, Bool.or_eq_false_iff, Bool.or_eq_false_iff, Bool.or_eq_false_iff, Bool.not_eq_false', hd, window_covers_iff, hm,
    and_assoc, and_assoc]
  rfl

/-- The bank that a stream's row reads, and its contents. -/
abbrev streamBank (k : Call) : Nat := b2n k.btag
abbrev streamWeights (s : State) (k : Call) : WBank := Cells.get WBank.zero (streamBank k) (mine s).wbanks

/-- The clocks of each enabled band on a row of the running stream. -/
abbrev rowClocks (s : State) (k : Call) (o : Nat) : List Nat := bandClocks (mine s).lock k (streamWeights s k) o

/-- The row of a stream has passed its checks: what it adds is in flight, where it adds anything. -/
def rowStreamed (z : Bool) (acc row cnt o : Nat) (s : State) (k : Call) (r : List (List Int × Bool) × Nat) : State :=
  let cl := rowClocks s k o
  let clocks := cl.foldl max 1
  let due := (mine s).lclk + clocks + 9
  let k1 := { (k.rowDone cnt) with busy := clocks - 1, bands := cl, flags := k.flags ||| r.2 }
  let lands := z || !(enabledBands o).isEmpty
  let t := putCall s.cur.core (if lands then k1.lands due else k1) s
  let t := if lands then landRow k acc (row + k.row) due z r.1 t else t
  t.updCore s.cur.core fun c =>
    { c with bankFree := Cells.put (streamBank k) (max (c.lclk + clocks) (Cells.get 0 (streamBank k) c.bankFree)) c.bankFree }

/-- A row whose bank and tile are ready (R222): its checks in order, then its contributions. -/
theorem strmRow_ready (z : Bool) {acc p : Nat} (row cnt o : Nat)
    (hb : Cells.get 0 (streamBank k) (mine s).bankDone ≤ (mine s).lclk) (ha : Cells.get 0 acc (mine s).addDone ≤ (mine s).lclk) :
    strmRow z acc row cnt p o (mine s) k s =
      if illFormed k acc (param k p) o then stopped s k microFault
      else if k.row = 0 && !bankScalesOk k (streamWeights s k) then stopped s k scaleFault
      else if needsDelay k (param k p) then delayCall s.cur.core k s
      else match streamRow (mine s) k (streamWeights s k) (param k p) o k.row with
        | .error f => stopped s k f
        | .ok r => rowStreamed z acc row cnt o s k r := by
  unfold strmRow
  extract_lets n d bank w on
  have hw : ¬ (decide ((mine s).lclk < Cells.get 0 bank (mine s).bankDone) ||
      decide ((mine s).lclk < Cells.get 0 acc (mine s).addDone)) = true := by
    rw [Bool.or_eq_true, decide_eq_true_eq, decide_eq_true_eq, not_or]
    exact ⟨Nat.not_lt.2 hb, Nat.not_lt.2 ha⟩
  rw [if_neg hw]
  simp only [n, faultCall_eq]
  rfl

/-- The landing noted on the call before or after its row is counted. -/
theorem rowDone_lands (k : Call) (cnt x : Nat) : (k.rowDone cnt).lands x = rowOn (lands k x) cnt := by
  unfold Call.rowDone rowOn
  dsimp only
  split <;> rfl

/-- Additions into a row, noted with the new state of their call. -/
theorem landRow_putCall (s : State) (k k' : Call) (t r x : Nat) (z : Bool) (cols : List (List Int × Bool)) :
    landRow k t r x z cols (putCall s.cur.core k' s) = withMine s fun c => { c with
      calls := renewed k' c.calls, accReady := noted t r x c.accReady,
      matPend := c.matPend ++ [⟨x, k.id, .addRow t r z (pcEa k.pcw) cols⟩] } := State.updCore_updCore ..

theorem withMine_updCore (s : State) (f g : Core → Core) : (withMine s f).updCore s.cur.core g = withMine s fun c => g (f c) :=
  withCore_updCore ..

/-- A row whose contributions land. -/
theorem rowStreamed_lands {z : Bool} {o : Nat} (hz : z || !(enabledBands o).isEmpty) (acc row cnt : Nat) (s : State) (k : Call)
    (r : List (List Int × Bool) × Nat) {clocks due : Nat} (hc : clocks = (rowClocks s k o).foldl max 1)
    (hd : due = (mine s).lclk + clocks + 9) :
    rowStreamed z acc row cnt o s k r = withMine s fun c => { c with
      calls := renewed { rowOn (lands k due) cnt with
        busy := clocks - 1, bands := bandClocks c.lock k (streamWeights s k) o, flags := k.flags ||| r.2 } c.calls,
      accReady := noted acc (row + k.row) due c.accReady,
      matPend := c.matPend ++ [⟨due, k.id, .addRow acc (row + k.row) z (fld k.pcw.toNat 14 8) r.1⟩],
      bankFree := Cells.put (streamBank k) (max (c.lclk + clocks) (Cells.get 0 (streamBank k) c.bankFree)) c.bankFree } := by
  subst hc hd
  unfold rowStreamed
  dsimp only
  rw [if_pos hz, if_pos hz, landRow_putCall, withMine_updCore, ← rowDone_lands]
  rfl

/-- A row of no enabled band, whose target rows are not cleared, lands nothing. -/
theorem rowStreamed_nothing {o : Nat} (ho : enabledBands o = []) (acc row cnt : Nat) (s : State) (k : Call)
    (r : List (List Int × Bool) × Nat) :
    rowStreamed false acc row cnt o s k r = withMine s fun c => { c with
      calls := renewed { rowOn k cnt with busy := 0, bands := [], flags := k.flags ||| r.2 } c.calls,
      bankFree := Cells.put (streamBank k) (max (c.lclk + 1) (Cells.get 0 (streamBank k) c.bankFree)) c.bankFree } := by
  have hl : ¬ (false || !(enabledBands o).isEmpty) = true := by
    rw [ho]
    decide
  have hc : rowClocks s k o = [] := by
    unfold rowClocks bandClocks
    exact congrArg (List.map _) ho
  unfold rowStreamed
  dsimp only
  rw [if_neg hl, if_neg hl, hc, putCall_updCore]
  rfl

theorem uStrm_next (h : runs s k) (acc row cnt p o : Nat) :
    exec (.uStrm acc row cnt p o) s = .next (strmRow false acc row cnt p o (mine s) k s) := by
  show execUStrm acc row cnt p o s = _
  rw [execUStrm, micro_runs h]

theorem uStrmz_next (h : runs s k) (acc row cnt p o : Nat) :
    exec (.uStrmz acc row cnt p o) s = .next (strmRow true acc row cnt p o (mine s) k s) := by
  show execUStrmz acc row cnt p o s = _
  rw [execUStrmz, micro_runs h]

theorem strmRow_illFormed (z : Bool) {acc p o : Nat} (row cnt : Nat)
    (hb : Cells.get 0 (streamBank k) (mine s).bankDone ≤ (mine s).lclk) (ha : Cells.get 0 acc (mine s).addDone ≤ (mine s).lclk)
    (hf : ¬ Formed k acc (param k p) o) : strmRow z acc row cnt p o (mine s) k s = stopped s k microFault := by
  rw [strmRow_ready z row cnt o hb ha, if_pos]
  rwa [← Bool.not_eq_false, illFormed_false_iff]

theorem strmRow_badScale (z : Bool) {acc p o : Nat} (row cnt : Nat)
    (hb : Cells.get 0 (streamBank k) (mine s).bankDone ≤ (mine s).lclk) (ha : Cells.get 0 acc (mine s).addDone ≤ (mine s).lclk)
    (hf : Formed k acc (param k p) o) (hr : k.row = 0) (hs : bankScalesOk k (streamWeights s k) = false) :
    strmRow z acc row cnt p o (mine s) k s = stopped s k scaleFault := by
  rw [strmRow_ready z row cnt o hb ha, (illFormed_false_iff ..).2 hf, if_neg Bool.false_ne_true, hr, hs]
  exact if_pos rfl

theorem strmRow_reads (z : Bool) {acc p o : Nat} (row cnt : Nat)
    (hb : Cells.get 0 (streamBank k) (mine s).bankDone ≤ (mine s).lclk) (ha : Cells.get 0 acc (mine s).addDone ≤ (mine s).lclk)
    (hf : Formed k acc (param k p) o) (hu : usable k (param k p)) (hs : k.row = 0 → bankScalesOk k (streamWeights s k) = true) :
    strmRow z acc row cnt p o (mine s) k s = match streamRow (mine s) k (streamWeights s k) (param k p) o k.row with
      | .error f => stopped s k f
      | .ok r => rowStreamed z acc row cnt o s k r := by
  have hscale : ¬ (decide (k.row = 0) && !bankScalesOk k (streamWeights s k)) = true := by
    rw [Bool.and_eq_true, decide_eq_true_eq]
    rintro ⟨hr, hn⟩
    rw [hs hr] at hn
    exact Bool.false_ne_true hn
  rw [strmRow_ready z row cnt o hb ha, (illFormed_false_iff ..).2 hf, if_neg Bool.false_ne_true, if_neg hscale,
    needsDelay_false hu.2, if_neg Bool.false_ne_true]

theorem streamMicroOperations_holds : streamMicroOperations := by
  intro s k acc row cnt p o bank w h hbank hw hb ha
  obtain rfl : bank = streamBank k := hbank
  obtain rfl : w = streamWeights s k := hw
  intro d stops formed
  have hstops : ∀ {f}, (∀ z, strmRow z acc row cnt p o (mine s) k s = stopped s k f) → stops f := fun e =>
    ⟨(uStrm_next h ..).trans (congrArg _ (e false)), (uStrmz_next h ..).trans (congrArg _ (e true))⟩
  refine ⟨fun hf => hstops fun z => strmRow_illFormed z row cnt hb ha hf,
    fun hf hr hs => hstops fun z => strmRow_badScale z row cnt hb ha hf hr hs, fun hf hu hs => ?_⟩
  have hrow := fun z => strmRow_reads z row cnt hb ha hf hu hs
  refine ⟨fun f e => hstops fun z => ?_, fun r clocks e hc => ?_⟩
  · exact (hrow z).trans (by rw [e])
  · intro due done
    have hrow : ∀ z, strmRow z acc row cnt p o (mine s) k s = rowStreamed z acc row cnt o s k r := fun z => (hrow z).trans (by rw [e])
    refine ⟨?_, fun hon => ?_, fun hoff => ?_⟩
    · rw [uStrmz_next h, hrow, rowStreamed_lands rfl acc row cnt s k r hc rfl]
    · have hl : (false || !(enabledBands o).isEmpty) = true := by
        obtain ⟨b, hb8, hbit⟩ := hon
        rw [Bool.false_or, Bool.not_eq_true', List.isEmpty_eq_false_iff_exists_mem]
        exact ⟨b, mem_enabledBands.2 ⟨hb8, hbit⟩⟩
      rw [uStrm_next h, hrow, rowStreamed_lands hl acc row cnt s k r hc rfl]
    · have ho : enabledBands o = [] := List.eq_nil_iff_forall_not_mem.2 fun b hm => by
        obtain ⟨hb8, hbit⟩ := mem_enabledBands.1 hm
        rw [hoff b hb8] at hbit
        exact Bool.false_ne_true hbit.symm
      rw [uStrm_next h, hrow, rowStreamed_nothing ho]

/-- Settles O31: a bank's load or a stream's row makes its checks in the model's order; where they hold, one update of the core
follows. -/
theorem weightLoadsAndStreams : Obligations.WeightLoadsAndStreams := ⟨weightBankMicroOperations_holds, streamMicroOperations_holds⟩

end Sys2Proof
end

section
/-!
PROOFS. Micro-operations on tiles (O32): the landings that a row waits for, clears and additions, and rows drained or stored.
-/

/- Elaborated in turn, as the file before. -/
set_option Elab.async false

namespace Sys2Proof

open Sys2Proof.Machine Sys2Proof.Says

variable {s : State} {k : Call}

/-! ### Landings that a row waits for (R222) -/

theorem foldl_max_le_iff (l : List Nat) (a e : Nat) : l.foldl max a ≤ e ↔ a ≤ e ∧ ∀ x ∈ l, x ≤ e := by
  induction l generalizing a with
  | nil => simp
  | cons y l ih => rw [List.foldl_cons, ih, Nat.max_le, List.forall_mem_cons, and_assoc]

theorem rowsReady_le_iff (c : Core) (t row cnt x : Nat) :
    c.rowsReady t row cnt ≤ x ↔ ∀ i ≤ cnt, Cells.get 0 (32 * t + (row + i) % 32) c.accReady ≤ x := by
  rw [Core.rowsReady, foldl_max_le_iff, List.forall_mem_map, and_iff_right (Nat.zero_le x)]
  exact forall_congr' fun i => by rw [List.mem_range, Nat.lt_succ_iff]

theorem settled_iff (s : State) (t row cnt : Nat) : settled s t row cnt ↔ (mine s).rowsReady t row cnt ≤ (mine s).lclk :=
  (rowsReady_le_iff ..).symm

theorem tileReady_le_iff (c : Core) (t x : Nat) : c.rowsReady t 0 31 ≤ x ↔ ∀ i < 32, Cells.get 0 (32 * t + i) c.accReady ≤ x := by
  rw [rowsReady_le_iff]
  refine forall_congr' fun i => ?_
  rw [← Nat.lt_succ_iff]
  exact imp_congr_right fun hi => by rw [Nat.zero_add, Nat.mod_eq_of_lt hi]

/-- The clock named by its bounds, one of which it meets. -/
theorem max_tileReady {c : Core} {t a due : Nat} (ha : a ≤ due) (hall : ∀ i < 32, Cells.get 0 (32 * t + i) c.accReady ≤ due)
    (hone : due = a ∨ ∃ i < 32, Cells.get 0 (32 * t + i) c.accReady = due) : max a (c.rowsReady t 0 31) = due := by
  refine Nat.le_antisymm (Nat.max_le.2 ⟨ha, (tileReady_le_iff ..).2 hall⟩) ?_
  rcases hone with rfl | ⟨i, hi, rfl⟩
  · exact Nat.le_max_left ..
  · exact ((tileReady_le_iff c t _).1 (Nat.le_refl _) i hi).trans (Nat.le_max_right ..)

/-! ### Clears and additions (R216, R222, R226) -/

theorem noteRows_tile (c : Core) (t x : Nat) :
    c.noteRows t 0 31 x = { c with accReady := (List.range 32).foldl (fun a i => noted t i x a) c.accReady } := by
  unfold Core.noteRows noted
  simp only [Nat.zero_add]

theorem uAclr_next (h : runs s k) {acc due : Nat} (ha : bit k.awm acc = true)
    (hd : max ((mine s).lclk + 1) ((mine s).rowsReady acc 0 31) = due) :
    exec (.uAclr acc) s = .next (withMine s fun c => { c with
      calls := renewed (onward (lands k due)) c.calls,
      accReady := (List.range 32).foldl (fun a i => noted acc i due a) c.accReady,
      matPend := c.matPend ++ [⟨due, k.id, .clearTile acc⟩] }) := by
  have hw : ¬ (!bit k.awm acc) = true := by
    rw [ha]
    decide
  show execUAclr acc s = _
  rw [execUAclr, micro_runs h]
  dsimp only
  rw [if_neg hw, hd, putCall_updCore]
  simp only [noteRows_tile]
  rfl

/-- The cells of a row in exact form, read as numbers of 128 bits (R226). -/
def exactCells (bs : List W8) : List Nat := (List.range 256).map fun j => joinBytes ((bs.drop (16 * j)).take 16)

theorem uAaddm_next (h : runs s k) {acc p : Nat} (row cnt : Nat) (ha : bit k.awm acc = true) (hd : (param k p).toNat < 2 ^ 45)
    (hp : k.primed = true) {bs : List W8} (hb : operandBytes (mine s) (param k p) (k.row * dStr (param k p)) 4096 = .ok bs)
    (hx : ∀ x ∈ exactCells bs, fld x 88 8 = pcEa k.pcw) :
    exec (.uAaddm acc row cnt p) s = .next (withMine s fun c => { c with
      calls := renewed { rowOn (lands k (c.lclk + 10)) cnt with primed := false } c.calls,
      accReady := noted acc (row + k.row) (c.lclk + 10) c.accReady,
      matPend := c.matPend ++ [⟨c.lclk + 10, k.id, .addRow acc (row + k.row) false (pcEa k.pcw)
        ((exactCells bs).map fun x => ([sgn 80 x], bit x 80))⟩],
      addDone := Cells.put acc (max (c.lclk + 11) (Cells.get 0 acc c.addDone)) c.addDone }) := by
  have hw : ¬ (!bit k.awm acc || dBad (k.mp p)) = true := by
    rw [ha, show dBad (k.mp p) = false from dBad_false hd]
    decide
  have hpr : ¬ (!k.primed) = true := by
    rw [hp]
    decide
  have hea : ¬ ((exactCells bs).any fun x => fld x 88 8 != pcEa k.pcw) = true := by
    rw [List.any_eq_true]
    rintro ⟨x, hm, hne⟩
    exact bne_iff_ne.1 hne (hx x hm)
  show execUAaddm acc row cnt p s = _
  rw [execUAaddm, micro_runs h]
  dsimp only
  rw [if_neg hw, if_neg hpr, show operandBytes (mine s) (k.mp p) (k.row * dStr (k.mp p)) 4096 = .ok bs from hb]
  dsimp only
  rw [show (List.range 256).map (fun j => joinBytes ((bs.drop (16 * j)).take 16)) = exactCells bs from rfl, if_neg hea,
    landRow_putCall, withMine_updCore]
  rfl

theorem uAadd_next (h : runs s k) {acc q row cnt : Nat} (ha : bit k.awm acc = true) (hs : k.row = 0 → settled s q row cnt)
    (hg : ((mine s).tagOf q).hold = true → ((mine s).tagOf q).ea = pcEa k.pcw) :
    exec (.uAadd acc row cnt q) s = .next (withMine s fun c => { c with
      calls := renewed (rowOn (lands k (c.lclk + 10)) cnt) c.calls,
      accReady := noted acc (row + k.row) (c.lclk + 10) c.accReady,
      matPend := c.matPend ++ [⟨c.lclk + 10, k.id, .addRow acc (row + k.row) false (pcEa k.pcw)
        ((List.range 256).map fun j => ([(c.accCell q (row + k.row) j).x], (c.accCell q (row + k.row) j).s))⟩] }) := by
  have hw : ¬ (!bit k.awm acc) = true := by
    rw [ha]
    decide
  have hr : ¬ (k.row = 0 ∧ (mine s).lclk < (mine s).rowsReady q row cnt) := fun ⟨h0, hlt⟩ =>
    Nat.not_lt.2 ((settled_iff ..).1 (hs h0)) hlt
  have hea : ¬ (((mine s).tagOf q).hold && ((mine s).tagOf q).ea != pcEa k.pcw) = true := by
    rw [Bool.and_eq_true, bne_iff_ne]
    exact fun ⟨hh, hne⟩ => hne (hg hh)
  show execUAadd acc row cnt q s = _
  rw [execUAadd, micro_runs h]
  dsimp only
  rw [if_neg hw, if_neg hr, if_neg hea, landRow_putCall]
  rfl

/-! ### Rows drained and stored (R200, R221, R226) -/

/-- A row whose bytes are written: a landing of the call on this clock. -/
theorem putRow_written {d : W64} {bs : List W8} {cnt busy flags : Nat} {t : State}
    (e : writeOperand s.cur.core d (k.row * dStr d) bs s = .ok t) :
    putRow k d bs cnt busy flags s = withCore t s.cur.core fun c => { c with
      calls := renewed { rowOn (lands k (mine s).lclk) cnt with
        busy := busy, flags := k.flags ||| flags, moved := k.moved + bs.length } c.calls } := by
  unfold putRow
  dsimp only
  rw [e]
  rfl

/-- The results of a drained row (R200). -/
def drainedRow (c : Core) (k : Call) (acc row : Nat) : List Res :=
  (List.range 256).map fun j => drainCell c k (c.tagOf acc) (c.accCell acc (row + k.row) j) k.row j

/-- The checks of a row to be written, all of which it passes. -/
theorem rowWrites {acc row cnt p : Nat} (hs : settled s acc row cnt) (hu : usable k (param k p)) {wait bad delay write : State} :
    (if (mine s).lclk < (mine s).rowsReady acc row cnt then wait else if dBad (k.mp p) = true then bad
      else if needsDelay k (k.mp p) = true then delay else write) = write := by
  obtain ⟨hd, hc⟩ := hu
  rw [if_neg (Nat.not_lt.2 ((settled_iff ..).1 hs)), show dBad (k.mp p) = false from dBad_false hd, if_neg Bool.false_ne_true,
    show needsDelay k (k.mp p) = false from needsDelay_false hc, if_neg Bool.false_ne_true]

theorem uDrn_next (h : runs s k) {acc row cnt p : Nat} (hs : settled s acc row cnt) (hu : usable k (param k p)) :
    exec (.uDrn acc row cnt p) s = .next (putRow k (param k p)
      (splitBytes (packNat (fmtBits (pcDfmt k.pcw)) ((drainedRow (mine s) k acc row).map Res.pat)) (32 * fmtBits (pcDfmt k.pcw)))
      cnt 0 (orFlags (drainedRow (mine s) k acc row)) s) := by
  show execUDrn acc row cnt p s = _
  rw [execUDrn, micro_runs h]
  dsimp only
  rw [rowWrites hs hu]
  rfl

theorem uAst_next (h : runs s k) {acc row cnt p : Nat} (hs : settled s acc row cnt) (hu : usable k (param k p)) {e : Nat}
    (he : e = if ((mine s).tagOf acc).hold then ((mine s).tagOf acc).ea else pcEa k.pcw) :
    exec (.uAst acc row cnt p) s = .next (putRow k (param k p)
      ((List.range 256).flatMap fun j => splitBytes (exactForm e ((mine s).accCell acc (row + k.row) j)) 16) cnt 1 0 s) := by
  subst he
  show execUAst acc row cnt p s = _
  rw [execUAst, micro_runs h]
  dsimp only
  rw [rowWrites hs hu]
  rfl

/-- Settles O32: with the landings that it waits for behind it, each micro-operation is one update of the core, or one row written. -/
theorem tileMicroOperations : Obligations.TileMicroOperations := by
  unfold Obligations.TileMicroOperations
  intro s k acc row cnt h
  refine ⟨fun ha due hle hall hone => uAclr_next h ha (max_tileReady hle hall hone), ?_, ?_, ?_⟩
  · rintro p _ rfl ha hd hp bs _ hb rfl hx
    exact uAaddm_next h row cnt ha hd hp hb hx
  · rintro q _ ha hs rfl hg
    exact uAadd_next h ha hs hg
  · rintro p _ rfl hs hu writes
    refine ⟨?_, ?_⟩
    · rintro _ rfl t e
      rw [uDrn_next h hs hu]
      exact congrArg _ (putRow_written e)
    · rintro _ e rfl he t ht
      rw [uAst_next h hs hu he]
      exact congrArg _ (putRow_written ht)

end Sys2Proof
end

section
/-!
PROOFS. The call queue and the accumulators (O33): entries that start, execute and end, and landings in tiles.
-/

/- Elaborated in turn, as the file before. -/
set_option Elab.async false

namespace Sys2Proof

open Sys2Proof.Machine Sys2Proof.Says

variable {s : State} {n : Nat} {k : Call}

/-! ### The entry that starts next (R207, R215 to R217) -/

/-- The first entry of a core that has not started. -/
def StartsNext (s : State) (n : Nat) (k : Call) : Prop := (s.core n).calls.find? (fun c => c.stage == .queued) = some k

theorem StartsNext.find (h : StartsNext s n k) : (s.core n).calls.find? (fun c => c.stage == .queued) = some k := h

theorem dropCall_updCore (n id : Nat) (s : State) (f : Core → Core) :
    (dropCall n id s).updCore n f = withCore s n fun c => f { c with calls := c.calls.filter fun x => x.id != id } :=
  State.updCore_updCore ..

theorem wswap_starts (h : StartsNext s n k) (hk : k.kind = .wswap) :
    exec (.callEntryStart n) s = .next (withCore s n fun c => { c with
      calls := c.calls.filter fun x => x.id != k.id, btag := !c.btag, lastEnd := c.lclk + 1 }) := by
  show execCallEntryStart n s = _
  simp only [execCallEntryStart, h.find, hk, dropCall_updCore]

theorem mcall_starts (h : StartsNext s n k) {r : Nat} (hk : k.kind = .mcall r) :
    exec (.callEntryStart n) s = .next (withCore s n fun c => { c with
      calls := renewed { k with stage := .running, btag := c.btag, waiting := false } c.calls, addDone := [], past := [] }) := by
  show execCallEntryStart n s = _
  simp only [execCallEntryStart, h.find, hk, putCall_updCore]

/-- The clock from which the landings in tiles are behind. -/
def tilesReady (c : Core) (m : Nat) : Nat := ((tilesOf m).map fun t => c.rowsReady t 0 31).foldl max 0

theorem aclr_starts (h : StartsNext s n k) {m : Nat} (hk : k.kind = .aclr m) :
    exec (.callEntryStart n) s = .next (putCall n { k with
      stage := .running, ended := max ((s.core n).lclk + 1) (tilesReady (s.core n) m), waiting := false } s) := by
  show execCallEntryStart n s = _
  simp only [execCallEntryStart, h.find, hk, tilesReady]

theorem acdrn_starts (h : StartsNext s n k) {w x : Nat} (hk : k.kind = .acdrn w x) :
    exec (.callEntryStart n) s = .next (putCall n { k with
      stage := .running, ended := max (s.core n).lclk ((s.core n).rowsReady (fld w 23 3) 0 31), waiting := false } s) := by
  show execCallEntryStart n s = _
  simp only [execCallEntryStart, h.find, hk]

theorem mem_tilesOf {m t : Nat} : t ∈ tilesOf m ↔ t < 8 ∧ bit m t = true := by rw [tilesOf, List.mem_filter, List.mem_range]

theorem foldl_max_mem (l : List Nat) (a : Nat) : l.foldl max a = a ∨ l.foldl max a ∈ l := (foldl_max_spec l a).2.2

/-- The clock from which a tile's landings are behind is 0, or one row's. -/
theorem tileReady_attained (c : Core) (t : Nat) :
    c.rowsReady t 0 31 = 0 ∨ ∃ i < 32, Cells.get 0 (32 * t + i) c.accReady = c.rowsReady t 0 31 := by
  refine (foldl_max_mem _ 0).imp_right fun hm => ?_
  obtain ⟨i, hi, e⟩ := List.mem_map.1 hm
  have hi : i < 32 := List.mem_range.1 hi
  rw [Nat.zero_add, Nat.mod_eq_of_lt hi] at e
  exact ⟨i, hi, e⟩

theorem tilesReady_attained (c : Core) (m : Nat) : tilesReady c m = 0 ∨
    ∃ t < 8, bit m t = true ∧ ∃ i < 32, Cells.get 0 (32 * t + i) c.accReady = tilesReady c m := by
  rcases foldl_max_mem ((tilesOf m).map fun t => c.rowsReady t 0 31) 0 with h | hm
  · exact .inl h
  · obtain ⟨t, ht, e⟩ := List.mem_map.1 hm
    have e : c.rowsReady t 0 31 = tilesReady c m := e
    obtain ⟨h8, hb⟩ := mem_tilesOf.1 ht
    rw [← e]
    exact (tileReady_attained c t).imp_right fun hi => ⟨t, h8, hb, hi⟩

/-- The later of a clock and one that something has named: the first, or named too. -/
theorem max_named {a x : Nat} (P : Nat → Prop) (h : x = 0 ∨ P x) : max a x = a ∨ P (max a x) := by
  rcases Nat.le_total x a with hle | hle
  · exact .inl (Nat.max_eq_left hle)
  · rw [Nat.max_eq_right hle]
    exact h.imp_left fun h0 => by omega

/-- An ACLR of tiles executes on the first clock after its start and after every earlier landing in them. -/
theorem aclr_clock (c : Core) (m : Nat) : ∃ e, e = max (c.lclk + 1) (tilesReady c m) ∧ c.lclk + 1 ≤ e ∧
    (∀ t < 8, bit m t = true → ∀ i < 32, Cells.get 0 (32 * t + i) c.accReady ≤ e) ∧
    (e = c.lclk + 1 ∨ ∃ t < 8, bit m t = true ∧ ∃ i < 32, Cells.get 0 (32 * t + i) c.accReady = e) := by
  have hone := max_named (a := c.lclk + 1)
    (fun e => ∃ t < 8, bit m t = true ∧ ∃ i < 32, Cells.get 0 (32 * t + i) c.accReady = e) (tilesReady_attained c m)
  refine ⟨_, rfl, Nat.le_max_left .., fun t h8 hb => (tileReady_le_iff ..).1 ?_, hone⟩
  obtain ⟨-, hall⟩ := (foldl_max_le_iff ((tilesOf m).map fun t => c.rowsReady t 0 31) 0 _).1 (Nat.le_refl _)
  exact (hall _ (List.mem_map_of_mem (mem_tilesOf.2 ⟨h8, hb⟩))).trans (Nat.le_max_right ..)

/-- An ACDRN reads from the first clock on which no landing is still to come in its tile. -/
theorem acdrn_clock (c : Core) (t : Nat) : ∃ e, e = max c.lclk (c.rowsReady t 0 31) ∧ c.lclk ≤ e ∧
    (∀ i < 32, Cells.get 0 (32 * t + i) c.accReady ≤ e) ∧ (e = c.lclk ∨ ∃ i < 32, Cells.get 0 (32 * t + i) c.accReady = e) := by
  have hone := max_named (a := c.lclk) (fun e => ∃ i < 32, Cells.get 0 (32 * t + i) c.accReady = e) (tileReady_attained c t)
  exact ⟨_, rfl, Nat.le_max_left .., (tileReady_le_iff ..).1 (Nat.le_max_right ..), hone⟩

/-! ### The running entry (R216, R217, R221) -/

/-- The running entry of a core. -/
def RunsOn (s : State) (n : Nat) (k : Call) : Prop := (s.core n).calls.find? (fun c => c.stage == .running) = some k

theorem RunsOn.running (h : RunsOn s n k) : (s.core n).running = some k := h

theorem microWaitExpiry_next (h : RunsOn s n k) : exec (.microWaitExpiry n) s = .next (withCore s n fun c => { c with
    calls := renewed { onward k with waiting := false } c.calls }) := by
  show execMicroWaitExpiry n s = _
  rw [execMicroWaitExpiry, h.running]
  rfl

theorem microSyncResume_next (h : RunsOn s n k) : exec (.microSyncResume n) s = .next (withCore s n fun c => { c with
    calls := renewed { onward k with syncing := false } c.calls }) := by
  show execMicroSyncResume n s = _
  rw [execMicroSyncResume, h.running]
  rfl

theorem Cells.get_absent {α : Type} {d : α} {i : Nat} {c : Cells α} (h : ∀ e ∈ c, e.1 ≠ i) : Cells.get d i c = d := by
  induction c with
  | nil => rfl
  | cons e c ih =>
    obtain ⟨he, hc⟩ := List.forall_mem_cons.1 h
    rw [Cells.get, if_neg (Ne.symm he), ih hc]

/-- A tile that a clear has left: no format, and no row that is not zero. -/
def Cleared (c : Core) (t : Nat) : Prop := (∀ d, Cells.get d t c.accTag = ⟨false, 0⟩) ∧ ∀ e ∈ c.acc, e.1 / 32 ≠ t

theorem Cleared.accCell {c : Core} {t : Nat} (h : Cleared c t) (r j : Nat) : c.accCell t r j = ⟨0, false⟩ := by
  have hrow : c.accRow t r = List.replicate 256 AccCell.zero := Cells.get_absent fun e he ei => h.2 e he (by omega)
  rw [Core.accCell, hrow, List.getD_replicate _ (Nat.mod_lt j (by decide))]
  rfl

theorem clearTile_cleared (c : Core) (t : Nat) : Cleared (c.clearTile t) t :=
  ⟨fun _ => Cells.get_put_self .., fun _ he => bne_iff_ne.1 (List.mem_filter.1 he).2⟩

theorem Cleared.clearTile {c : Core} {t : Nat} (h : Cleared c t) (u : Nat) : Cleared (c.clearTile u) t := by
  refine ⟨fun d => ?_, fun e he => h.2 e (List.mem_filter.1 he).1⟩
  rw [Core.clearTile, Cells.get_put, h.1 d, ite_self]

theorem Cleared.clearTiles {c : Core} {t : Nat} (h : Cleared c t) (l : List Nat) : Cleared (l.foldl Core.clearTile c) t :=
  List.foldlRecOn (motive := fun x => Cleared x t) l _ h fun _ h u _ => h.clearTile u

theorem clearTiles_cleared (c : Core) {t : Nat} {l : List Nat} (h : t ∈ l) : Cleared (l.foldl Core.clearTile c) t := by
  induction l generalizing c with
  | nil => cases h
  | cons u l ih =>
    rcases List.mem_cons.1 h with rfl | h
    · exact (clearTile_cleared c t).clearTiles l
    · exact ih _ h

/-- What clears leave of a core. -/
theorem clearTiles_frame (c : Core) (l : List Nat) :
    (l.foldl Core.clearTile c).calls = c.calls ∧ (l.foldl Core.clearTile c).lastEnd = c.lastEnd :=
  List.foldlRecOn (motive := fun x : Core => x.calls = c.calls ∧ x.lastEnd = c.lastEnd) l _ ⟨rfl, rfl⟩ fun _ h _ _ => h

theorem core_withCore (s : State) (n : Nat) (f : Core → Core) : (withCore s n f).core n = f (s.core n) := Cells.get_put_self ..

theorem aclrEntryExecute_clears (h : RunsOn s n k) {m : Nat} (hk : k.kind = .aclr m) : ∃ t, exec (.aclrEntryExecute n) s = .next t ∧
    (t.core n).calls = (s.core n).calls.filter (fun x => x.id != k.id) ∧ (t.core n).lastEnd = (s.core n).lclk + 1 ∧
    ∀ i < 8, bit m i = true → Cleared (t.core n) i := by
  have e : execAclrEntryExecute n s = .next (withCore s n fun c => (tilesOf m).foldl Core.clearTile { c with
      calls := c.calls.filter fun x => x.id != k.id, lastEnd := c.lclk + 1 }) := by
    unfold execAclrEntryExecute
    rw [h.running]
    dsimp only
    rw [hk]
    dsimp only
    rw [dropCall_updCore]
  refine ⟨_, e, ?_⟩
  rw [core_withCore]
  obtain ⟨hc, hl⟩ := clearTiles_frame { s.core n with
    calls := (s.core n).calls.filter fun x => x.id != k.id, lastEnd := (s.core n).lclk + 1 } (tilesOf m)
  exact ⟨hc, hl, fun i h8 hb => clearTiles_cleared _ (mem_tilesOf.2 ⟨h8, hb⟩)⟩

/-- The results of a row of an ACDRN with argument word w (R217). -/
def drainedColumns (c : Core) (k : Call) (w : Nat) : List Res :=
  (List.range (fld w 44 8 + 1)).map fun j => drainCell c k (c.tagOf (fld w 23 3))
    (c.accCell (fld w 23 3) ((fld w 26 5 + k.row) % 32) ((fld w 36 8 + j) % 256)) k.row ((fld w 36 8 + j) % 256)

/-- The bytes of an element in a format of R200. -/
abbrev drainedBytes (k : Call) : Nat := fmtBits (pcDfmt k.pcw) / 8

theorem drained_length (rs : List Res) (b : Nat) : (rs.flatMap fun r => splitBytes r.pat b).length = b * rs.length := by
  induction rs with
  | nil => rfl
  | cons r rs ih => rw [List.flatMap_cons, List.length_append, splitBytes_length, ih, List.length_cons, Nat.mul_succ, Nat.add_comm]

theorem acdrnRowWrite_next (h : RunsOn s n k) {w x : Nat} (hk : k.kind = .acdrn w x) {t : State}
    (ht : t = writeSlice n (w % 2 ^ 23 / drainedBytes k * drainedBytes k + 16 * fld w 52 12 * k.row)
      ((drainedColumns (s.core n) k w).flatMap fun r => splitBytes r.pat (drainedBytes k)) s) :
    let k1 := { (lands k (s.core n).lclk) with
      row := k.row + 1, rows := k.rows + 1, flags := k.flags ||| orFlags (drainedColumns (s.core n) k w),
      moved := k.moved + drainedBytes k * (fld w 44 8 + 1) }
    exec (.acdrnRowWrite n) s = .next (if k.row < fld w 31 5 then withCore t n fun c => { c with calls := renewed k1 c.calls }
      else withCore t n fun c => { c with
        calls := renewed { k1 with stage := .ended, ended := (s.core n).lclk } c.calls, lastEnd := c.lclk + 1 }) := by
  intro k1
  have hm : ((drainedColumns (s.core n) k w).flatMap fun r => splitBytes r.pat (drainedBytes k)).length =
      drainedBytes k * (fld w 44 8 + 1) := by
    rw [drained_length, drainedColumns, List.length_map, List.length_range]
  have e : execAcdrnRowWrite n s = .next (if k.row < fld w 31 5 then putCall n k1 t
      else (putCall n { k1 with stage := .ended, ended := (s.core n).lclk } t).updCore n fun c => { c with lastEnd := c.lclk + 1 }) := by
    subst ht
    simp only [k1, ← hm]
    unfold execAcdrnRowWrite
    dsimp only
    rw [h.running]
    dsimp only
    conv_lhs => rw [hk]
    rfl
  refine Eq.trans e ?_
  rw [putCall_updCore]
  rfl

/-! ### The first that is due (R208, R222) -/

/-- Of a list, the first that passes a test, and the list without it. -/
theorem find_first {α : Type} {p : α → Bool} {a b : List α} {l : α} (hl : p l = true) (ha : ∀ x ∈ a, p x = false) :
    (a ++ l :: b).find? p = some l := by
  rw [List.find?_append, List.find?_eq_none.2 fun x hx => Bool.eq_false_iff.1 (ha x hx), List.find?_cons_of_pos hl]
  rfl

theorem erase_first {α : Type} [DecidableEq α] {p : α → Bool} {a b : List α} {l : α} (hl : p l = true) (ha : ∀ x ∈ a, p x = false) :
    (a ++ l :: b).erase l = a ++ b := by
  have hn : l ∉ a := fun hm => Bool.false_ne_true ((ha l hm).symm.trans hl)
  rw [List.erase_append_right _ hn, List.erase_cons_head]

theorem not_due {x now : Nat} (h : now < x) : decide (x ≤ now) = false := decide_eq_false (Nat.not_le.2 h)

theorem weightBankLoadDone_next {a b : List BankLoad} {l : BankLoad} (hl : (s.core n).loads = a ++ l :: b) (hd : l.due ≤ (s.core n).lclk)
    (ha : ∀ x ∈ a, (s.core n).lclk < x.due) :
    exec (.weightBankLoadDone n) s = .next (withCore s n fun c => { c with
      loads := a ++ b, wbanks := Cells.put l.bank l.new c.wbanks }) := by
  have hp : decide (l.due ≤ (s.core n).lclk) = true := decide_eq_true hd
  have hf : ∀ x ∈ a, decide (x.due ≤ (s.core n).lclk) = false := fun x hx => not_due (ha x hx)
  show execWeightBankLoadDone n s = _
  unfold execWeightBankLoadDone
  dsimp only
  rw [hl, find_first (p := fun x : BankLoad => decide (x.due ≤ (s.core n).lclk)) hp hf]
  dsimp only
  rw [erase_first (p := fun x : BankLoad => decide (x.due ≤ (s.core n).lclk)) hp hf]
  rfl

/-- The tag of an entry set by the entry itself where no later one has taken it, and its flags merged (R52, R239). -/
def tagged (k : Call) (g : Nat) (x : Part) : Part :=
  let m := if Cells.get 0 g x.owners = k.id then BitVec.ofNat 64 (2 ^ g) else 0
  { x with tags := x.tags ||| m, setNow := x.setNow ||| m,
           flags := x.flags ||| BitVec.ofNat 6 k.flags, orNow := x.orNow ||| BitVec.ofNat 6 k.flags }

theorem completeTag_eq (s : State) (k : Call) (g : Nat) : completeTag k.gpi g k.id k.flags s = withPart s k.gpi (tagged k g) := by
  refine updPart_eq ?_
  unfold tagged
  dsimp only
  split <;> rfl

/-- An entry that has ended, with its tag due: no other of its number or stage comes before it. -/
structure TagDue (s : State) (n : Nat) (a b : List Call) (k : Call) (g : Nat) : Prop where
  calls : (s.core n).calls = a ++ k :: b
  ended : k.stage = .ended
  tag : k.tag = some g
  clock : k.tagClock ≤ (s.core n).lclk
  before : ∀ x ∈ a, x.stage ≠ .ended ∧ x.id ≠ k.id
  after : ∀ x ∈ b, x.id ≠ k.id

section
variable {a b : List Call} {g : Nat}

theorem TagDue.dueCall (h : TagDue s n a b k g) {isCall : Bool} (hk : (match k.kind with | .mcall _ => isCall | _ => !isCall) = true) :
    (s.core n).dueCall isCall = some k := by
  unfold Core.dueCall
  rw [h.calls]
  refine find_first ?_ fun x hx => ?_
  · rw [h.ended, decide_eq_true h.clock]
    exact hk
  · rw [beq_eq_false_iff_ne.2 (h.before x hx).1]
    rfl

theorem TagDue.dropCall (h : TagDue s n a b k g) : dropCall n k.id s = withCore s n fun c => { c with calls := a ++ b } := by
  have hd : (s.core n).calls.filter (fun x => x.id != k.id) = a ++ b := by
    rw [h.calls, List.filter_append, List.filter_cons_of_neg (by simp), List.filter_eq_self.2 fun x hx => bne_iff_ne.2 (h.before x hx).2,
      List.filter_eq_self.2 fun x hx => bne_iff_ne.2 (h.after x hx)]
  show withCore s n (fun c => { c with calls := c.calls.filter fun x => x.id != k.id }) = _
  dsimp only [withCore]
  rw [hd]

theorem TagDue.acdrn (h : TagDue s n a b k g) {w x : Nat} (hk : k.kind = .acdrn w x) : exec (.acdrnTagSet n) s =
    .next (withPart (withCore s n fun c => { c with calls := a ++ b }) k.gpi (tagged k g)) := by
  show execAcdrnTagSet n s = _
  unfold execAcdrnTagSet
  rw [h.dueCall (isCall := false) (by rw [hk]; rfl)]
  dsimp only
  rw [h.tag, Option.getD_some, h.dropCall, completeTag_eq]

theorem TagDue.mcall (h : TagDue s n a b k g) {r : Nat} (hk : k.kind = .mcall r) : exec (.mcallCompletion n) s =
    .next (withPart (withCore s n fun c => (tilesOf k.acm).foldl Core.clearTile { c with calls := a ++ b }) k.gpi (tagged k g)) := by
  show execMcallCompletion n s = _
  unfold execMcallCompletion
  rw [h.dueCall (isCall := true) (by rw [hk])]
  dsimp only
  rw [h.tag, Option.getD_some, h.dropCall, completeTag_eq]
  rw [withCore_updCore]

end

theorem callQueueEvents_holds : callQueueEvents := by
  refine ⟨fun s n k h => ⟨wswap_starts h, fun r => mcall_starts h, fun m hk => ?_, fun w x hk => ?_⟩, fun s n k h =>
    ⟨microWaitExpiry_next h, microSyncResume_next h, fun m hk => ?_, fun w x hk => ?_⟩,
    fun s n a l b hl hd ha => weightBankLoadDone_next hl hd ha, fun s n a k b g hc he ht h1 h2 ha hb => ?_⟩
  · obtain ⟨e, rfl, hle, hall, hone⟩ := aclr_clock (s.core n) m
    exact ⟨_, hle, hall, hone, aclr_starts h hk⟩
  · obtain ⟨e, rfl, hle, hall, hone⟩ := acdrn_clock (s.core n) (fld w 23 3)
    exact ⟨_, hle, hall, hone, acdrn_starts h hk⟩
  · obtain ⟨t, e, hc, hl, hcl⟩ := aclrEntryExecute_clears h hk
    exact ⟨t, e, hc, hl, fun i h8 hb => ⟨(hcl i h8 hb).1 _, fun r _ j => (hcl i h8 hb).accCell r j⟩⟩
  · exact ⟨_, _, rfl, rfl, fun t ht => acdrnRowWrite_next h hk ht⟩
  · have h : TagDue s n a b k g := ⟨hc, he, ht, Nat.max_le.2 ⟨h2, h1⟩, ha, hb⟩
    exact ⟨fun w x hk => h.acdrn hk, fun r hk => h.mcall hk⟩

/-! ### Additions into cells (R199) -/

theorem flag_or (p q : Bool) (m : Nat) : ((if p then m else 0) ||| if q then m else 0) = if p || q then m else 0 := by
  cases p <;> cases q <;> simp

theorem addCell_eq (x t : Int) :
    addCell x t = (satAdd x t, if decide (x + t < -2 ^ 79 ∨ 2 ^ 79 - 1 < x + t) then fOF else 0) := by
  unfold addCell satAdd
  by_cases hi : 2 ^ 79 - 1 < x + t
  · rw [if_pos hi, decide_eq_true (.inr hi), if_pos rfl, min_eq_left hi.le, max_eq_right (by decide)]
  · by_cases lo : x + t < -2 ^ 79
    · rw [if_neg hi, if_pos lo, decide_eq_true (.inl lo), if_pos rfl, max_eq_left ((min_le_right ..).trans lo.le)]
    · rw [if_neg hi, if_neg lo, decide_eq_false (not_or.2 ⟨lo, hi⟩), if_neg Bool.false_ne_true, min_eq_right (not_lt.1 hi),
        max_eq_right (not_lt.1 lo)]

/-- A cell takes its integers one by one; OF is gathered where one of the sums leaves 80 bits. -/
theorem addCells_eq (ts : List Int) (x : Int) (f : Nat) :
    ts.foldl (fun (r : Int × Nat) t => let q := addCell r.1 t; (q.1, r.2 ||| q.2)) (x, f) =
      (ts.foldl satAdd x, f ||| if spills x ts then fOF else 0) := by
  induction ts generalizing x f with
  | nil => simp [spills]
  | cons t ts ih =>
    rw [List.foldl_cons, List.foldl_cons, ih, spills, addCell_eq]
    dsimp only
    rw [Nat.or_assoc, flag_or]

theorem addTerms_eq (a : AccCell) (v : List Int × Bool) :
    addTerms a v = (⟨v.1.foldl satAdd a.x, a.s || v.2⟩, if spills a.x v.1 then fOF else 0) := by
  unfold addTerms
  rw [addCells_eq, Nat.zero_or]

theorem foldl_or_flag {α : Type} (p : α → Bool) (m : Nat) (l : List α) (a : Nat) :
    l.foldl (fun a x => a ||| if p x then m else 0) a = a ||| if l.any p then m else 0 := by
  induction l generalizing a with
  | nil => simp
  | cons x l ih =>
    rw [List.foldl_cons, ih, List.any_cons, Nat.or_assoc, flag_or]

/-! ### Landings in tiles (R199, R205, R222) -/

/-- A core after the landing l, the others that it holds being rest: what lands, and the flags of its call. -/
def landedCore (c : Core) (rest : List MatLanding) (l : MatLanding) : Core :=
  let r := applyMat { c with matPend := rest } l.act
  { r.1 with calls := r.1.calls.map fun k => if k.id = l.call then { k with flags := k.flags ||| r.2 } else k }

theorem core_weigh (s : State) (n w : Nat) (c : Core) : ((s.setCore n c).weigh n w).core n = { c with charge := c.charge + w } := by
  rw [State.weigh, State.core_updCore, if_pos rfl, State.core, State.setCore, Cells.get_put_self]

/-- The first landing that is due is the one that lands; its weight aside, the core is as it leaves it. -/
theorem accumulatorRowLanding_core {a b : List MatLanding} {l : MatLanding} (hl : (s.core n).matPend = a ++ l :: b)
    (hd : l.due ≤ (s.core n).lclk) (ha : ∀ x ∈ a, (s.core n).lclk < x.due) :
    ∃ u, exec (.accumulatorRowLanding n) s = .next u ∧ ∃ w, u.core n = { landedCore (s.core n) (a ++ b) l with charge := w } := by
  have hp : decide (l.due ≤ (s.core n).lclk) = true := decide_eq_true hd
  have hf : ∀ x ∈ a, decide (x.due ≤ (s.core n).lclk) = false := fun x hx => not_due (ha x hx)
  have hfind := find_first (p := fun x : MatLanding => decide (x.due ≤ (s.core n).lclk)) (b := b) hp hf
  have herase := erase_first (p := fun x : MatLanding => decide (x.due ≤ (s.core n).lclk)) (b := b) hp hf
  show ∃ u, execAccumulatorRowLanding n s = .next u ∧ _
  unfold execAccumulatorRowLanding
  dsimp only
  rw [hl, hfind]
  dsimp only
  rw [herase]
  exact ⟨_, rfl, _, core_weigh ..⟩

theorem clear_lands (c : Core) (rest : List MatLanding) {l : MatLanding} {t : Nat} (hl : l.act = .clearTile t) :
    Cleared (landedCore c rest l) t := by
  unfold landedCore
  rw [hl]
  exact clearTile_cleared { c with matPend := rest } t

/-- The cell that additions go into: the tile's, or a zero one where they clear it. -/
def oldCell (c : Core) (t r : Nat) (z : Bool) (j : Nat) : AccCell := if z then ⟨0, false⟩ else c.accCell t r j

/-- A row after additions, and the flags of its cells. -/
def addedRow (c : Core) (t r : Nat) (z : Bool) (cols : List (List Int × Bool)) : List (AccCell × Nat) :=
  cols.zipIdx.map fun x => addTerms (oldCell c t r z x.2) x.1

theorem applyMat_addRow (c : Core) (t r e : Nat) (z : Bool) {cols : List (List Int × Bool)} (hc : cols.length = 256) :
    applyMat c (.addRow t r z e cols) =
      ({ c with acc := Cells.put (32 * t + r % 32) ((addedRow c t r z cols).map Prod.fst) c.acc,
                accTag := Cells.put t ⟨true, e⟩ c.accTag },
        (addedRow c t r z cols).foldl (fun a x => a ||| x.2) 0) := by
  have hrow : cols.zipIdx.map (fun x => addTerms (if z then AccCell.zero else (c.accRow t r).getD x.2 AccCell.zero) x.1) =
      addedRow c t r z cols := List.map_congr_left fun x hx => by
    have hx : x.2 < 256 := hc ▸ List.snd_lt_of_mem_zipIdx hx
    rw [oldCell, Core.accCell, Nat.mod_eq_of_lt hx]
    rfl
  unfold applyMat
  dsimp only
  rw [hrow]

theorem addedRow_flags (c : Core) (t r : Nat) (z : Bool) (cols : List (List Int × Bool)) :
    (addedRow c t r z cols).foldl (fun a x => a ||| x.2) 0 =
      if cols.zipIdx.any (fun v => spills (oldCell c t r z v.2).x v.1.1) then fOF else 0 := by
  unfold addedRow
  simp only [List.foldl_map, addTerms_eq]
  rw [foldl_or_flag (fun v : (List Int × Bool) × Nat => spills (oldCell c t r z v.2).x v.1.1) fOF, Nat.zero_or]

theorem addedRow_cell (c : Core) (t r : Nat) (z : Bool) {cols : List (List Int × Bool)} {j : Nat} {v : List Int × Bool}
    (hv : cols[j]? = some v) : ((addedRow c t r z cols).map Prod.fst).getD j AccCell.zero =
      ⟨v.1.foldl satAdd (oldCell c t r z j).x, (oldCell c t r z j).s || v.2⟩ := by
  rw [List.getD_eq_getElem?_getD, addedRow, List.getElem?_map, List.getElem?_map, List.getElem?_zipIdx, hv]
  simp only [Option.map_some, Nat.zero_add, addTerms_eq, Option.getD_some]

/-- A row's landing: its cells, every other row, the tile's format and the flags of its call. -/
theorem row_lands (c : Core) (rest : List MatLanding) {l : MatLanding} {t r e : Nat} {z : Bool} {cols : List (List Int × Bool)}
    (hl : l.act = .addRow t r z e cols) (hc : cols.length = 256) :
    (landedCore c rest l).matPend = rest ∧ Cells.get ⟨false, 0⟩ t (landedCore c rest l).accTag = ⟨true, e⟩ ∧
    (∀ j v, cols[j]? = some v → (landedCore c rest l).accCell t r j =
      ⟨v.1.foldl satAdd (oldCell c t r z j).x, (oldCell c t r z j).s || v.2⟩) ∧
    (∀ t' r' j, ¬ (t' = t ∧ r' % 32 = r % 32) → (landedCore c rest l).accCell t' r' j = c.accCell t' r' j) ∧
    ∀ k ∈ c.calls, k.id = l.call → ∃ k' ∈ (landedCore c rest l).calls, k'.id = k.id ∧
      k'.flags = k.flags ||| (if cols.zipIdx.any (fun v => spills (oldCell c t r z v.2).x v.1.1) then fOF else 0) := by
  unfold landedCore
  rw [hl, applyMat_addRow _ t r e z hc, addedRow_flags]
  refine ⟨rfl, Cells.get_put_self .., fun j v hv => ?_, fun t' r' j hne => ?_, fun k hk hi => ?_⟩
  · have hj : j < 256 := hc ▸ (List.getElem?_eq_some_iff.1 hv).1
    rw [Core.accCell, Core.accRow, Cells.get_put_self, Nat.mod_eq_of_lt hj, addedRow_cell _ t r z hv]
    rfl
  · rw [Core.accCell, Core.accRow, Cells.get_put_other _ _ _ _ _ (by omega)]
    rfl
  · refine ⟨_, List.mem_map_of_mem hk, ?_⟩
    rw [if_pos hi]
    exact ⟨rfl, rfl⟩

theorem accumulatorLandings_holds : accumulatorLandings := by
  intro s n a l b hl hd ha
  obtain ⟨u, e, w, hu⟩ := accumulatorRowLanding_core hl hd ha
  refine ⟨fun t ht => ⟨u, e, ?_⟩, fun t r z f cols hr hc => ⟨u, e, ?_⟩⟩ <;> rw [hu]
  · have hcl : Cleared (landedCore (s.core n) (a ++ b) l) t := clear_lands _ _ ht
    refine ⟨?_, hcl.1 _, fun r _ j => hcl.accCell r j⟩
    unfold landedCore
    rw [ht]
    rfl
  · obtain ⟨hp, ht, hcell, hframe, hcalls⟩ := row_lands (s.core n) (a ++ b) hr hc
    have hold : ∀ j, (if z then ⟨0, false⟩ else (s.core n).accCell t r j) = oldCell (s.core n) t r z j := fun _ => rfl
    have holdx : ∀ j, (if z then 0 else ((s.core n).accCell t r j).x) = (oldCell (s.core n) t r z j).x := fun j => by
      rw [← hold]
      cases z <;> rfl
    refine ⟨hp, ht, fun j v hv old ho => ?_, hframe, ?_⟩
    · rw [ho, hold]
      exact hcell j v hv
    · simp only [holdx]
      exact hcalls

/-- Settles O33: the first entry or landing that is due is the one an event takes; a tile's clocks are those of its latest row, and a
row's sums are taken cell by cell, integer by integer. -/
theorem callQueueAndAccumulators : Obligations.CallQueueAndAccumulators := ⟨callQueueEvents_holds, accumulatorLandings_holds⟩

end Sys2Proof
end

section
/-!
PROOFS. Slot-2 accesses (O22): what each form lists for the next clock, and what it puts in flight.
-/

/- Elaborated in turn: the many short proofs of this part are not worth the memory of a worker for each. -/
set_option Elab.async false

namespace Sys2Proof

open Sys2Proof.Machine Sys2Proof.Says

variable {s t u : State}

/-- In a bank group that no call reserves, the check of R209 passes. -/
theorem InBundle.nearCheck_free (h : InBundle s t) {a : Nat} (ha : free s a) : Machine.nearCheck a t = t := by
  have hr : s.myCore.reserves (a / 2 ^ 21) = false := by
    rw [Bool.eq_false_iff]
    exact fun e => (reserves_iff s a).1 e ha
  unfold Machine.nearCheck
  rw [h.myCore, hr]
  rfl

/-- Settles O22: the reads find their sources, the check of R209 passes, and what is left of each form is the list entry of its
access and the landing of its result. -/
theorem slotTwoIssue : Obligations.SlotTwoIssue := by
  have base {s u : State} {b : Nat} {m : Bool} {x : W64} (hx : source s b m x u) : InBundle s u :=
    (source_quiet hx (.refl s)).1
  have second {s t u : State} {q b : Nat} {k m : Bool} {v x : W64} (hv : source s q k v t) (hx : source t b m x u) : InBundle s u :=
    (source_quiet hx (base hv)).1
  refine ⟨?_, ?_, ?_, ?_, ?_, ?_, ?_, ?_⟩
  case refine_1 =>
    intro s sx d m b i z x u hx hf
    change execLds sx d m b i z s = _
    unfold execLds
    rw [readS_source hx]
    exact congrArg (fun w => Host.Outcome.next (pushS d 6 0 0 (nearIssue _ w))) ((base hx).nearCheck_free hf)
  case refine_2 =>
    intro s d m b k i z v x t u hv hx hf
    change execSts d m b k i z s = _
    unfold execSts
    dsimp only
    rw [readS_source hv, readS_source hx]
    exact congrArg (fun w => Host.Outcome.next (nearIssue _ w)) ((second hv hx).nearCheck_free hf)
  case refine_3 =>
    intro s d m b i x u hx hf
    change execLdv d m b i s = _
    unfold execLdv
    rw [readS_source hx]
    exact congrArg (fun w => Host.Outcome.next (pushV d 6 0 0 (nearIssue _ w))) ((base hx).nearCheck_free hf)
  case refine_4 =>
    intro s d m b k i v x t u hv hx hf
    change execStv d m b k i s = _
    unfold execStv
    dsimp only
    rw [readV_vsource hv, readS_source hx]
    exact congrArg (fun w => Host.Outcome.next (nearIssue _ w)) ((source_quiet hx (vsource_quiet hv (.refl s)).1).1.nearCheck_free hf)
  case refine_5 =>
    intro s t m b i r x u hx hf hw
    change execLdt t m b i r s = _
    unfold execLdt
    dsimp only
    rw [readS_source hx, (base hx).needTile_awake hw]
    exact congrArg (fun w => Host.Outcome.next (emit 6 0 _ (nearIssue _ w))) ((base hx).nearCheck_free hf)
  case refine_6 =>
    intro s t m b i r x u hx hf hw
    change execStt t m b i r s = _
    unfold execStt
    dsimp only
    rw [readS_source hx, (base hx).needTile_awake hw]
    exact congrArg (fun w => Host.Outcome.next (nearIssue _ w)) ((base hx).nearCheck_free hf)
  case refine_7 =>
    intro s q m b k i z o v x t u hv hx hf
    change execNatom q m b k i z o s = _
    unfold execNatom
    dsimp only
    rw [readS_source hv, readS_source hx]
    exact congrArg (fun w => Host.Outcome.next (pushS q 8 0 0 (nearIssue _ w))) ((second hv hx).nearCheck_free hf)
  case refine_8 =>
    intro s q m b i v x t u hv hx hf
    change execNcas q m b i s = _
    unfold execNcas
    dsimp only
    rw [readS_source hv, readS_source hx]
    exact congrArg (fun w => Host.Outcome.next (pushS q 8 0 0 (nearIssue _ w))) ((second hv hx).nearCheck_free hf)

end Sys2Proof
end

section
/-!
PROOFS. Engine commands at their issue (O25, O27): what a command whose words are in order leaves, commands recorded and replayed, and
the table loads.
-/

/- Elaborated in turn: the many short proofs of this part are not worth the memory of a worker for each. -/
set_option Elab.async false

namespace Sys2Proof

open Sys2Proof.Machine Sys2Proof.Says

variable {s t u : State}

/-! ### Words popped -/

/-- State u is state s with entries taken by the bundle in progress, and nothing else changed. -/
def Popped (s u : State) : Prop := ∃ k, u = { s with cur := { s.cur with taken := k } }

theorem Popped.refl (s : State) : Popped s s := ⟨_, rfl⟩

theorem popped_of_pops {q : Nat} {ws : List Nat} (h : pops s q ws u) : Popped s u := by
  induction ws generalizing s with
  | nil => exact h ▸ .refl s
  | cons w ws ih =>
    obtain ⟨x, t, ⟨-, rfl⟩, -, h⟩ := h
    obtain ⟨k, rfl⟩ := ih h
    exact ⟨k, rfl⟩

/-- What the issue of a command reads of the state is as at the start of its slot. -/
structure AtIssue (s t : State) : Prop where
  me : t.me = s.me
  gpi : t.cur.gpi = s.cur.gpi
  mod : t.cur.mod = s.cur.mod
  nextId : t.nextId = s.nextId

theorem Popped.atIssue (h : Popped s u) : AtIssue s u := by
  obtain ⟨k, rfl⟩ := h
  exact ⟨rfl, rfl, rfl, rfl⟩

theorem AtIssue.updCtx (h : AtIssue s t) (k : Nat) (f : Context → Context) : AtIssue s (t.updCtx k f) :=
  ⟨h.me, h.gpi, h.mod, h.nextId⟩

/-! ### A command joins its partition's (R238, R239) -/

/-- Below the limits of R240 no bundle waits. -/
theorem AtIssue.waitIf_cmdLimit (h : AtIssue s t) (hs : spacious s) : t.waitIf t.me.cmdLimit = t := by
  have hl : s.me.cmdLimit = false := by
    rw [Bool.eq_false_iff]
    exact fun e => (cmdLimit_iff s).1 e hs
  rw [h.me, hl, State.waitIf_false]

/-- The state after a command's issue: its produced tag taken, the command last of its partition's, the next number taken. -/
theorem AtIssue.issueCmd (h : AtIssue s t) (hs : spacious s) (f : Cmd → Cmd) (kind : EngKind) (fn p a b : Nat) (ws : List Nat) :
    Machine.issueCmd f kind fn p a b ws t =
      { withMe (claims t p) (fun x => { x with cmds := x.cmds ++ [f (newCmd t kind fn p a b ws)] }) with nextId := t.nextId + 1 } := by
  unfold Machine.issueCmd
  rw [h.waitIf_cmdLimit hs]
  rfl

theorem AtIssue.issueCmd_cur (h : AtIssue s t) (hs : spacious s) (f : Cmd → Cmd) (kind : EngKind) (fn p a b : Nat) (ws : List Nat) :
    (Machine.issueCmd f kind fn p a b ws t).cur = t.cur := by rw [h.issueCmd hs]

theorem AtIssue.issueCmd_cmds (h : AtIssue s t) (hs : spacious s) (f : Cmd → Cmd) (kind : EngKind) (fn p a b : Nat) (ws : List Nat) :
    ((Machine.issueCmd f kind fn p a b ws t).part s.cur.gpi).cmds = (Says.me s).cmds ++ [f (newCmd t kind fn p a b ws)] := by
  rw [h.issueCmd hs, ← h.gpi]
  have hme : (Says.me s).cmds = t.me.cmds := congrArg Part.cmds h.me.symm
  rw [hme]
  simp only [State.part, Cells.get_put_self]
  rfl

/-- A command whose issue sets no more than its place in the record ring. -/
theorem AtIssue.commandsAt (h : AtIssue s t) (hs : spacious s) {f : Cmd → Cmd} {place : Nat}
    (hf : ∀ c, f c = { c with place := place }) (kind : EngKind) (fn p a b : Nat) (ws : List Nat) :
    Says.commandsAt (.next (Machine.issueCmd f kind fn p a b ws t)) s t kind fn p a b ws place := by
  have hneeds : consumed t p a b = needs s p a b := by rw [consumed, h.mod]; rfl
  refine ⟨f (newCmd t kind fn p a b ws), ?_⟩
  rw [h.issueCmd hs, h.nextId, hf]
  exact ⟨h.nextId, rfl, rfl, rfl, hneeds, rfl, h.gpi, congrArg Part.pc h.me, rfl, rfl, rfl,
    congrArg (fun x : Part => x.txActive.map Tx.no) h.me, rfl⟩

theorem AtIssue.commands (h : AtIssue s t) (hs : spacious s) (kind : EngKind) (fn p a b : Nat) (ws : List Nat) :
    Says.commands (.next (Machine.issueCmd id kind fn p a b ws t)) s t kind fn p a b ws :=
  h.commandsAt hs (fun _ => rfl) kind fn p a b ws

/-! ### Far accesses (R238, R242) -/

/-- The window check passes an address that does not lead into a window the context may not use (R319). -/
theorem Popped.windowCheck (h : Popped s u) {va : Nat} (hr : reachable s va) (wr : Bool) : windowCheck va wr u = u := by
  obtain ⟨k, rfl⟩ := h
  have hw : ({ s with cur := { s.cur with taken := k } } : State).windowVa (s.ctxOf s.cur.core) va = s.windowVa (s.ctxOf s.cur.core) va := rfl
  change (match ({ s with cur := { s.cur with taken := k } } : State).windowVa (s.ctxOf s.cur.core) va with
    | some x => _
    | none => _) = _
  rw [hw]
  cases hx : s.windowVa (s.ctxOf s.cur.core) va with
  | none => rfl
  | some x =>
    obtain ⟨o, pa, b, rfl⟩ := hr x hx
    cases wr <;> rfl

theorem issueFar_commands {q : Nat} {ws : List Nat} (hs : spacious s) (h : pops s q ws u) {atomic : Bool}
    (hok : farWordBad atomic (ws.getD 1 0) = false) {kind : EngKind} {fn p a b n : Nat} (hn : n = ws.length)
    (hr : reachable s (newCmd s kind fn p a b ws).va)
    (wr : Bool) :
    commands (.next (issueFar atomic wr kind fn p a b n q s)) s u kind fn p a b ws := by
  subst hn
  have hu := popped_of_pops h
  have hword : issueFar atomic wr kind fn p a b ws.length q s =
      issueCmd id kind fn p a b (readWords q ws.length s).1
        (windowCheck (newCmd s kind fn p a b (readWords q ws.length s).1).va wr
          ((readWords q ws.length s).2.check (!farWordBad atomic ((readWords q ws.length s).1.getD 1 0)) causeEngineArgument)) := rfl
  rw [hword, readWords_pops h, hok, Bool.not_false, State.check_true, hu.windowCheck hr wr]
  exact hu.atIssue.commands hs kind fn p a b ws

theorem farWordBad_load_false {w : Nat} (hw : w < 2 ^ 45) (h23 : bit w 23 = false) (h37 : fld w 37 8 = 0) :
    farWordBad false w = false := by
  have h45 : bit w 45 = false := by simp only [bit, beq_eq_false_iff_ne]; omega
  have h46 : fld w 46 4 = 0 := by unfold fld; omega
  simp [farWordBad, h23, h37, h45, h46]
  omega

theorem farWordBad_atomic_false {w : Nat} (hw : w < 2 ^ 50) (h23 : bit w 23 = false) (h24 : fld w 24 13 = 0) (h37 : fld w 37 8 = 0)
    (h46 : fld w 46 4 ≤ 9) : farWordBad true w = false := by
  have h10 : ¬ 10 ≤ fld w 46 4 := by omega
  simp [farWordBad, h23, h24, h37, h10]
  exact hw

theorem farAccessesIssue_holds : farAccessesIssue := by
  intro s p a b f q u hs
  refine ⟨fun v w h hw h23 h37 hr => ⟨?_, ?_⟩, fun v w x h hw h23 h24 h37 h46 hr => ?_⟩
  · exact issueFar_commands hs h (farWordBad_load_false hw h23 h37) rfl (by exact hr) false
  · exact issueFar_commands hs h (farWordBad_load_false hw h23 h37) rfl (by exact hr) true
  · exact issueFar_commands hs h (farWordBad_atomic_false hw h23 h24 h37 h46) rfl (by exact hr) true

/-! ### The other engine commands (R243, R253 to R255, R258, R263, R264, R266) -/

/-- Outside a transaction the check of R259 passes. -/
theorem noTx_of (h : outsideTx s) : noTx s = s := by
  unfold noTx
  rw [(txActive_none s).2 h, State.check_true]

theorem issueWords_commands {q : Nat} {ws : List Nat} (hs : spacious s) (hx : outsideTx s) (h : pops s q ws u)
    {ok : List Nat → Bool} (hok : ok ws = true) {kind : EngKind} {fn n : Nat} (p a b : Nat) (hn : n = ws.length) :
    commands (.next (issueWords ok kind fn p a b n q s)) s u kind fn p a b ws := by
  subst hn
  unfold issueWords
  dsimp only
  rw [noTx_of hx, readWords_pops h, hok, State.check_true]
  exact (popped_of_pops h).atIssue.commands hs kind fn p a b ws

/-- A TAKE with its word in order, for the ring and the stream that the state has. -/
theorem execTake_takeFrom {q w : Nat} (hx : outsideTx s) (h : pops s q [w] u) (hw : w < 2 ^ 23) (p a b : Nat) :
    execTake p a b q s = .next (takeFrom s p a b w u) := by
  have hr : readWords q 1 s = ([w], u) := readWords_pops h
  rw [take_next, noTx_of hx, hr]
  simp only [List.getD_cons_zero]
  rw [decide_eq_true hw, State.check_true]

theorem takeFrom_unrecorded (hu : unrecorded s) (p a b w : Nat) (t : State) :
    takeFrom s p a b w t = issueCmd id .take 0 p a b [w] t := by
  unfold takeFrom
  split
  · rfl
  · next k hk =>
    obtain ⟨hrec, hrep⟩ := hu k hk
    rw [hrec, hrep]
    rfl

theorem ckpt_issues (hs : spacious s) (hx : outsideTx s) (p a b : Nat) :
    ∃ t, exec (.ckpt p a b) s = .next t ∧ (t.part s.cur.gpi).ckpt = true ∧
      ∃ c, (t.part s.cur.gpi).cmds = (me s).cmds ++ [c] ∧ c.kind = .ckpt ∧ c.tag = p ∧ c.id = s.nextId := by
  have hc := (Popped.refl s).atIssue.issueCmd_cmds hs id .ckpt 0 p a b []
  have hg := congrArg Cursor.gpi ((Popped.refl s).atIssue.issueCmd_cur hs id .ckpt 0 p a b [])
  refine ⟨_, rfl, ?_⟩
  rw [noTx_of hx, State.updMe, hg, State.part_updPart, if_pos rfl]
  exact ⟨rfl, newCmd s .ckpt 0 p a b [], hc, rfl, rfl, rfl⟩

theorem engineCommandsIssue_holds : engineCommandsIssue := by
  intro s p a b hs
  have one {q w : Nat} {u : State} (hx : outsideTx s) (h : pops s q [w] u) {ok : List Nat → Bool} (hok : ok [w] = true) (kind : EngKind) :=
    issueWords_commands hs hx h hok (kind := kind) (fn := 0) p a b rfl
  have words {v w x : Nat} (hv : v < 2 ^ 56) (hw : w < 2 ^ 46) (hx : x < 2 ^ 56) : rowWordsOk [v, w, x] = true := by
    simp only [rowWordsOk, List.getD_cons_zero, List.getD_cons_succ, Bool.and_eq_true, decide_eq_true_eq]
    exact ⟨⟨hv, hw⟩, hx⟩
  refine ⟨fun f => (Popped.refl s).atIssue.commands hs .drn f p a b [], fun hx q u => ⟨fun w h => ⟨fun hw => ?_, fun hw h32 => ?_,
    fun hw hu => ?_, fun hw h64 => ?_, ?_⟩, fun v w h => ⟨fun hv h16 hw h0 => ?_, fun hw => ?_⟩, fun v w x h hv hw hx' => ⟨?_, ?_⟩⟩,
    fun hx => ckpt_issues hs hx p a b⟩
  · exact one hx h (decide_eq_true hw) .copy
  · exact one hx h (Bool.and_eq_true_iff.2 ⟨decide_eq_true hw, beq_iff_eq.2 h32⟩) .spawn
  · change commands (execTake p a b q s) s u .take 0 p a b [w]
    rw [execTake_takeFrom hx h hw, takeFrom_unrecorded hu]
    exact (popped_of_pops h).atIssue.commands hs .take 0 p a b [w]
  · exact one hx h (Bool.and_eq_true_iff.2 ⟨decide_eq_true hw, beq_iff_eq.2 h64⟩) .join
  · intro e hw hm hfit
    exact one hx h (by simp only [List.getD_cons_zero, Bool.and_eq_true, decide_eq_true_eq, bne_iff_ne]; exact ⟨⟨hw, hm⟩, hfit⟩) .mcst
  · refine issueWords_commands hs hx h ?_ p a b rfl
    simp only [List.getD_cons_zero, List.getD_cons_succ, Bool.and_eq_true, decide_eq_true_eq, beq_iff_eq]
    exact ⟨⟨⟨hv, h16⟩, hw⟩, h0⟩
  · exact issueWords_commands hs hx h (decide_eq_true hw) p a b rfl
  · exact issueWords_commands hs hx h (words hv hw hx') p a b rfl
  · exact issueWords_commands hs hx h (words hv hw hx') p a b rfl

/-! ### Recorded and replayed TAKEs (R263, R308, R309) -/

theorem fld_kind (x : Nat) : fld x 0 4 = x % 16 := by simp [fld]

theorem Popped.nextSeq (h : Popped s u) (k : Nat) : u.nextSeq k = (number s k, numbered u k) := by
  obtain ⟨t, rfl⟩ := h
  rfl

/-- The state of a bundle whose TAKE fails its check (R309). -/
theorem Popped.replay_marks (h : Popped s u) (k : Nat) :
    ((numbered u k).mark causeReplay 0 0).cur.marks = s.cur.marks ++ [⟨s.cur.slot, 0x26, 0, 0⟩] := by
  obtain ⟨t, rfl⟩ := h
  rfl

theorem takeFrom_recording {k : Nat} (hk : s.ctxOf s.cur.core = some k) (hrec : (s.ctx k).recording = true)
    (hrep : (s.ctx k).replaying = false) (p a b w : Nat) (t : State) : takeFrom s p a b w t =
      if s.ringFull k then t.waitIf true
      else issueCmd (fun c => { c with place := ((t.nextSeq k).2.takePlace k).1 }) .take 0 p a b [w, (t.nextSeq k).1]
        ((t.nextSeq k).2.takePlace k).2 := by
  unfold takeFrom
  rw [hk]
  dsimp only
  rw [hrep, hrec]
  rfl

theorem takeFrom_replaying {k : Nat} (hk : s.ctxOf s.cur.core = some k) (hrep : (s.ctx k).replaying = true) (hu : Popped s u)
    (p a b w : Nat) : takeFrom s p a b w u = match s.findEntry k s.cur.gpi (number s k) with
      | none => (numbered u k).mark causeReplay 0 0
      | some e => if fld (e.getD 0 0) 0 4 = 7 then issueCmd id .take 0 p a b (w :: number s k :: e) (numbered u k)
        else (numbered u k).mark causeReplay 0 0 := by
  unfold takeFrom
  rw [hk]
  dsimp only
  rw [hrep, hu.nextSeq k]
  rfl

theorem recordedTakesIssue_holds : recordedTakesIssue := by
  intro s p a b q w u k hs hx h hw hk
  have hu := popped_of_pops h
  have e : exec (.take p a b q) s = .next (takeFrom s p a b w u) := execTake_takeFrom hx h hw p a b
  rw [e]
  refine ⟨fun hrec hrep => ?_, fun hrep => ?_⟩
  · rw [takeFrom_recording hk hrec hrep, hu.nextSeq k]
    refine ⟨fun hf => ?_, fun hf => ?_⟩
    · have hplace : ((numbered u k).takePlace k).1 = (s.ctx k).recNext := by
        obtain ⟨t, rfl⟩ := hu
        simp [State.takePlace, State.ctx, State.updCtx]
      rw [hf, if_neg Bool.false_ne_true]
      dsimp only
      rw [hplace]
      exact ((hu.atIssue.updCtx k _).updCtx k _).commandsAt hs (fun _ => rfl) .take 0 p a b _
    · rw [hf]
      exact ⟨_, rfl, rfl⟩
  · rw [takeFrom_replaying hk hrep hu]
    refine ⟨fun x hx => ⟨fun h7 => ?_, fun h7 => ?_⟩, fun hx => ?_⟩
    · rw [hx]
      dsimp only
      rw [fld_kind, if_pos h7]
      exact (hu.atIssue.updCtx k _).commands hs .take 0 p a b _
    · rw [hx]
      dsimp only
      rw [fld_kind, if_neg h7]
      exact ⟨_, rfl, hu.replay_marks k⟩
    · rw [hx]
      exact ⟨_, rfl, hu.replay_marks k⟩

/-- Settles O25: after its words are read and found in order, the command is the last of its partition's. -/
theorem farAccessesAndEngineCommands : Obligations.FarAccessesAndEngineCommands :=
  ⟨farAccessesIssue_holds, engineCommandsIssue_holds, recordedTakesIssue_holds⟩

/-! ### Table loads (R265) -/

/-- A command as a table load's issue leaves it. -/
theorem issueTable_starts {q w tbl step top : Nat} {busy : Nat → Bool} {p a b : Nat} (hs : spacious s) (hx : outsideTx s)
    (h : pops s q [w] u) (hok : tableWordOk tbl step top w = true) (hb : busy w = false)
    (htags : ∀ g ∈ needs s p a b, (me s).tags.getLsbD g = true) (hacq : (me s).acquiring (me s).bno = false) :
    ∃ t, (.next (issueTable tbl step top busy p a b q s) : Machine.Out) = .next t ∧
      (∃ c, (t.part s.cur.gpi).cmds = (me s).cmds ++ [c] ∧ c.kind = .table ∧ c.fn = tbl ∧ c.tag = p ∧ c.words = [w] ∧
        c.id = s.nextId ∧ c.started = true ∧ c.left = 6) ∧
      t.cur = (inFlight u 6 0 (.table tbl (fld w 36 3) (fld w 23 13) [] p s.nextId)).cur := by
  have hu := popped_of_pops h
  have hset : s.me.tagsSet (consumed s p a b) = true := List.all_eq_true.2 htags
  have hwait : (!s.me.tagsSet (consumed s p a b) || s.me.acquiring s.me.bno) = false := by
    rw [hset]
    exact hacq
  have hr : readWords q 1 s = ([w], u) := readWords_pops h
  refine ⟨_, rfl, ?_⟩
  unfold issueTable
  dsimp only
  rw [noTx_of hx, hr]
  simp only [List.getD_cons_zero]
  unfold tableWordOk at hok
  rw [hb, Bool.not_false, State.check_true, hok, State.check_true, hwait, State.waitIf_false]
  have hc := hu.atIssue.issueCmd_cmds hs (fun c => { c with started := true, looked := true, counting := true, left := 6 }) .table tbl
    p a b [w]
  refine ⟨⟨_, hc, rfl, rfl, rfl, rfl, hu.atIssue.nextId, rfl, rfl⟩, ?_⟩
  rw [hu.atIssue.issueCmd hs]
  obtain ⟨k, rfl⟩ := hu
  rfl

theorem tableWordOk_true {tbl step top w : Nat} (hw : w < 2 ^ 39) (hb : tbl = 0 ∨ fld w 36 3 = 0) (hs : fld w 23 13 % step = 0)
    (ht : fld w 23 13 ≤ top) : tableWordOk tbl step top w = true := by
  simp only [tableWordOk, didx, Bool.and_eq_true, Bool.or_eq_true, decide_eq_true_eq, beq_iff_eq]
  exact ⟨⟨⟨hw, hb⟩, hs⟩, decide_eq_true ht⟩

/-- Settles O27: with its word in order, its tags set and its table idle, a table load waits for nothing. -/
theorem tableLoadsIssue : Obligations.TableLoadsIssue := by
  intro s p a b q w u hs hx h hw htags hacq bank first loads
  have start {tbl step top : Nat} {busy : Nat → Bool} (hok : tableWordOk tbl step top w = true) (hb : busy w = false) :=
    issueTable_starts hs hx h hok hb htags hacq
  refine ⟨fun hf ht hb => start (tableWordOk_true hw (.inl rfl) hf ht) hb, fun hbank => ⟨fun hf ht => ?_, fun hf ht hc => ?_,
    fun hf ht hc => ?_, fun hf ht => ?_⟩⟩
  · exact start (busy := fun _ => false) (tableWordOk_true hw (.inr hbank) hf ht) rfl
  · refine start (tableWordOk_true hw (.inr hbank) hf ht) ?_
    rw [List.any_eq_false]
    intro c hc'
    split
    · next r hr => exact absurd hr (hc c hc' r)
    · exact Bool.false_ne_true
  · refine start (tableWordOk_true hw (.inr hbank) hf ht) ?_
    rw [List.any_eq_false]
    intro c hc'
    split
    · next r hr => exact fun e => Bool.false_ne_true ((hc c hc' r hr).symm.trans e)
    · exact Bool.false_ne_true
  · exact start (busy := fun _ => false) (tableWordOk_true hw (.inr hbank) hf ht) rfl

end Sys2Proof
end

section
/-!
PROOFS. Transactions' marks and buffers, and the slot-2 accesses that perform (O23): what a touch leaves of a transaction, what its
buffer holds, and the bytes that a load finds and a store changes.
-/

/- Elaborated in turn: the many short proofs of this part are not worth the memory of a worker for each. -/
set_option Elab.async false

namespace Sys2Proof

open Sys2Proof.Machine Sys2Proof.Says

variable {p q n : Nat} {o : Owner} {s t u : State} {x y z : Tx}

/-! ### What a touch leaves of transactions (R260) -/

/-- State t is state s but for the transactions of partitions: that of partition p, x before, is y, the same but for its marks and the
cause that dooms it, and all the same where it was doomed before. -/
structure Touched (p : Nat) (x : Tx) (s t : State) (y : Tx) : Prop where
  rest : t = { s with parts := t.parts }
  own : t.part p = { s.part p with tx := some y }
  others : ∀ q, ∃ z, t.part q = { s.part q with tx := z }
  kept : y = { x with code := y.code, va := y.va, marks := y.marks }
  doomed : x.code ≠ 0 → y = x

theorem Touched.refl (h : (s.part p).tx = some x) : Touched p x s s x where
  rest := rfl
  own := by rw [← h]
  others _ := ⟨_, rfl⟩
  kept := rfl
  doomed _ := rfl

theorem Touched.tx (h : Touched p x s t y) : (t.part p).tx = some y := by rw [h.own]

theorem Touched.trans (h : Touched p x s t y) (g : Touched p y t u z) : Touched p x s u z where
  rest := by rw [g.rest, h.rest]
  own := by rw [g.own, h.own]
  others q := by
    obtain ⟨a, ha⟩ := h.others q
    obtain ⟨b, hb⟩ := g.others q
    exact ⟨b, by rw [hb, ha]⟩
  kept := by rw [g.kept, h.kept]
  doomed hx := by
    have e := h.doomed hx
    rw [g.doomed (e ▸ hx), e]

/-- Another partition's transaction replaced. -/
theorem Touched.updOther (h : Touched p x s t y) (hq : q ≠ p) (w : Option Tx) :
    Touched p x s (t.updPart q fun a => { a with tx := w }) y where
  rest := by rw [h.rest]; rfl
  own := by rw [State.part_updPart, if_neg hq.symm, h.own]
  others r := by
    rw [State.part_updPart]
    obtain ⟨a, ha⟩ := h.others r
    split
    · next e => exact ⟨w, by rw [← e, ha]⟩
    · exact ⟨a, ha⟩
  kept := h.kept
  doomed := h.doomed

/-- The transaction's own marks or cause replaced, which a doomed one does not see. -/
theorem Touched.updOwn (h : Touched p x s t x) (hx : x.code = 0) (hy : y = { x with code := y.code, va := y.va, marks := y.marks }) :
    Touched p x s (t.updPart p fun a => { a with tx := some y }) y where
  rest := by rw [h.rest]; rfl
  own := by rw [State.part_updPart, if_pos rfl, h.own]
  others q := by
    rw [State.part_updPart]
    obtain ⟨a, ha⟩ := h.others q
    split
    · next e => exact ⟨some y, by rw [← e, ha]⟩
    · exact ⟨a, ha⟩
  kept := hy
  doomed hn := absurd hx hn

theorem conflictWith_touched (h : Touched p x s t x) (o : Owner) (tile : Nat) (wr : Bool) (q : Nat) :
    Touched p x s (conflictWith p o tile wr t q).1 x := by
  unfold conflictWith
  split
  · exact h
  · split
    · exact h
    · dsimp only
      split_ifs with hq
      · exact h
      · exact h.updOther hq _
      · exact h

theorem conflicts_touched (h : Touched p x s t x) (o : Owner) (tile : Nat) (wr : Bool) (l : List (Nat × Part)) (lost : Bool) :
    Touched p x s (l.foldl (fun a q => ((conflictWith p o tile wr a.1 q.1).1, a.2 || (conflictWith p o tile wr a.1 q.1).2)) (t, lost)).1
      x := by
  induction l generalizing t lost with
  | nil => exact h
  | cons q l ih => exact ih (conflictWith_touched h o tile wr q.1) _

/-- The marks of a transaction with one tile marked, as written where wr says so. -/
def marksWith (x : Tx) (o : Owner) (tile va clock : Nat) (wr : Bool) : List TxMark :=
  if x.marks.any fun m => m.owner == o && m.tile == tile
    then x.marks.map fun m => if m.owner == o && m.tile == tile then { m with wr := m.wr || wr } else m
    else x.marks ++ [⟨o, tile, va, wr, clock⟩]

theorem mem_marksWith (x : Tx) (o : Owner) (tile va clock : Nat) (wr : Bool) :
    ∃ m ∈ marksWith x o tile va clock wr, m.owner = o ∧ m.tile = tile ∧ (wr = true → m.wr = true) := by
  unfold marksWith
  split_ifs with hs
  · obtain ⟨m, hm, he⟩ := List.any_eq_true.1 hs
    obtain ⟨ho, ht⟩ : m.owner = o ∧ m.tile = tile := by simpa using he
    refine ⟨{ m with wr := m.wr || wr }, List.mem_map.2 ⟨m, hm, if_pos he⟩, ho, ht, fun hw => ?_⟩
    simp [hw]
  · exact ⟨_, List.mem_append_right _ (List.mem_singleton_self _), rfl, rfl, id⟩

theorem doom_kept (x : Tx) (c va : Nat) : let y := x.doom c va; y = { x with code := y.code, va := y.va, marks := y.marks } := by
  unfold Tx.doom
  split <;> rfl

theorem doom_code {c : Nat} (hc : x.code = 0) (ha : x.applying = false) (va : Nat) : (x.doom c va).code = c := by
  unfold Tx.doom
  rw [hc, ha]
  rfl

theorem doom_doomed (h : x.code ≠ 0) (c va : Nat) : x.doom c va = x := if_neg (by simp [h])

/-- A transaction that is not doomed after its touch of one tile, which dooms it where the touch loses a conflict or needs a 65th mark. -/
def touchedTile (x : Tx) (o : Owner) (tile va clock : Nat) (wr lost : Bool) : Tx :=
  if lost then x.doom 1 (match x.marks.find? fun m => m.owner == o && m.tile == tile with
    | some m => m.va
    | none => va)
  else if 64 < (marksWith x o tile va clock wr).length then x.doom 3 0
  else { x with marks := marksWith x o tile va clock wr }

theorem touchedTile_kept (x : Tx) (o : Owner) (tile va clock : Nat) (wr lost : Bool) : let y := touchedTile x o tile va clock wr lost
    y = { x with code := y.code, va := y.va, marks := y.marks } := by
  unfold touchedTile
  split_ifs
  · exact doom_kept ..
  · exact doom_kept ..
  · rfl

theorem touchedTile_marks (hc : x.code = 0) (ha : x.applying = false) {o : Owner} {tile va clock : Nat} {wr lost : Bool}
    (hz : (touchedTile x o tile va clock wr lost).code = 0) :
    ∃ m ∈ (touchedTile x o tile va clock wr lost).marks, m.owner = o ∧ m.tile = tile ∧ (wr = true → m.wr = true) := by
  revert hz
  unfold touchedTile
  split_ifs <;> intro hz
  · exact absurd ((doom_code hc ha _).symm.trans hz) (by decide)
  · exact absurd ((doom_code hc ha _).symm.trans hz) (by decide)
  · exact mem_marksWith x o tile va clock wr

/-- The state and the answer that the other partitions' transactions give to a touch of one tile. -/
def conflicts (s : State) (p : Nat) (o : Owner) (tile : Nat) (wr : Bool) : State × Bool :=
  s.parts.foldl (fun a q => ((conflictWith p o tile wr a.1 q.1).1, a.2 || (conflictWith p o tile wr a.1 q.1).2)) (s, false)

theorem txTouch_eq (h : (s.part p).tx = some x) (hc : x.code = 0) (o : Owner) (wr : Bool) (tile va : Nat) :
    txTouch p o wr s tile va = (conflicts s p o tile wr).1.updPart p fun z =>
      { z with tx := some (touchedTile x o tile va s.clock wr (conflicts s p o tile wr).2) } := by
  unfold txTouch
  rw [h]
  exact if_neg (not_not.2 hc)

/-- A touch of one tile: the tile is marked unless the transaction is doomed, by this touch or before. -/
theorem txTouch_touched (h : (s.part p).tx = some x) (o : Owner) (wr : Bool) (tile va : Nat) :
    ∃ y, Touched p x s (txTouch p o wr s tile va) y ∧ (x.applying = false → y.code = 0 →
      ∃ m ∈ y.marks, m.owner = o ∧ m.tile = tile ∧ (wr = true → m.wr = true)) := by
  by_cases hc : x.code = 0
  · rw [txTouch_eq h hc]
    have hr : Touched p x s (conflicts s p o tile wr).1 x := conflicts_touched (.refl h) o tile wr s.parts false
    exact ⟨_, hr.updOwn hc (touchedTile_kept ..), fun ha hz => touchedTile_marks hc ha hz⟩
  · have e : txTouch p o wr s tile va = s := by
      unfold txTouch
      rw [h]
      exact if_pos hc
    rw [e]
    exact ⟨x, .refl h, fun _ hz => absurd hz hc⟩

theorem txTouches_touched (h : (s.part p).tx = some x) (o : Owner) (a va k : Nat) (wr : Bool) :
    ∃ y, Touched p x s (s.txTouches p o a va k wr) y ∧ (0 < k → a % 256 + k ≤ 256 → x.applying = false → y.code = 0 →
      ∃ m ∈ y.marks, m.owner = o ∧ m.tile = a / 256 ∧ (wr = true → m.wr = true)) := by
  by_cases hone : 0 < k ∧ a % 256 + k ≤ 256
  · have e : (a + k - 1) / 256 - a / 256 + 1 = 1 := by omega
    obtain ⟨y, hy, hm⟩ := txTouch_touched h o wr (a / 256) va
    refine ⟨y, ?_, fun _ _ => hm⟩
    unfold State.txTouches
    rw [e]
    exact hy
  · suffices hs : ∀ (l : List Nat) (s : State) (x : Tx), (s.part p).tx = some x → ∃ y, Touched p x s (l.foldl
        (fun t i => txTouch p o wr t (a / 256 + i) (if i = 0 then va else (va + 256 * i) / 256 * 256)) s) y by
      obtain ⟨y, hy⟩ := hs (List.range ((a + k - 1) / 256 - a / 256 + 1)) s x h
      exact ⟨y, hy, fun h0 h1 => absurd ⟨h0, h1⟩ hone⟩
    intro l
    induction l with
    | nil => exact fun s x h => ⟨x, .refl h⟩
    | cons i l ih =>
      intro s x h
      obtain ⟨y, hy, -⟩ := txTouch_touched h o wr (a / 256 + i) (if i = 0 then va else (va + 256 * i) / 256 * 256)
      obtain ⟨z, hz⟩ := ih _ y hy.tx
      exact ⟨z, hy.trans hz⟩

/-! ### What a transaction's buffer holds (R260) -/

theorem Mem.bytes_eq_map (m : Mem) (a k : Nat) : m.bytes a k = (List.range k).map fun i => m.read (a + i) := by
  refine List.ext_getElem (by simp) fun i hi _ => ?_
  rw [Mem.bytes_get m a k i (by simpa using hi), List.getElem_map, List.getElem_range]

/-- Bytes read through a buffer. -/
theorem overlay_bytes (x : Tx) (o : Owner) (m : Mem) (a k : Nat) :
    x.overlay o a (m.bytes a k) = (List.range k).map fun i => throughBuffer x o m (a + i) := by
  unfold Tx.overlay
  refine List.ext_getElem (by simp) fun i hi _ => ?_
  have hk : i < k := by simpa using hi
  rw [List.getElem_map, List.getElem_zipIdx, List.getElem_map, List.getElem_range, Mem.bytes_get m a k i hk, Nat.zero_add]
  rfl

theorem throughBuffer_congr (h : y.buf = x.buf) (o : Owner) (m : Mem) (b : Nat) : throughBuffer y o m b = throughBuffer x o m b := by
  unfold throughBuffer
  rw [h]

/-- The entry of a byte among those of a list of bytes that stand from address a on. -/
theorem find_held (o : Owner) (a b : Nat) (bs : List W8) (j : Nat) :
    ((bs.zipIdx j).map fun e => (⟨o, a + e.2, e.1⟩ : TxByte)).find? (fun t => t.owner == o && t.addr == b) =
      if h : a + j ≤ b ∧ b < a + j + bs.length then some ⟨o, b, bs[b - a - j]'(by omega)⟩ else none := by
  induction bs generalizing j with
  | nil => rw [dif_neg (by rw [List.length_nil]; omega)]; rfl
  | cons v bs ih =>
    rw [List.zipIdx_cons, List.map_cons, List.find?_cons]
    by_cases e : a + j = b
    · subst e
      simp
    · have hn : (o == o && a + j == b) = false := by simp [e]
      dsimp only
      rw [hn]
      dsimp only
      rw [ih (j + 1)]
      by_cases hb : a + j ≤ b ∧ b < a + j + (v :: bs).length
      · have hb' : a + (j + 1) ≤ b ∧ b < a + (j + 1) + bs.length := by
          have := hb.2
          rw [List.length_cons] at this
          omega
        rw [dif_pos hb, dif_pos hb']
        have hi : b - a - j = b - a - (j + 1) + 1 := by omega
        simp only [hi, List.getElem_cons_succ]
      · have hb' : ¬ (a + (j + 1) ≤ b ∧ b < a + (j + 1) + bs.length) := by
          rw [List.length_cons] at hb
          omega
        rw [dif_neg hb, dif_neg hb']

/-- What an owner shows through a buffer that took bytes: those bytes, and else what it showed before. -/
theorem throughBuffer_hold (x : Tx) (o : Owner) (m : Mem) (a : Nat) (bs : List W8) (b : Nat) :
    throughBuffer (x.hold o a bs) o m b = if h : a ≤ b ∧ b < a + bs.length then bs[b - a]'(by omega) else throughBuffer x o m b := by
  unfold throughBuffer Tx.hold
  dsimp only
  rw [List.find?_append, find_held o a b bs 0]
  by_cases hb : a ≤ b ∧ b < a + bs.length
  · have hold : (x.buf.filter fun t => !(t.owner == o && decide (a ≤ t.addr) && decide (t.addr < a + bs.length))).find?
        (fun t => t.owner == o && t.addr == b) = none := by
      refine List.find?_eq_none.2 fun t ht => ?_
      have hn := (List.mem_filter.1 ht).2
      intro he
      obtain ⟨ho, hb'⟩ : t.owner = o ∧ t.addr = b := by simpa using he
      subst hb'
      rw [ho] at hn
      simp [hb] at hn
    rw [hold, Option.none_or, dif_pos (by simpa using hb), dif_pos hb]
    rfl
  · have hold : (x.buf.filter fun t => !(t.owner == o && decide (a ≤ t.addr) && decide (t.addr < a + bs.length))).find?
        (fun t => t.owner == o && t.addr == b) = x.buf.find? fun t => t.owner == o && t.addr == b := by
      rw [List.find?_filter]
      congr 1
      funext t
      by_cases e : t.addr = b
      · subst e
        have hout : (decide (a ≤ t.addr) && decide (t.addr < a + bs.length)) = false := by simpa using hb
        rw [Bool.and_assoc, hout, Bool.and_false, Bool.not_false]
        simp only [true_and, Bool.decide_eq_true]
      · simp [e]
    rw [hold, dif_neg (by simpa using hb), Option.or_none, dif_neg hb]

/-- The same of the low bytes of a number. -/
theorem throughBuffer_hold_number (x : Tx) (o : Owner) (m : Mem) (a k v b : Nat) : throughBuffer (x.hold o a (splitBytes v k)) o m b =
    if a ≤ b ∧ b < a + k then BitVec.ofNat 8 (v / 2 ^ (8 * (b - a))) else throughBuffer x o m b := by
  rw [throughBuffer_hold]
  by_cases hb : a ≤ b ∧ b < a + k
  · rw [dif_pos (by simpa using hb), if_pos hb, splitBytes_get v k (b - a) (by omega)]
  · rw [dif_neg (by simpa using hb), if_neg hb]

/-! ### Landings filled (R231) -/

theorem fillLanding_eq (n : Nat) (x : NearAccess) (act : LandAct) (s : State) : fillLanding n x act s =
    withCore s n fun c => { c with pend := c.pend.map fun l =>
      if l.gpi = x.gpi ∧ l.slot = x.slot ∧ l.issued = x.issued then { l with act := act } else l } := by
  unfold fillLanding State.updCore
  simp only [Bool.and_eq_true, decide_eq_true_eq, and_assoc]
  rfl

theorem low_natCast (n x : Nat) : low n (x : Int) = x % 2 ^ n := by
  have h := low_cast n (x : Int)
  exact_mod_cast h

theorem atomicNew_eq (o bits y v : Nat) : atomicNew o bits y v = atomic o bits y v := by
  unfold atomicNew atomic
  simp only [low_natCast, ← Nat.cast_add, ← Nat.cast_min, ← Nat.cast_max, ← Nat.cast_ite]
  match o with
  | 0 | 1 | 2 | 3 | 4 | 5 | 6 | 7 => exact low_natCast ..
  | _ + 8 => exact (low_natCast ..).trans (by simp)

/-! ### Through a transaction's buffer (R260) -/

/-- State t is state s after an access of core n in which partition p's transaction, y before, is z: no byte of an owner has changed,
and of the cores only n, in the landings that it fills. -/
structure BufferedOn (n p : Nat) (y : Tx) (s t : State) (z : Tx) : Prop where
  near : (t.core n).near = (s.core n).near
  slice : (t.core n).slice = (s.core n).slice
  hbm : t.hbm = s.hbm
  cores : ∀ m, m ≠ n → t.core m = s.core m
  tx : (t.part p).tx = some z
  no : z.no = y.no
  gone : z.gone = y.gone
  doomed : y.code ≠ 0 → z.code = y.code ∧ z.marks = y.marks

theorem Touched.bufferedOn (h : Touched p y s t z) (n : Nat) : BufferedOn n p y s t z := by
  have hc : t.cores = s.cores := by rw [h.rest]
  have hcore : ∀ m, t.core m = s.core m := fun m => by unfold State.core; rw [hc]
  exact {
    near := by rw [hcore]
    slice := by rw [hcore]
    hbm := by rw [h.rest]
    cores := fun m _ => hcore m
    tx := h.tx
    no := by rw [h.kept]
    gone := by rw [h.kept]
    doomed := fun hy => by rw [h.doomed hy]; exact ⟨rfl, rfl⟩ }

/-- Bytes put in the buffer. -/
theorem BufferedOn.hold (h : BufferedOn n p y s t z) (o : Owner) (a : Nat) (bs : List W8) :
    BufferedOn n p y s (t.updPart p fun w => { w with tx := w.tx.map fun x => x.hold o a bs }) (z.hold o a bs) :=
  { h with tx := by rw [State.part_updPart, if_pos rfl, h.tx]; rfl }

/-- A change of core n that leaves its slice and the accesses listed. -/
theorem BufferedOn.updCore (h : BufferedOn n p y s t z) {f : Core → Core} (hn : ∀ c, (f c).near = c.near) (hs : ∀ c, (f c).slice = c.slice) :
    BufferedOn n p y s (t.updCore n f) z :=
  { h with
    near := by rw [State.core_updCore, if_pos rfl, hn, h.near]
    slice := by rw [State.core_updCore, if_pos rfl, hs, h.slice]
    cores := fun m hm => by rw [State.core_updCore, if_neg hm, h.cores m hm] }

theorem BufferedOn.fillLanding (h : BufferedOn n p y s t z) (x : NearAccess) (act : LandAct) :
    BufferedOn n p y s (Machine.fillLanding n x act t) z := h.updCore (fun _ => rfl) fun _ => rfl

theorem BufferedOn.weigh (h : BufferedOn n p y s t z) (w : Nat) : BufferedOn n p y s (t.weigh n w) z :=
  h.updCore (fun _ => rfl) fun _ => rfl

theorem txActive_some (h : (s.part p).tx = some y) (hg : y.gone = false) : (s.part p).txActive = some y := by
  unfold Part.txActive
  rw [h, Option.filter_some, hg]
  rfl

theorem sliceRead_touches (h : (s.part p).tx = some y) (hg : y.gone = false) (n a k : Nat) : sliceRead n p a k s =
    (joinBytes ((List.range k).map fun i => throughBuffer y (.slice n) (s.core n).slice (a + i)),
      s.txTouches p (.slice n) a (windowBase + n * 2 ^ 23 + a) k false) := by
  unfold sliceRead
  rw [txActive_some h hg]
  exact congrArg (fun l => (joinBytes l, _)) (overlay_bytes y (.slice n) (s.core n).slice a k)

theorem sliceWrite_touches (h : (s.part p).tx = some y) (hg : y.gone = false) (n a k v : Nat) : sliceWrite n p a k v s =
    (s.txTouches p (.slice n) a (windowBase + n * 2 ^ 23 + a) k true).updPart p fun z =>
      { z with tx := z.tx.map fun x => x.hold (.slice n) a (splitBytes v k) } := by
  unfold sliceWrite
  rw [txActive_some h hg]

/-- The tile of an access marked in a transaction, unless the transaction is doomed (R260). -/
def TileMark (n : Nat) (y z : Tx) (a k : Nat) (wr : Bool) : Prop := a % 256 + k ≤ 256 → y.applying = false → z.code = 0 →
  ∃ m ∈ z.marks, m.owner = .slice n ∧ m.tile = a / 256 ∧ (wr = true → m.wr = true)

/-- State t is state s with the landing that access x fills holding act. -/
def Fills (n : Nat) (x : NearAccess) (act : LandAct) (s t : State) : Prop := (t.core n).pend = (s.core n).pend.map fun l =>
  if l.gpi = x.gpi ∧ l.slot = x.slot ∧ l.issued = x.issued then { l with act := act } else l

theorem weigh_pend (t : State) (n w : Nat) : ((t.weigh n w).core n).pend = (t.core n).pend := by
  rw [State.weigh, State.core_updCore, if_pos rfl]

theorem fills_fillLanding {x : NearAccess} (n : Nat) (act : LandAct) (hp : (t.core n).pend = (s.core n).pend) (w : Nat) :
    Fills n x act s ((fillLanding n x act t).weigh n w) := by
  unfold Fills State.weigh
  rw [fillLanding_eq, State.core_updCore, if_pos rfl, core_withCore, hp]

/-- A read through the buffer: what it finds, and the state that it leaves. -/
theorem sliceRead_buffered (h : (s.part p).tx = some y) (hg : y.gone = false) (n a k : Nat) : ∃ t z,
    sliceRead n p a k s = (joinBytes ((List.range k).map fun i => throughBuffer y (.slice n) (s.core n).slice (a + i)), t) ∧
      Touched p y s t z ∧ (0 < k → TileMark n y z a k false) := by
  obtain ⟨z, hz, hm⟩ := txTouches_touched h (.slice n) a (windowBase + n * 2 ^ 23 + a) k false
  exact ⟨_, z, sliceRead_touches h hg n a k, hz, hm⟩

/-- A write into the buffer, after a touch that leaves transaction y as z. -/
theorem sliceWrite_buffered (h : Touched p y s t z) (hg : y.gone = false) (n a k v : Nat) : ∃ w,
    BufferedOn n p y s (sliceWrite n p a k v t) w ∧ (0 < k → TileMark n y w a k true) ∧
      ((sliceWrite n p a k v t).core n).pend = (s.core n).pend ∧ ∀ b, throughBuffer w (.slice n) (s.core n).slice b =
        if a ≤ b ∧ b < a + k then BitVec.ofNat 8 (v / 2 ^ (8 * (b - a))) else throughBuffer y (.slice n) (s.core n).slice b := by
  have hgz : z.gone = false := by rw [h.kept]; exact hg
  have haz : z.applying = y.applying := by rw [h.kept]
  obtain ⟨x, hx, hm⟩ := txTouches_touched h.tx (.slice n) a (windowBase + n * 2 ^ 23 + a) k true
  have hxy := h.trans hx
  rw [sliceWrite_touches h.tx hgz]
  refine ⟨_, (hxy.bufferedOn n).hold .., fun hk h1 h2 h3 => hm hk h1 (haz.trans h2) h3, ?_, fun b => ?_⟩
  · rw [State.core_updPart, State.core, State.core, hxy.rest]
  · rw [throughBuffer_hold_number, throughBuffer_congr (x := y) (by rw [hxy.kept])]

theorem Touched.pend (h : Touched p x s t y) (n : Nat) : (t.core n).pend = (s.core n).pend := by
  rw [State.core, State.core, h.rest]

theorem Touched.throughBuffer (h : Touched p x s t y) (o : Owner) (m : Mem) (b : Nat) :
    Says.throughBuffer y o m b = Says.throughBuffer x o m b := throughBuffer_congr (by rw [h.kept]) o m b

/-- What an access of a load's form leaves: the tile marked, no byte of the buffer changed, its landing filled. -/
theorem load_buffered {x : NearAccess} (h : (s.part x.gpi).tx = some y) (hg : y.gone = false) (n a k : Nat) (act : Nat → LandAct) :
    ∃ t z v, v = joinBytes ((List.range k).map fun i => throughBuffer y (.slice n) (s.core n).slice (a + i)) ∧
      t = (fillLanding n x (act (sliceRead n x.gpi a k s).1) (sliceRead n x.gpi a k s).2).weigh n 3 ∧ BufferedOn n x.gpi y s t z ∧
      (∀ b, throughBuffer z (.slice n) (s.core n).slice b = throughBuffer y (.slice n) (s.core n).slice b) ∧
      (0 < k → TileMark n y z a k false) ∧ Fills n x (act v) s t := by
  obtain ⟨t, z, hr, hz, hm⟩ := sliceRead_buffered h hg n a k
  rw [hr]
  exact ⟨_, z, _, rfl, rfl, ((hz.bufferedOn n).fillLanding x _).weigh 3, hz.throughBuffer _ _, hm,
    fills_fillLanding n _ (hz.pend n) 3⟩

theorem core_withCore_other (s : State) {m : Nat} (f : Core → Core) (hm : m ≠ n) : (withCore s n f).core m = s.core m :=
  Cells.get_put_other _ _ _ _ _ hm

section

variable {g sl iss q k op a v w i j : Nat}

theorem perform_load {sx : Bool} (hr : sliceRead n g a k s = (w, t)) : perform n ⟨g, sl, iss, .load q k sx a⟩ s =
    fillLanding n ⟨g, sl, iss, .load q k sx a⟩
      (.spush q (if sx then BitVec.ofInt 64 (sgn (8 * k) w) else BitVec.ofNat 64 w)) t := by
  unfold perform
  dsimp only
  rw [hr]

theorem perform_loadV (hr : sliceRead n g a 128 s = (w, t)) : perform n ⟨g, sl, iss, .loadV q a⟩ s =
    fillLanding n ⟨g, sl, iss, .loadV q a⟩ (.vpush q (BitVec.ofNat 1024 w)) t := by
  unfold perform
  dsimp only
  rw [hr]

theorem perform_loadT (hr : sliceRead n g a 128 s = (w, t)) : perform n ⟨g, sl, iss, .loadT i j a⟩ s =
    fillLanding n ⟨g, sl, iss, .loadT i j a⟩ (.tileRow i j (BitVec.allOnes 1024) (BitVec.ofNat 1024 w)) t := by
  unfold perform
  dsimp only
  rw [hr]

theorem perform_atomic (hr : sliceRead n g a k s = (w, t)) : perform n ⟨g, sl, iss, .atomic q k op a v⟩ s =
    fillLanding n ⟨g, sl, iss, .atomic q k op a v⟩ (.spush q (BitVec.ofNat 64 w)) (sliceWrite n g a k (atomic op (8 * k) w v) t) := by
  unfold perform
  dsimp only
  rw [hr, atomicNew_eq]

theorem perform_cas (hr : sliceRead n g a 4 s = (w, t)) : perform n ⟨g, sl, iss, .cas q a v⟩ s =
    fillLanding n ⟨g, sl, iss, .cas q a v⟩ (.spush q (BitVec.ofNat 64 w))
      (if w = v % 2 ^ 32 then sliceWrite n g a 4 (v / 2 ^ 32) t else t) := by
  unfold perform
  dsimp only
  rw [hr]

end

/-- The oldest listed access performs, in the state that lists it no more. -/
theorem slot2Perform_next {x : NearAccess} {r : List NearAccess} (h : (s.core n).near = x :: r) :
    exec (.slot2Perform n) s = .next ((perform n x (withCore s n fun c => { c with near := r })).weigh n 3) := by
  change execSlot2Perform n s = _
  unfold execSlot2Perform
  rw [h]
  rfl

theorem bufferedAccess_holds {x : NearAccess} {r : List NearAccess} (hn : (s.core n).near = x :: r) (hy : (s.part x.gpi).tx = some y)
    (hg : y.gone = false) : bufferedAccess s n x r y := by
  let s' := withCore s n fun c => { c with near := r }
  have hc : s'.core n = { s.core n with near := r } := core_withCore s n _
  have hslice : (s'.core n).slice = (s.core n).slice := by rw [hc]
  have hpend : (s'.core n).pend = (s.core n).pend := by rw [hc]
  have frame {t : State} {z : Tx} {P : State → Tx → Prop} (e : t = (perform n x s').weigh n 3) (h : BufferedOn n x.gpi y s' t z)
      (hP : P t z) : ∃ t z, exec (.slot2Perform n) s = .next t ∧ (t.core n).near = r ∧ (t.core n).slice = (s.core n).slice ∧
        t.hbm = s.hbm ∧ (∀ m, m ≠ n → t.core m = s.core m) ∧ (t.part x.gpi).tx = some z ∧ z.no = y.no ∧ z.gone = false ∧
        (y.code ≠ 0 → z.code = y.code ∧ z.marks = y.marks) ∧ P t z :=
    ⟨t, z, (slot2Perform_next hn).trans (congrArg _ e.symm), by rw [h.near, hc], h.slice.trans hslice, h.hbm,
      fun m hm => (h.cores m hm).trans (core_withCore_other s _ hm), h.tx, h.no, h.gone.trans hg, h.doomed, hP⟩
  have load (a k : Nat) (act : Nat → LandAct) := load_buffered (x := x) (s := s') hy hg n a k act
  have write {t : State} {w : Tx} (h : Touched x.gpi y s' t w) (a k v : Nat) := sliceWrite_buffered h hg n a k v
  have read (a k : Nat) := sliceRead_buffered (s := s') hy hg n a k
  have hf {t : State} (act : LandAct) (hp : (t.core n).pend = (s.core n).pend) := fills_fillLanding (x := x) n act hp 3
  simp only [Fills, hslice, hpend] at load write read
  obtain ⟨g, sl, iss, acc⟩ := x
  cases acc with
  | load q k sx a =>
    obtain ⟨t, z, v, rfl, ht, hb, hz, hm, hf⟩ := load a k fun v =>
      .spush q (if sx then BitVec.ofInt 64 (sgn (8 * k) v) else BitVec.ofNat 64 v)
    refine frame ht hb ⟨?_, nofun, nofun, nofun, nofun, nofun⟩
    rintro _ _ _ _ ⟨⟩ hk
    exact ⟨hz, hm hk, hf⟩
  | loadV q a =>
    obtain ⟨t, z, v, hv, ht, hb, hz, hm, hf⟩ := load a 128 fun v => .vpush q (BitVec.ofNat 1024 v)
    rw [hv] at hf
    refine frame ht hb ⟨nofun, ?_, nofun, nofun, nofun, nofun⟩
    rintro _ _ ⟨⟩
    exact ⟨hz, hm (by omega), hf⟩
  | loadT i j a =>
    obtain ⟨t, z, v, hv, ht, hb, hz, hm, hf⟩ := load a 128 fun v => .tileRow i j (BitVec.allOnes 1024) (BitVec.ofNat 1024 v)
    rw [hv] at hf
    refine frame ht hb ⟨nofun, nofun, ?_, nofun, nofun, nofun⟩
    rintro _ _ _ ⟨⟩
    exact ⟨hz, hm (by omega), hf⟩
  | store a k v =>
    obtain ⟨z, hb, hm, hp, hz⟩ := write (.refl hy) a k v
    refine frame rfl (hb.weigh 3) ⟨nofun, nofun, nofun, ?_, nofun, nofun⟩
    rintro _ _ _ ⟨⟩
    exact ⟨⟨hz, hm⟩, (weigh_pend ..).trans hp⟩
  | atomic q k o a v =>
    obtain ⟨t, w, hr, hw, -⟩ := read a k
    obtain ⟨z, hb, hm, hp, hz⟩ := write hw a k _
    refine frame (congrArg (State.weigh n 3) (perform_atomic hr)).symm ((hb.fillLanding _ _).weigh 3)
      ⟨nofun, nofun, nofun, nofun, ?_, nofun⟩
    rintro _ _ _ _ _ ⟨⟩
    exact ⟨⟨hz, hm⟩, hf _ hp⟩
  | cas q a v =>
    obtain ⟨t, w, hr, hw, hmark⟩ := read a 4
    have hc := congrArg (State.weigh n 3) (perform_cas (sl := sl) (iss := iss) (q := q) (v := v) hr)
    by_cases heq : joinBytes ((List.range 4).map fun i => throughBuffer y (.slice n) (s.core n).slice (a + i)) = v % 2 ^ 32
    · obtain ⟨z, hb, hm, hp, hz⟩ := write hw a 4 (v / 2 ^ 32)
      rw [if_pos heq] at hc
      refine frame hc.symm ((hb.fillLanding _ _).weigh 3) ⟨nofun, nofun, nofun, nofun, nofun, ?_⟩
      rintro _ _ _ ⟨⟩
      exact ⟨fun _ => ⟨hz, hm⟩, fun hn => absurd heq hn, hf _ hp⟩
    · rw [if_neg heq] at hc
      refine frame hc.symm (((hw.bufferedOn n).fillLanding _ _).weigh 3) ⟨nofun, nofun, nofun, nofun, nofun, ?_⟩
      rintro _ _ _ ⟨⟩
      exact ⟨fun he => absurd he heq, fun _ => ⟨hw.throughBuffer _ _, hmark (by omega)⟩, hf _ ((hw.pend n).trans hpend)⟩

/-! ### Outside a transaction (R231, R234) -/

theorem logWrite_cores (k : Option Nat) (o : Owner) (a n : Nat) (s : State) : (s.logWrite k o a n).cores = s.cores := by
  have entry (k : Nat) (key : Option Nat × Nat) (s : State) : (logEntry k key s).cores = s.cores := by
    unfold logEntry
    dsimp only
    split_ifs <;> rfl
  have line (s : State) (l : Nat) : (logLine k s l).cores = s.cores := foldl_keeps _ State.cores (fun s j => entry j (none, l) s) _ _
  unfold State.logWrite
  split
  · exact foldl_keeps _ State.cores line _ _
  · exact foldl_keeps _ State.cores (fun s key => entry _ key s) _ _
  · rfl

/-- A write outside any transaction changes of the cores only its slice. -/
theorem wr_slice (k e : Option Nat) (a : Nat) (bs : List W8) (s : State) (m : Nat) : (s.wr k e (.slice n) a bs).core m =
    (withCore s n fun c => { c with slice := c.slice.writeBytes a bs }).core m := by
  unfold State.wr
  split
  · next hb =>
    rw [List.isEmpty_iff.1 hb]
    by_cases hm : m = n
    · subst hm
      rw [core_withCore]
      rfl
    · rw [core_withCore_other s _ hm]
  · have hc : ∀ m, ((s.logWrite k (.slice n) a bs.length).doomWrite e (.slice n) a bs.length).core m = s.core m := fun m => by
      rw [State.core, State.doomWrite, logWrite_cores]
      rfl
    unfold State.poke
    dsimp only [hartPa, State.setMem, State.mem]
    by_cases hm : m = n
    · subst hm
      rw [State.core_updCore, if_pos rfl, core_withCore, hc]
    · rw [State.core_updCore, if_neg hm, core_withCore_other s _ hm, hc]

theorem txActive_of_outside (h : outsideTransaction (s.part p)) : (s.part p).txActive = none := by
  unfold Part.txActive
  rw [Option.filter_eq_none_iff]
  intro x hx
  rw [h x hx]
  decide

theorem sliceRead_outside (h : outsideTransaction (s.part p)) (n a k : Nat) : sliceRead n p a k s = ((s.core n).slice.readN a k, s) := by
  unfold sliceRead
  rw [txActive_of_outside h]
  rfl

theorem sliceWrite_outside (h : outsideTransaction (s.part p)) (n a k v m : Nat) : (sliceWrite n p a k v s).core m =
    (withCore s n fun c => { c with slice := c.slice.writeBytes a (splitBytes v k) }).core m := by
  unfold sliceWrite
  rw [txActive_of_outside h]
  exact wr_slice ..

/-- What a memory reads after a number is written into it. -/
theorem Mem.read_writeBytes_number {m : Mem} (hw : m.wf) (a k v b : Nat) : (m.writeBytes a (splitBytes v k)).read b =
    if a ≤ b ∧ b < a + k then BitVec.ofNat 8 (v / 2 ^ (8 * (b - a))) else m.read b := by
  by_cases hb : a ≤ b ∧ b < a + k
  · have h := Mem.read_writeBytes_in m a (b - a) (splitBytes v k) hw (by rw [splitBytes_length]; omega)
    rw [Nat.add_sub_cancel' hb.1, splitBytes_get v k (b - a) (by omega)] at h
    rw [if_pos hb, h]
  · rw [if_neg hb, Mem.read_writeBytes_other m a b _ hw (by rw [splitBytes_length]; omega)]

/-- State t is state s after an access of core n that leaves its slice as m: of the cores only n has changed, in its slice and in the
landings that the access fills. -/
structure SlicedOn (n : Nat) (s t : State) (m : Mem) : Prop where
  near : (t.core n).near = (s.core n).near
  slice : (t.core n).slice = m
  cores : ∀ k, k ≠ n → t.core k = s.core k

theorem SlicedOn.refl (n : Nat) (s : State) : SlicedOn n s s (s.core n).slice := ⟨rfl, rfl, fun _ _ => rfl⟩

theorem SlicedOn.updCore {m : Mem} (h : SlicedOn n s t m) {f : Core → Core} (hn : ∀ c, (f c).near = c.near) (hs : ∀ c, (f c).slice = c.slice) :
    SlicedOn n s (t.updCore n f) m where
  near := by rw [State.core_updCore, if_pos rfl, hn, h.near]
  slice := by rw [State.core_updCore, if_pos rfl, hs, h.slice]
  cores k hk := by rw [State.core_updCore, if_neg hk, h.cores k hk]

theorem SlicedOn.weigh {m : Mem} (h : SlicedOn n s t m) (w : Nat) : SlicedOn n s (t.weigh n w) m :=
  h.updCore (fun _ => rfl) fun _ => rfl

theorem SlicedOn.fillLanding {m : Mem} (h : SlicedOn n s t m) (x : NearAccess) (act : LandAct) : SlicedOn n s (Machine.fillLanding n x act t) m :=
  h.updCore (fun _ => rfl) fun _ => rfl

theorem sliceWrite_slicedOn (h : outsideTransaction (s.part p)) (n a k v : Nat) :
    SlicedOn n s (sliceWrite n p a k v s) ((s.core n).slice.writeBytes a (splitBytes v k)) where
  near := by rw [sliceWrite_outside h, core_withCore]
  slice := by rw [sliceWrite_outside h, core_withCore]
  cores m hm := by rw [sliceWrite_outside h, core_withCore_other s _ hm]

theorem sliceWrite_pend (h : outsideTransaction (s.part p)) (n a k v : Nat) :
    ((sliceWrite n p a k v s).core n).pend = (s.core n).pend := by rw [sliceWrite_outside h, core_withCore]

/-- Settles O23: inside a transaction the access goes through its buffer and its touches, outside one it is a read or a write of the
slice's bytes. -/
theorem slotTwoAccessPerforms : Obligations.SlotTwoAccessPerforms := by
  refine ⟨fun s n x r y hn hy hg => bufferedAccess_holds hn hy hg, fun s n x r hn hx hw => ?_⟩
  let s' := withCore s n fun c => { c with near := r }
  have hc : s'.core n = { s.core n with near := r } := core_withCore s n _
  have hslice : (s'.core n).slice = (s.core n).slice := by rw [hc]
  have hpend : (s'.core n).pend = (s.core n).pend := by rw [hc]
  have frame {t : State} {m : Mem} {P : State → Prop} (e : t = (perform n x s').weigh n 3) (h : SlicedOn n s' t m) (hP : P t) :
      ∃ t, exec (.slot2Perform n) s = .next t ∧ (t.core n).near = r ∧ (∀ m, m ≠ n → t.core m = s.core m) ∧ P t :=
    ⟨t, (slot2Perform_next hn).trans (congrArg _ e.symm), by rw [h.near, hc],
      fun m hm => (h.cores m hm).trans (core_withCore_other s _ hm), hP⟩
  have read (a k : Nat) := sliceRead_outside (s := s') hx n a k
  have write (a k v : Nat) := sliceWrite_slicedOn (s := s') hx n a k v
  have pend (a k v : Nat) := sliceWrite_pend (s := s') hx n a k v
  have hf {t : State} (act : LandAct) (hp : (t.core n).pend = (s.core n).pend) := fills_fillLanding (x := x) n act hp 3
  have stays := SlicedOn.refl n s'
  simp only [Fills, hslice, hpend] at hf read write pend stays
  have loaded (act : LandAct) := (stays.fillLanding x act).weigh 3
  have wrote {t : State} {a k v : Nat} (h : SlicedOn n s' t ((s.core n).slice.writeBytes a (splitBytes v k))) (b : Nat) :
      (t.core n).slice.read b = if a ≤ b ∧ b < a + k then BitVec.ofNat 8 (v / 2 ^ (8 * (b - a))) else (s.core n).slice.read b := by
    rw [h.slice, Mem.read_writeBytes_number hw]
  obtain ⟨g, sl, iss, acc⟩ := x
  cases acc with
  | load q k sx a =>
    refine frame (congrArg (State.weigh n 3) (perform_load (read a k))).symm (loaded _) ⟨?_, nofun, nofun, nofun, nofun, nofun⟩
    rintro _ _ _ _ ⟨⟩
    exact ⟨(loaded _).slice, hf _ hpend⟩
  | loadV q a =>
    refine frame (congrArg (State.weigh n 3) (perform_loadV (read a 128))).symm (loaded _) ⟨nofun, ?_, nofun, nofun, nofun, nofun⟩
    rintro _ _ ⟨⟩
    exact ⟨(loaded _).slice, hf _ hpend⟩
  | loadT i j a =>
    refine frame (congrArg (State.weigh n 3) (perform_loadT (read a 128))).symm (loaded _) ⟨nofun, nofun, ?_, nofun, nofun, nofun⟩
    rintro _ _ _ ⟨⟩
    exact ⟨(loaded _).slice, hf _ hpend⟩
  | store a k v =>
    have h := (write a k v).weigh 3
    refine frame rfl h ⟨nofun, nofun, nofun, ?_, nofun, nofun⟩
    rintro _ _ _ ⟨⟩
    exact ⟨wrote h, (weigh_pend ..).trans (pend a k v)⟩
  | atomic q k o a v =>
    have h := ((write a k (atomic o (8 * k) ((s.core n).slice.readN a k) v)).fillLanding ⟨g, sl, iss, .atomic q k o a v⟩
      (.spush q (BitVec.ofNat 64 ((s.core n).slice.readN a k)))).weigh 3
    refine frame (congrArg (State.weigh n 3) (perform_atomic (read a k))).symm h ⟨nofun, nofun, nofun, nofun, ?_, nofun⟩
    rintro _ _ _ _ _ ⟨⟩
    exact ⟨wrote h, hf _ (pend ..)⟩
  | cas q a v =>
    have hc := congrArg (State.weigh n 3) (perform_cas (sl := sl) (iss := iss) (q := q) (v := v) (read a 4))
    by_cases heq : (s.core n).slice.readN a 4 = v % 2 ^ 32
    · rw [if_pos heq] at hc
      have h := ((write a 4 (v / 2 ^ 32)).fillLanding ⟨g, sl, iss, .cas q a v⟩
        (.spush q (BitVec.ofNat 64 ((s.core n).slice.readN a 4)))).weigh 3
      refine frame hc.symm h ⟨nofun, nofun, nofun, nofun, nofun, ?_⟩
      rintro _ _ _ ⟨⟩
      exact ⟨fun _ => wrote h, fun hn => absurd heq hn, hf _ (pend ..)⟩
    · rw [if_neg heq] at hc
      refine frame hc.symm (loaded _) ⟨nofun, nofun, nofun, nofun, nofun, ?_⟩
      rintro _ _ _ ⟨⟩
      exact ⟨fun he => absurd he heq, fun _ => (loaded _).slice, hf _ hpend⟩

end Sys2Proof
end

section
/-!
PROOFS. Tags and transactions (O35): the tag instructions, the instructions that open and end a transaction, the accesses that one
buffers, and its commit.
-/

/- Elaborated in turn: the many short proofs of this part are not worth the memory of a worker for each. -/
set_option Elab.async false

namespace Sys2Proof

open Sys2Proof.Machine Sys2Proof.Says

variable {s t u : State} {x y z : Tx}

/-! ### Tag instructions (R256) -/

/-- The number of the lowest set bit, or 64 where there is none. -/
theorem intCtz_lowest (x : W64) : (intCtz x).toNat ≤ 64 ∧ (∀ i, i < (intCtz x).toNat → x.getLsbD i = false) ∧
    ((intCtz x).toNat < 64 → x.getLsbD (intCtz x).toNat = true) := by
  unfold intCtz
  cases h : (List.range 64).find? fun i => x.getLsbD i with
  | none =>
    have hn := List.find?_range_eq_none.1 h
    have e : (BitVec.ofNat 64 ((none : Option Nat).getD 64)).toNat = 64 := rfl
    rw [e]
    exact ⟨Nat.le_refl _, fun i hi => by simpa using hn i hi, fun h => absurd h (Nat.lt_irrefl _)⟩
  | some k =>
    obtain ⟨hk, hmem, hlow⟩ := List.find?_range_eq_some.1 h
    have hlt : k < 64 := List.mem_range.1 hmem
    have e : (BitVec.ofNat 64 ((some k).getD 64)).toNat = k := by
      rw [Option.getD_some, BitVec.toNat_ofNat]
      exact Nat.mod_eq_of_lt (by omega)
    rw [e]
    exact ⟨hlt.le, fun i hi => by simpa using hlow i hi, fun _ => hk⟩

theorem waitIf_eq {p : Prop} [Decidable p] {b : Bool} (h : b = true ↔ p) (s : State) :
    s.waitIf b = if p then { s with cur := { s.cur with wait := true } } else s := by
  unfold State.waitIf
  by_cases hp : p
  · rw [if_pos hp, if_pos (h.2 hp)]
    rfl
  · rw [if_neg hp, if_neg fun hb => hp (h.1 hb)]

theorem tagInstructions_hold : tagInstructions := by
  intro s a k x u hx
  have hr : readS a k s = (x, u) := readS_source hx
  refine ⟨?_, ?_, fun d => ⟨intCtz ((me s).tags &&& x), ?_, intCtz_lowest _⟩, ?_⟩
  · change execTwany a k s = _
    unfold execTwany
    rw [hr]
    exact congrArg _ (waitIf_eq (by rw [Bool.and_eq_true, bne_iff_ne, beq_iff_eq]; exact Iff.rfl) u)
  · change execTwall a k s = _
    unfold execTwall
    rw [hr]
    refine congrArg _ ((waitIf_eq (p := ¬ (me s).tags &&& x = x) (by rw [bne_iff_ne]; exact Iff.rfl) u).trans ?_)
    split_ifs <;> rfl
  · change execTfind d a k s = _
    unfold execTfind
    rw [hr]
    rfl
  · change execTclr a k s = _
    unfold execTclr
    rw [hr]
    rfl

/-! ### Transaction instructions (R259, R260) -/

theorem AtIssue.issueCmd_tx (h : AtIssue s t) (hs : spacious s) (f : Cmd → Cmd) (kind : EngKind) (fn p a b : Nat) (ws : List Nat) :
    ((Machine.issueCmd f kind fn p a b ws t).part s.cur.gpi).tx = (Says.me s).tx := by
  rw [h.issueCmd hs, ← h.gpi]
  have hme : (Says.me s).tx = t.me.tx := congrArg Part.tx h.me.symm
  rw [hme]
  simp only [State.part, Cells.get_put_self]
  rfl

/-- The state after the issue of TXB or TXA: a brief command stands last of its partition's, whose transaction is g of the one before. -/
theorem brief_issues (hs : spacious s) (kind : EngKind) (p a b : Nat) (g : Part → Option Tx) (hg : ∀ x y : Part, x.tx = y.tx → g x = g y) :
    let t := (issueCmd Cmd.brief kind 0 p a b [] s).updMe fun x => { x with tx := g x }
    t.cur = s.cur ∧ (t.part s.cur.gpi).tx = g (me s) ∧
      ∃ c, (t.part s.cur.gpi).cmds = (me s).cmds ++ [c] ∧ c.kind = kind ∧ c.tag = p ∧ c.started = true ∧ c.left = 1 := by
  intro t
  have hi : AtIssue s s := (Popped.refl s).atIssue
  have hcur := hi.issueCmd_cur hs Cmd.brief kind 0 p a b []
  have ht : t.part s.cur.gpi = { (issueCmd Cmd.brief kind 0 p a b [] s).part s.cur.gpi with
      tx := g ((issueCmd Cmd.brief kind 0 p a b [] s).part s.cur.gpi) } := by
    change (State.updPart _ (issueCmd Cmd.brief kind 0 p a b [] s).cur.gpi _).part s.cur.gpi = _
    rw [hcur, State.part_updPart, if_pos rfl]
  refine ⟨hcur, ?_, Cmd.brief (newCmd s kind 0 p a b []), ?_, rfl, rfl, rfl, rfl⟩
  · rw [ht]
    exact hg _ _ (hi.issueCmd_tx hs Cmd.brief kind 0 p a b [])
  · rw [ht]
    exact hi.issueCmd_cmds hs Cmd.brief kind 0 p a b []

theorem transactionInstructions_hold : transactionInstructions := by
  intro s p a b hs
  refine ⟨fun hx => ?_, fun x hx hg => ⟨fun q w u h hw h8 => ?_, ?_⟩⟩
  · have e : exec (.txb p a b) s = .next ((issueCmd Cmd.brief .txb 0 p a b [] (noTx s)).updMe fun x =>
        { x with tx := some ⟨s.nextId, 0, 0, [], [], 24, false, false⟩ }) := rfl
    rw [noTx_of hx] at e
    exact ⟨_, e, brief_issues hs .txb p a b (fun _ => some ⟨s.nextId, 0, 0, [], [], 24, false, false⟩) fun _ _ _ => rfl⟩
  · have hact : s.me.txActive = some x := txActive_some hx hg
    change commands (execTxc p a b q s) s u .txc 0 p a b [w]
    unfold execTxc
    have hr : readWords q 1 s = ([w], u) := readWords_pops h
    rw [hact, Option.isSome_some, State.check_true, hr]
    simp only [List.getD_cons_zero]
    rw [decide_eq_true hw, h8, beq_self_eq_true, Bool.and_true, State.check_true]
    exact (popped_of_pops h).atIssue.commands hs .txc 0 p a b [w]
  · have hact : s.me.txActive = some x := txActive_some hx hg
    have e : exec (.txa p a b) s = .next ((issueCmd Cmd.brief .txa 0 p a b [] (s.check s.me.txActive.isSome causeIllegalSequence)).updMe
        fun x => { x with tx := x.tx.map fun y => { y.doom 4 0 with buf := [], gone := true } }) := rfl
    rw [hact, Option.isSome_some, State.check_true] at e
    obtain ⟨hcur, htx, hc⟩ := brief_issues hs .txa p a b (fun x => x.tx.map fun y => { y.doom 4 0 with buf := [], gone := true })
      fun _ _ h => by rw [h]
    refine ⟨_, e, hcur, htx.trans ?_, hc⟩
    rw [hx, Option.map_some]
    unfold Tx.doom
    by_cases hc : x.code = 0 ∧ x.applying = false
    · simp [hc]
    · have hd : (x.code = 0 && !x.applying) = false := by simpa using hc
      simp [hd, hc]

end Sys2Proof
end

section
/-!
PROOFS. Accesses of engine commands at their owners (O35): the memory and the clock's writes that an access finds and leaves, and the
commands that it leaves as they are.
-/

/- Elaborated in turn: the many short proofs of this part are not worth the memory of a worker for each. -/
set_option Elab.async false

namespace Sys2Proof

open Sys2Proof.Machine Sys2Proof.Says

variable {s t u v : State} {c d : Cmd} {p i a n : Nat} {o : Owner} {bs : List W8} {x y z : Tx}

/-! ### The bytes that an access finds (R232) -/

/-- State t has the memories of state s and the same writes of the clock. -/
structure SameBytes (s t : State) : Prop where
  mem : ∀ q, t.mem q = s.mem q
  farNow : ∀ m, (t.core m).farNow = (s.core m).farNow

theorem SameBytes.refl (s : State) : SameBytes s s := ⟨fun _ => rfl, fun _ => rfl⟩

theorem SameBytes.symm (h : SameBytes s t) : SameBytes t s := ⟨fun q => (h.mem q).symm, fun m => (h.farNow m).symm⟩

theorem SameBytes.trans (h : SameBytes s t) (g : SameBytes t u) : SameBytes s u :=
  ⟨fun q => (g.mem q).trans (h.mem q), fun m => (g.farNow m).trans (h.farNow m)⟩

theorem SameBytes.updPart (h : SameBytes s t) (p : Nat) (f : Part → Part) : SameBytes s (t.updPart p f) :=
  h.trans ⟨fun q => by cases q <;> rfl, fun _ => rfl⟩

theorem SameBytes.putCmd (h : SameBytes s t) (c : Cmd) : SameBytes s (putCmd c t) := h.updPart _ _

theorem Machine.Calm.sameBytes (h : Calm s t) : SameBytes s t := ⟨h.mem, h.farNow⟩

theorem Touched.sameBytes (h : Touched p x s t y) : SameBytes s t := by
  have hc : ∀ m, t.core m = s.core m := fun m => by rw [State.core, State.core, h.rest]
  refine ⟨fun q => ?_, fun m => by rw [hc]⟩
  cases q with
  | slice n => exact congrArg Core.slice (hc n)
  | hbm =>
    change t.hbm = s.hbm
    rw [h.rest]
  | peer d =>
    change Cells.get _ d t.peers = Cells.get _ d s.peers
    rw [h.rest]

theorem SameBytes.seen (h : SameBytes s t) (g i : Nat) (o : Owner) : t.seen g i o = s.seen g i o := by
  cases o with
  | slice n =>
    have hs : (t.core n).slice = (s.core n).slice := h.mem (.slice n)
    change (t.core n).seen g i = (s.core n).seen g i
    unfold Core.seen
    rw [hs, h.farNow]
  | hbm => exact h.mem .hbm
  | peer d => exact h.mem (.peer d)

theorem found_eq (s : State) (g i : Nat) (o : Owner) : found s g i o = s.seen g i o := by
  cases o <;> rfl

/-- What the bytes of both states show of a write performed does not depend on what else they hold. -/
theorem performs_congr {s' t' : State} (hs : SameBytes s s') (ht : SameBytes t t') {g : Nat} (h : performs s t g i o a bs) :
    performs s' t' g i o a bs := by
  cases o with
  | slice n =>
    obtain ⟨⟨⟨l, r, hl, hr, hbefore, hafter⟩, hother⟩, hmem⟩ := h
    refine ⟨⟨⟨l, r, (hs.farNow n).trans hl, (ht.farNow n).trans hr, hbefore, hafter⟩, fun m hm => ?_⟩, fun q => ?_⟩
    · rw [ht.farNow, hs.farNow, hother m hm]
    · rw [ht.mem, hs.mem, hmem]
  | hbm =>
    obtain ⟨hw, hmem⟩ := h
    exact ⟨by rw [ht.mem, hs.mem, hw], fun q hq => by rw [ht.mem, hs.mem, hmem q hq]⟩
  | peer d =>
    obtain ⟨hw, hmem⟩ := h
    exact ⟨by rw [ht.mem, hs.mem, hw], fun q hq => by rw [ht.mem, hs.mem, hmem q hq]⟩

/-! ### Bytes of a number -/

theorem joinBytes_div (bs : List W8) (i : Nat) : joinBytes bs / 2 ^ (8 * i) = joinBytes (bs.drop i) := by
  induction i generalizing bs with
  | zero => simp
  | succ i ih =>
    cases bs with
    | nil => simp [joinBytes]
    | cons b r =>
      have hb : b.toNat < 256 := b.isLt
      rw [List.drop_succ_cons, ← ih r, Nat.mul_succ, Nat.add_comm (8 * i) 8, Nat.pow_add, ← Nat.div_div_eq_div_mul, joinBytes]
      congr 1
      omega

theorem ofNat_joinBytes_div (bs : List W8) {i : Nat} (hi : i < bs.length) :
    BitVec.ofNat 8 (joinBytes bs / 2 ^ (8 * i)) = bs[i] := by
  rw [joinBytes_div, List.drop_eq_getElem_cons hi, joinBytes]
  apply BitVec.eq_of_toNat_eq
  have hb : bs[i].toNat < 256 := bs[i].isLt
  rw [BitVec.toNat_ofNat]
  omega

theorem splitBytes_joinBytes (bs : List W8) : splitBytes (joinBytes bs) bs.length = bs :=
  List.ext_getElem (by simp) fun i hi hj => by rw [splitBytes_get _ _ i hj, ofNat_joinBytes_div bs hj]

/-! ### Commands kept and replaced -/

theorem cmd_putCmd (hc : s.cmd c.gpi c.id = some d) : (putCmd c s).cmd c.gpi c.id = some c := by
  unfold putCmd State.cmd at *
  rw [State.part_updPart, if_pos rfl]
  change List.find? _ (List.map _ _) = _
  have hd : (d.id == c.id) = true := List.find?_some (p := fun x : Cmd => x.id == c.id) hc
  have hm : ((s.part c.gpi).cmds.map fun y => if y.id = c.id then c else y).find? (fun x => x.id == c.id) =
      (((s.part c.gpi).cmds.find? fun x => x.id == c.id).map fun y => if y.id = c.id then c else y) := by
    rw [List.find?_map]
    congr 2
    funext y
    by_cases h : y.id = c.id <;> simp [h]
  rw [hm, hc, Option.map_some, if_pos (beq_iff_eq.1 hd)]

theorem tx_putCmd (c : Cmd) (s : State) (p : Nat) : ((putCmd c s).part p).tx = (s.part p).tx := by
  unfold putCmd
  rw [State.part_updPart]
  split
  · next h => rw [h]
  · rfl

/-- A change of a partition's transaction keeps every command. -/
theorem cmd_updTx (s : State) (p q i : Nat) (f : Part → Option Tx) : (s.updPart p fun x => { x with tx := f x }).cmd q i = s.cmd q i := by
  unfold State.cmd
  rw [State.part_updPart]
  split
  · next h => rw [h]
  · rfl

theorem Touched.cmd (h : Touched p x s t y) (q i : Nat) : t.cmd q i = s.cmd q i := by
  obtain ⟨w, hw⟩ := h.others q
  unfold State.cmd
  rw [hw]

/-! ### What holds nothing up -/

theorem bankWait_fresh (h : freshClock s) (c : Cmd) (o : Owner) (a n : Nat) : c.bankWait o a n s = false := by
  cases o with
  | slice m =>
    refine List.any_eq_false.2 fun r _ => ?_
    unfold Core.bankFull
    rw [(h m).1]
    simp
  | hbm => rfl
  | peer d => rfl

theorem unmetered_iff (s : State) (n : Nat) : unmetered s n ↔ Unmetered s n := ⟨fun h => ⟨h.1, h.2⟩, fun h => ⟨h.budget, h.holds⟩⟩

theorem Says.unlogged_of (h : unlogged s n) : Unlogged s (s.ctxOf n) := ⟨h.1, h.2⟩

theorem Machine.Calm.unlogged (h : Calm s t) {k : Option Nat} (hu : Unlogged s k) : Unlogged t k := by
  have hctx : ∀ j, (t.ctx j).active = (s.ctx j).active ∧ (t.ctx j).ck = (s.ctx j).ck ∧ (t.ctx j).root = (s.ctx j).root := fun j => by
    obtain ⟨w, e⟩ := h.ctx j
    rw [e]
    exact ⟨rfl, rfl, rfl⟩
  refine ⟨fun j hj => by rw [(hctx j).2.1]; exact hu.own j hj, fun a => ?_⟩
  rw [← hu.all a]
  unfold State.loggers State.hasPage
  simp only [(hctx _).1, (hctx _).2.1, (hctx _).2.2, h.hbm]

theorem any_put {α : Type} (p : Nat) (v : α) (l : Cells α) (f : Nat × α → Bool) (hf : ∀ w, f (p, w) = false) :
    (Cells.put p v l).any f = l.any f := by
  induction l with
  | nil => simp [Cells.put, hf]
  | cons e r ih =>
    obtain ⟨j, w⟩ := e
    unfold Cells.put
    split
    · next h =>
      subst h
      simp [hf]
    · split
      · simp [hf]
      · simp [ih]

theorem heldTile_updPart (s : State) (p : Nat) (f : Part → Part) (o : Owner) (a n : Nat) :
    (s.updPart p f).heldTile p o a n = s.heldTile p o a n := by
  unfold State.heldTile State.updPart State.setPart
  dsimp only
  congr 1
  exact any_put _ _ _ _ fun _ => by simp

end Sys2Proof
end

section
/-!
PROOFS. The far accesses of a transaction (O35): what an access leaves of the transaction's marks and class, and loads, stores and atomics
that go through its buffer.
-/

/- Elaborated in turn: the many short proofs of this part are not worth the memory of a worker for each. -/
set_option Elab.async false

namespace Sys2Proof

open Sys2Proof.Machine Sys2Proof.Says

variable {s t u v : State} {c d : Cmd} {p i a m n side : Nat} {o : Owner} {bs : List W8} {x y z : Tx}

/-! ### The class and the marks of an access (R237, R262) -/

theorem latency_of_ofClass (hp : ∀ d, o ≠ .peer d) {L : Nat} (h : ofClass s c o L) : s.latency c.core (c.ctx s) o = L := by
  cases o with
  | slice m =>
    change L = _ at h
    rw [h]
    unfold State.latency clusterOf dieOf Cmd.core
    rw [Nat.div_div_eq_div_mul, Nat.div_div_eq_div_mul]
  | hbm => exact Eq.symm h
  | peer d => exact absurd rfl (hp d)

theorem latency_eq (s t : State) (hp : ∀ d, o ≠ .peer d) (n : Nat) (k j : Option Nat) : t.latency n k o = s.latency n j o := by
  cases o with
  | slice m => rfl
  | hbm => rfl
  | peer d => exact absurd rfl (hp d)

/-- A transaction whose largest class takes in an access's. -/
def withClass (s : State) (c : Cmd) (o : Owner) (y : Tx) : Tx := { y with far := max y.far (s.latency c.core (c.ctx s) o) }

theorem noteClass_part (hy : (s.part c.gpi).tx = some y) (o : Owner) :
    (noteClass c o s).part c.gpi = { s.part c.gpi with tx := some (withClass s c o y) } := by
  unfold noteClass
  rw [State.part_updPart, if_pos rfl, hy]
  rfl

theorem SameBytes.noteClass (h : SameBytes s t) (c : Cmd) (o : Owner) : SameBytes s (noteClass c o t) := by
  unfold Machine.noteClass
  exact h.updPart ..

/-- State v is state s as an access of command c in its transaction leaves it: the bytes and the commands as they were, and the
transaction z, with the buffer of y. -/
structure Accessed (s v : State) (c : Cmd) (y z : Tx) (o : Owner) (a m : Nat) (wr : Bool) : Prop where
  bytes : SameBytes s v
  tx : (v.part c.gpi).tx = some z
  cmd : v.cmd c.gpi c.id = s.cmd c.gpi c.id
  buf : z.buf = y.buf
  touches : touches s c y z o a m wr

/-- The class noted and the tiles marked. -/
theorem touches_accessed (hp : ∀ d, o ≠ .peer d) (hu : Calm s u) (hy : (s.part c.gpi).tx = some y) (a va m : Nat) (wr : Bool) :
    ∃ z, Accessed s ((noteClass c o u).txTouches c.gpi o a va m wr) c y z o a m wr := by
  have hyu : (u.part c.gpi).tx = some y := by rw [hu.part, hy]
  have hn : ((noteClass c o u).part c.gpi).tx = some (withClass u c o y) := by rw [noteClass_part hyu]
  obtain ⟨z, hz, hmark⟩ := txTouches_touched hn o a va m wr
  refine ⟨z, ?_, hz.tx, ?_, by rw [hz.kept]; rfl, by rw [hz.kept]; rfl, by rw [hz.kept]; rfl, by rw [hz.kept]; rfl, fun hc => ?_,
    fun hk hfit happ hcode => hmark hk hfit happ hcode, fun L hL => ?_⟩
  · exact (hu.sameBytes.noteClass c o).trans hz.sameBytes
  · rw [hz.cmd, noteClass, cmd_updTx, hu.cmd]
  · rw [hz.doomed hc]
    exact ⟨rfl, rfl⟩
  · rw [hz.kept]
    change max y.far _ = _
    rw [latency_eq s u hp _ _ (c.ctx s), latency_of_ofClass hp hL]

theorem Accessed.calm {wr : Bool} (h : Accessed s u c y z o a m wr) (k : Calm u v) : Accessed s v c y z o a m wr :=
  { h with
    bytes := h.bytes.trans k.sameBytes
    tx := by rw [k.part, h.tx]
    cmd := by rw [k.cmd, h.cmd] }

/-- An access of an active transaction, at an owner that is no peer, that no commit and no full bank holds is made at once, behind its class
and its marks. -/
theorem accessAt_marks {rows : Option Bool} {xs : List (Nat × Nat × Nat)} {kind : Sys2Proof.FrameKind} {data : List W8} {va : Nat} {wr : Bool}
    {f : State → List W8 × State} (hc : s.cmd c.gpi c.id = some c) (hp : ∀ d, o ≠ .peer d) (h : Unmetered s c.core)
    (ht : s.heldTile c.gpi o a m = false) (hb : c.bankWait o a m s = false) (hy : (s.part c.gpi).tx = some y) :
    ∃ v z, accessAt c o a m side rows xs kind data (some (va, wr)) f s = (some (f v).1, (f v).2) ∧ Accessed s v c y z o a m wr := by
  obtain ⟨h1, h2, -⟩ := spend_passes (side := side) (n := m) (xs := xs) h
  obtain ⟨z, hz⟩ := touches_accessed hp h2 hy a va m wr
  have hrows : Calm ((noteClass c o (spend c side m xs s).2).txTouches c.gpi o a va m wr) (match rows with
      | some last => useRows c o a m last ((noteClass c o (spend c side m xs s).2).txTouches c.gpi o a va m wr)
      | none => (noteClass c o (spend c side m xs s).2).txTouches c.gpi o a va m wr) := by
    cases rows with
    | none => exact .refl _
    | some last => exact .used c o a m last _
  refine ⟨_, z, ?_, hz.calm hrows⟩
  unfold accessAt
  rw [again_of hc]
  simp only [ht, hb, Bool.and_false, Bool.or_false, Bool.false_eq_true, if_false]
  cases o with
  | peer d => exact absurd rfl (hp d)
  | slice k => simp only [h1, if_true] <;> rfl
  | hbm => simp only [h1, if_true] <;> rfl

/-! ### Loads and stores through the buffer (R260, R262) -/

theorem tx_of (h : (s.part c.gpi).tx = some y) (hi : c.intx = some y.no) : c.tx s = some y := by
  unfold Cmd.tx
  rw [h, hi, Option.filter_some, beq_self_eq_true]
  rfl

theorem Accessed.cmdTx {wr : Bool} (h : Accessed s v c y z o a m wr) (hi : c.intx = some y.no) : c.tx v = some z :=
  tx_of h.tx (hi.trans (congrArg some h.touches.1.symm))

/-- The bytes that an access finds through the buffer. -/
theorem Accessed.overlay {wr : Bool} (h : Accessed s v c y z o a m wr) (b k : Nat) : z.overlay o b (c.sees o b k v) =
    (List.range k).map fun i => throughBuffer y o (found s c.gpi c.id o) (b + i) := by
  unfold Cmd.sees
  rw [overlay_bytes, h.bytes.seen, found_eq]
  exact List.map_congr_left fun i _ => throughBuffer_congr h.buf o _ _

/-- What an access leaves of the bytes and of its transaction: k bytes of value v from a on put in the buffer, where it writes. -/
def Leaves (s t : State) (c : Cmd) (y : Tx) (o : Owner) (a k v : Nat) (wr write : Bool) : Prop :=
  (∀ q, t.mem q = s.mem q) ∧ (∀ m, (t.core m).farNow = (s.core m).farNow) ∧
    ∃ z, (t.part c.gpi).tx = some z ∧ Says.touches s c y z o a k wr ∧ ∀ b, throughBuffer z o (found s c.gpi c.id o) b =
      if write ∧ a ≤ b ∧ b < a + k then BitVec.ofNat 8 (v / 2 ^ (8 * (b - a))) else throughBuffer y o (found s c.gpi c.id o) b

theorem Accessed.leaves {wr : Bool} (h : Accessed s v c y z o a m wr) (w : Nat) : Leaves s v c y o a m w wr false :=
  ⟨h.bytes.mem, h.bytes.farNow, z, h.tx, h.touches, fun b => by
    rw [if_neg fun hn => Bool.false_ne_true hn.1, throughBuffer_congr h.buf]⟩

/-- Bytes put in the buffer after the access. -/
theorem Accessed.hold {wr : Bool} (h : Accessed s v c y z o a m wr) {w : Nat} {bs : List W8} (hbs : bs = splitBytes w m) :
    Leaves s (v.updPart c.gpi fun x => { x with tx := x.tx.map fun t => t.hold o a bs }) c y o a m w wr true := by
  have hb := h.bytes.updPart c.gpi fun x => { x with tx := x.tx.map fun t => t.hold o a bs }
  refine ⟨hb.mem, hb.farNow, z.hold o a bs, ?_, h.touches, fun b => ?_⟩
  · rw [State.part_updPart, if_pos rfl, h.tx]
    rfl
  · rw [hbs, throughBuffer_hold_number, throughBuffer_congr h.buf]
    simp only [true_and]

theorem Leaves.congr {k w : Nat} {wr write : Bool} (h : Leaves s t c y o a k w wr write) (hb : SameBytes t u)
    (hx : (u.part c.gpi).tx = (t.part c.gpi).tx) : Leaves s u c y o a k w wr write := by
  obtain ⟨hmem, hfar, z, hz, hrest⟩ := h
  exact ⟨fun q => (hb.mem q).trans (hmem q), fun m => (hb.farNow m).trans (hfar m), z, hx.trans hz, hrest⟩

/-- The state and the command of an access in an active transaction, at an owner that is no peer, that nothing holds. -/
structure InTransaction (s : State) (c : Cmd) (y : Tx) (o : Owner) : Prop where
  cmd : s.cmd c.gpi c.id = some c
  tx : (s.part c.gpi).tx = some y
  intx : c.intx = some y.no
  near : ∀ d, o ≠ .peer d
  unmetered : Unmetered s c.core
  settled : settledFor s c.gpi
  fresh : freshClock s

theorem InTransaction.mark (h : InTransaction s c y o) (va : Nat) (wr : Bool) : c.mark va wr s = some (va, wr) := by
  unfold Cmd.mark
  rw [tx_of h.tx h.intx]
  rfl

theorem InTransaction.accessAt (h : InTransaction s c y o) (a m side : Nat) (rows : Option Bool) (xs : List (Nat × Nat × Nat))
    (kind : Sys2Proof.FrameKind) (data : List W8) (va : Nat) (wr : Bool) (f : State → List W8 × State) :
    ∃ v z, Machine.accessAt c o a m side rows xs kind data (c.mark va wr s) f s = (some (f v).1, (f v).2) ∧
      Accessed s v c y z o a m wr := by
  rw [h.mark]
  exact accessAt_marks h.cmd h.near h.unmetered (h.settled o a m) (bankWait_fresh h.fresh ..) h.tx

/-- What an access leaves is what its function leaves of a state that differs from s in the transaction's class and marks. -/
theorem InTransaction.accessAt_then (h : InTransaction s c y o) {f : State → List W8 × State} {xs : List (Nat × Nat × Nat)} {va side : Nat}
    {kind : Sys2Proof.FrameKind} {data : List W8} {wr : Bool} {rows : Option Bool} {P : State → Prop}
    (hf : ∀ v z, Accessed s v c y z o a m wr → (f v).1 = bs ∧ P (f v).2) :
    ∃ t, Machine.accessAt c o a m side rows xs kind data (c.mark va wr s) f s = (some bs, t) ∧ P t := by
  obtain ⟨v, z, e, hv⟩ := h.accessAt a m side rows xs kind data va wr f
  obtain ⟨hbs, hP⟩ := hf v z hv
  exact ⟨_, by rw [e, hbs], hP⟩

theorem InTransaction.farRead (h : InTransaction s c y o) {va : Nat} (hw : c.whereIs s va false = .at o a) (m n : Nat) (last : Bool) :
    ∃ t, Machine.farRead c va m n last s =
      .ok (some ((List.range m).map fun i => throughBuffer y o (found s c.gpi c.id o) (a + i)), t) ∧ Leaves s t c y o a m 0 false false := by
  unfold Machine.farRead
  rw [hw]
  simp only [Except.ok.injEq]
  refine h.accessAt_then fun v z hv => ⟨?_, hv.leaves 0⟩
  rw [hv.cmdTx h.intx]
  exact hv.overlay a m

theorem InTransaction.farWrite (h : InTransaction s c y o) {va : Nat} (hw : c.whereIs s va true = .at o a) (bs : List W8) (n side : Nat)
    (last : Bool) : ∃ t, Machine.farWrite c va bs n side last s = .ok (some [], t) ∧
      Leaves s t c y o a bs.length (joinBytes bs) true true := by
  have hi : c.intx.isSome = true := by rw [h.intx]; rfl
  unfold Machine.farWrite
  rw [hw]
  dsimp only
  rw [if_pos hi]
  simp only [Except.ok.injEq]
  refine h.accessAt_then fun v z hv => ⟨rfl, ?_⟩
  rw [hv.cmdTx h.intx]
  exact hv.hold (splitBytes_joinBytes bs).symm

end Sys2Proof
end

section
/-!
PROOFS. Atomics through a transaction's buffer, and the transactional accesses together (O35).
-/

/- Elaborated in turn: the many short proofs of this part are not worth the memory of a worker for each. -/
set_option Elab.async false

namespace Sys2Proof

open Sys2Proof.Machine Sys2Proof.Says

variable {s t u v : State} {c d e : Cmd} {p i a m n side : Nat} {o : Owner} {bs : List W8} {x y z : Tx}

/-! ### The rest of a far access's clock (R237, R270) -/

/-- State t is state s with free choices drawn, and perhaps with more of its clock to come. -/
def Resumed (s t : State) : Prop := ∃ u, Calm s u ∧ ∃ l, t = { u with agenda := l }

theorem Resumed.refl (s : State) : Resumed s s := ⟨s, .refl s, s.agenda, rfl⟩

theorem Resumed.part (h : Resumed s t) (p : Nat) : t.part p = s.part p := by
  obtain ⟨u, hu, l, rfl⟩ := h
  exact hu.part p

theorem Resumed.cmd (h : Resumed s t) (p i : Nat) : t.cmd p i = s.cmd p i := by
  unfold State.cmd
  rw [h.part]

theorem Resumed.sameBytes (h : Resumed s t) : SameBytes s t := by
  obtain ⟨u, hu, l, rfl⟩ := h
  exact hu.sameBytes.trans ⟨fun q => by cases q <;> rfl, fun _ => rfl⟩

/-- A command that moved on its access: more accesses of the clock are listed behind it, or none. -/
theorem farAccessArrival_moves (hd : s.cmd p i = some d) (hcounts : d.counts = true) (ha : d.aux = 0) (hs : d.step s = .ok (true, t))
    (he : t.cmd p i = some e) : ∃ u, exec (.farAccessArrival p i) s = .next u ∧ Resumed t u := by
  refine ⟨_, rfl, ?_⟩
  rw [hd]
  simp only [hcounts, ha, hs, he]
  simp only [Bool.not_true, Bool.false_and, Bool.false_or]
  rw [if_neg (by simp)]
  split
  · exact .refl t
  · have hcalm : Calm t (if e.must t then (1, t) else e.choose 2 2 t).2 := by
      split
      · exact .refl t
      · exact .chosen 2 2 e t
    generalize (if e.must t then (1, t) else e.choose 2 2 t) = q at hcalm
    split
    · exact ⟨_, hcalm, _, rfl⟩
    · exact ⟨_, hcalm, _, rfl⟩

/-! ### Atomics through the buffer (R242, R260, R262) -/

theorem Leaves.unwritten {k w w' : Nat} {wr : Bool} (h : Leaves s t c y o a k w wr false) : Leaves s t c y o a k w' wr false := by
  simpa only [Leaves, Bool.false_eq_true, false_and, if_false] using h

/-- The value that an atomic finds through the buffer. -/
def valueAt (s : State) (c : Cmd) (y : Tx) (o : Owner) (a : Nat) : Nat :=
  joinBytes ((List.range c.size).map fun i => throughBuffer y o (found s c.gpi c.id o) (a + i))

theorem InTransaction.atomStep (h : InTransaction s c y o) (hout : c.out = []) (hw : c.whereIs s c.va true = .at o a) :
    ∃ t, Machine.atomStep c s = .ok (true, putCmd { c with out := splitBytes (valueAt s c y o a) c.size } t) ∧
      t.cmd c.gpi c.id = some c ∧
      Leaves s t c y o a c.size ((farAtomic c (valueAt s c y o a)).getD 0) true (farAtomic c (valueAt s c y o a)).isSome := by
  obtain ⟨bs, hdef⟩ : ∃ bs, bs = (List.range c.size).map fun i => throughBuffer y o (found s c.gpi c.id o) (a + i) := ⟨_, rfl⟩
  have hval : joinBytes bs = valueAt s c y o a := by rw [hdef, valueAt]
  have hbs : splitBytes (valueAt s c y o a) c.size = bs := by
    have hlen : c.size = bs.length := by simp [hdef]
    rw [← hval, hlen]
    exact splitBytes_joinBytes bs
  have hi : c.intx.isNone = false := by rw [h.intx]; rfl
  unfold Machine.atomStep
  rw [hout, hw]
  simp only [List.isEmpty_nil, Bool.not_true, Bool.false_eq_true, if_false]
  generalize hr : Machine.accessAt c o a _ _ _ _ _ _ _ _ s = r
  obtain ⟨t, rfl, hcmd, hleaves⟩ : ∃ t, r = (some bs, t) ∧ t.cmd c.gpi c.id = some c ∧
      Leaves s t c y o a c.size ((farAtomic c (valueAt s c y o a)).getD 0) true (farAtomic c (valueAt s c y o a)).isSome := by
    rw [← hr]
    refine h.accessAt_then fun v z hv => ?_
    rw [hv.cmdTx h.intx]
    dsimp only
    rw [hv.overlay, ← hdef, hval]
    cases farAtomic c (valueAt s c y o a) with
    | none => exact ⟨rfl, hv.cmd.trans h.cmd, hv.leaves _⟩
    | some w =>
      simp only [hi, Option.isNone_some, Bool.false_eq_true, if_false]
      exact ⟨trivial, (cmd_updTx v c.gpi c.gpi c.id fun x : Part => x.tx.map fun t => t.hold o a (splitBytes w c.size)).trans
        (hv.cmd.trans h.cmd), hv.hold rfl⟩
  dsimp only
  rw [again_of hcmd, hbs]
  exact ⟨t, rfl, hcmd, hleaves⟩

theorem farAtomic_operation {b : Nat} (hb : c.size = b) (hop : fld (c.word 1) 46 4 < 9) (w : Nat) :
    farAtomic c w = some (atomic (fld (c.word 1) 46 4) (8 * b) w (c.word 2)) := by
  unfold farAtomic
  dsimp only
  rw [if_neg (Nat.ne_of_lt hop), atomicNew_eq, hb]

theorem farAtomic_compare {b : Nat} (hb : c.size = b) (hop : fld (c.word 1) 46 4 = 9) (w : Nat) :
    farAtomic c w = if w = (if b = 4 then c.word 2 % 2 ^ 32 else c.desc.getD 0 0) then some (if b = 4 then c.word 2 / 2 ^ 32 else c.word 2)
      else none := by
  unfold farAtomic
  dsimp only
  rw [if_pos hop, hb, Cmd.dword]
  by_cases h4 : b = 4
  · simp only [if_pos h4]
  · simp only [if_neg h4]

theorem InTransaction.fatom (h : InTransaction s c y o) (hk : c.kind = .fatom) (hm : moving c) (hout : c.out = [])
    (hw : c.whereIs s c.va true = .at o a) : ∃ t k, exec (.farAccessArrival c.gpi c.id) s = .next t ∧ t.cmd c.gpi c.id = some k ∧
      k.out = splitBytes (valueAt s c y o a) c.size ∧ k.aux = 0 ∧
      Leaves s t c y o a c.size ((farAtomic c (valueAt s c y o a)).getD 0) true (farAtomic c (valueAt s c y o a)).isSome := by
  obtain ⟨hcounting, hheld, hfault, haux, -⟩ := hm
  obtain ⟨t, ht, hcmd, hleaves⟩ := h.atomStep hout hw
  have hput : (putCmd { c with out := splitBytes (valueAt s c y o a) c.size } t).cmd c.gpi c.id =
      some { c with out := splitBytes (valueAt s c y o a) c.size } := cmd_putCmd hcmd
  have hcounts : c.counts = true := by simp [Cmd.counts, hcounting, hheld, hfault]
  have hstep : c.step s = Machine.atomStep c s := by simp [Cmd.step, hk]
  obtain ⟨u, hu, hr⟩ := farAccessArrival_moves h.cmd hcounts haux (hstep.trans ht) hput
  refine ⟨u, _, hu, (hr.cmd ..).trans hput, rfl, haux, hleaves.congr ((SameBytes.refl t).putCmd _ |>.trans hr.sameBytes) ?_⟩
  rw [hr.part, tx_putCmd]

/-! ### The far accesses of an active transaction together -/

theorem transactionalAccesses_hold : transactionalAccesses := by
  intro s c o a y hcmd hy hi hp hu hsettled hfresh
  have h : InTransaction s c y o := ⟨hcmd, hy, hi, hp, (unmetered_iff ..).1 hu, hsettled, hfresh⟩
  refine ⟨fun va m n last hw => ?_, fun va bs n side last hw _ => ?_, fun b op v e hk hm hout hb hop hw hv he => ?_⟩
  · obtain ⟨t, ht, hl⟩ := h.farRead hw m n last
    exact ⟨_, t, ht, rfl, hl⟩
  · obtain ⟨t, ht, hl⟩ := h.farWrite hw bs n side last
    exact ⟨_, t, ht, hl⟩
  · have hsize : c.size = b := hb.symm
    have hva : c.word 0 % 2 ^ 56 / b * b = c.va := by rw [← hsize, Cmd.va, Cmd.unit, if_pos hk]
    have hval : valueAt s c y o a = v := by rw [hv, ← hsize, valueAt]
    rw [hva] at hw
    obtain ⟨t, k, ht, hk, hkout, haux, hl⟩ := h.fatom hk hm hout hw
    rw [hval, hsize] at hkout hl
    refine ⟨t, k, ht, hk, hkout, haux, fun hlt => ?_, fun heq => ?_⟩
    · rw [farAtomic_operation hsize (hop ▸ hlt), ← hop] at hl
      exact hl
    · rw [farAtomic_compare hsize (hop ▸ heq), ← he] at hl
      by_cases hve : v = e
      · rw [if_pos hve] at hl
        rw [decide_eq_true hve]
        exact hl
      · rw [if_neg hve] at hl
        rw [decide_eq_false hve]
        exact hl.unwritten

end Sys2Proof
end

section
/-!
PROOFS. The commit of a transaction (O35): a run of its buffer applied at its owner, and its status.
-/

/- Elaborated in turn: the many short proofs of this part are not worth the memory of a worker for each. -/
set_option Elab.async false

namespace Sys2Proof

open Sys2Proof.Machine Sys2Proof.Says

variable {s t u v : State} {c d e : Cmd} {p i a m n side : Nat} {o : Owner} {bs : List W8} {x y z : Tx}

/-! ### Writes that perform (R232, R260) -/

theorem slice_ne_peer (m : Nat) : ∀ d, Owner.slice m ≠ .peer d := fun _ h => by cases h

/-- Bytes of a command that no rollback log takes perform at their owner. -/
theorem writes_performs {except : Option Nat} (h : Unlogged s (c.ctx s)) (hp : ∀ d, o ≠ .peer d) (hb : bs ≠ []) :
    performs s (c.writes except o a bs s) c.gpi c.id o a bs := by
  unfold Cmd.writes
  cases o with
  | peer d => exact absurd rfl (hp d)
  | hbm =>
    rw [perform_hbm h hb]
    refine ⟨rfl, fun q hq => ?_⟩
    cases q with
    | hbm => exact absurd rfl hq
    | slice k => rfl
    | peer d => rfl
  | slice m =>
    rw [perform_slice h hb]
    have hcore : ∀ k, (s.doomWrite except (.slice m) a bs.length).core k = s.core k := fun _ => rfl
    refine ⟨⟨?_, fun k hk => ?_⟩, fun q => ?_⟩
    · obtain ⟨l, r, hl, hr, hbefore, hafter⟩ := addFar_place ⟨c.gpi, c.id, false, a, bs⟩ (s.core m).farNow
      refine ⟨l, r, hl, ?_, hbefore, hafter⟩
      rw [State.core_updCore, if_pos rfl]
      exact hr
    · rw [State.core_updCore, if_neg hk, hcore]
    · cases q with
      | slice k =>
        change ((State.updCore _ m _).core k).slice = (s.core k).slice
        rw [State.core_updCore]
        split
        · next e => rw [e]; rfl
        · rfl
      | hbm => rfl
      | peer d => rfl

/-- The parts of a state after a command's write: each with its commands, and the spared partition's as it was. -/
theorem writes_part {except : Option Nat} (h : Unlogged s (c.ctx s)) (hp : ∀ d, o ≠ .peer d) (hb : bs ≠ []) (q : Nat) :
    (c.writes except o a bs s).part q = (s.doomWrite except o a bs.length).part q := by
  unfold Cmd.writes
  cases o with
  | peer d => exact absurd rfl (hp d)
  | hbm =>
    rw [perform_hbm h hb]
    rfl
  | slice m =>
    rw [perform_slice h hb]
    rfl

theorem writes_cmd {except : Option Nat} (h : Unlogged s (c.ctx s)) (hp : ∀ d, o ≠ .peer d) (hb : bs ≠ []) (q i : Nat) :
    (c.writes except o a bs s).cmd q i = s.cmd q i := by
  rw [← doomWrite_cmd except o a bs.length s q i]
  unfold State.cmd
  rw [writes_part h hp hb]

/-- A write spares the transaction of the partition that it names (R262). -/
theorem doomWrite_spared (s : State) (p : Nat) (o : Owner) (a n : Nat) : (s.doomWrite (some p) o a n).part p = s.part p := by
  unfold State.doomWrite State.part
  induction s.parts with
  | nil => rfl
  | cons y r ih =>
    simp only [List.map_cons, Cells.get]
    by_cases e : p = y.1
    · subst e
      simp only [if_true]
      split
      · rfl
      · split <;> rfl
    · simp only [e, if_false]
      exact ih

/-! ### Runs of a buffer (R261) -/

theorem heldRun_get {buf : List TxByte} {b : TxByte} (h : (heldRun buf o a n)[i]? = some b) : b ∈ buf ∧ b.owner = o ∧ b.addr = a + i := by
  induction n generalizing a i with
  | zero => cases h
  | succ n ih =>
    unfold heldRun at h
    split at h
    · cases h
    · next t ht =>
      cases i with
      | zero =>
        cases h
        obtain ⟨ho, ha⟩ : b.owner = o ∧ b.addr = a := by simpa using List.find?_some ht
        exact ⟨List.mem_of_find?_eq_some ht, ho, ha⟩
      | succ i =>
        obtain ⟨hm, ho, ha⟩ := ih h
        exact ⟨hm, ho, by omega⟩

theorem heldRun_length (buf : List TxByte) (o : Owner) (a n : Nat) : (heldRun buf o a n).length ≤ n := by
  induction n generalizing a with
  | zero => exact Nat.le_refl 0
  | succ n ih =>
    unfold heldRun
    split
    · exact Nat.zero_le _
    · exact Nat.succ_le_succ (ih (a + 1))

theorem heldRun_pos {buf : List TxByte} {b : TxByte} (h : b ∈ buf) (hn : 0 < n) : 0 < (heldRun buf b.owner b.addr n).length := by
  obtain ⟨n, rfl⟩ := Nat.exists_eq_succ_of_ne_zero (Nat.ne_of_gt hn)
  unfold heldRun
  split
  · next hnone => exact absurd (List.find?_eq_none.1 hnone b h) (by simp)
  · exact Nat.succ_pos _

/-- The bytes of a run are the entries of the buffer at its places with its values. -/
theorem mem_heldRun {buf : List TxByte} {b : TxByte} : b ∈ heldRun buf o a n ↔
    ∃ i < ((heldRun buf o a n).map TxByte.val).length, b = ⟨o, a + i, ((heldRun buf o a n).map TxByte.val).getD i 0⟩ := by
  rw [List.length_map]
  have hget : ∀ i (hi : i < (heldRun buf o a n).length),
      (⟨o, a + i, ((heldRun buf o a n).map TxByte.val).getD i 0⟩ : TxByte) = (heldRun buf o a n)[i] := fun i hi => by
    obtain ⟨-, ho, ha⟩ := heldRun_get (List.getElem?_eq_getElem hi)
    rw [List.getD_eq_getElem _ _ (by rwa [List.length_map]), List.getElem_map]
    generalize (heldRun buf o a n)[i] = w at ho ha ⊢
    rw [← ho, ← ha]
  constructor
  · intro h
    obtain ⟨i, hi, rfl⟩ := List.getElem_of_mem h
    exact ⟨i, hi, (hget i hi).symm⟩
  · rintro ⟨i, hi, rfl⟩
    rw [hget i hi]
    exact List.getElem_mem hi

/-! ### A run of the buffer applied (R261) -/

/-- A transaction with bytes of its buffer taken from it: its marks go with the last. -/
def without (x : Tx) (run : List TxByte) : Tx :=
  let rest := x.buf.filter fun b => !run.contains b
  { x with buf := rest, marks := if rest.isEmpty then [] else x.marks }

theorem mem_without {run : List TxByte} {b : TxByte} : b ∈ (without x run).buf ↔ b ∈ x.buf ∧ b ∉ run := by
  simp [without]

theorem without_marks (run : List TxByte) :
    ((without x run).buf ≠ [] → (without x run).marks = x.marks) ∧ ((without x run).buf = [] → (without x run).marks = []) := by
  unfold without
  dsimp only
  refine ⟨fun h => if_neg fun he => h (List.isEmpty_iff.1 he), fun h => if_pos (List.isEmpty_iff.2 h)⟩

/-- A run of a transaction's buffer written at its owner and taken from the buffer. -/
def applyRun (c : Cmd) (o : Owner) (a : Nat) (run : List TxByte) (s : State) : State :=
  (c.writes (some c.gpi) o a (run.map TxByte.val) s).updPart c.gpi fun z => { z with tx := z.tx.map fun y => without y run }

section

variable {run : List TxByte}

theorem applyRun_performs (h : Unlogged s (c.ctx s)) (hp : ∀ d, o ≠ .peer d) (hr : run ≠ []) :
    performs s (applyRun c o a run s) c.gpi c.id o a (run.map TxByte.val) :=
  performs_congr (.refl s) ((SameBytes.refl _).updPart ..) (writes_performs h hp (by simpa using hr))

theorem applyRun_cmd (h : Unlogged s (c.ctx s)) (hp : ∀ d, o ≠ .peer d) (hr : run ≠ []) (q i : Nat) :
    (applyRun c o a run s).cmd q i = s.cmd q i :=
  (cmd_updTx _ c.gpi q i fun z : Part => z.tx.map fun y => without y run).trans (writes_cmd h hp (by simpa using hr) q i)

theorem applyRun_tx (h : Unlogged s (c.ctx s)) (hp : ∀ d, o ≠ .peer d) (hr : run ≠ []) :
    ((applyRun c o a run s).part c.gpi).tx = (s.part c.gpi).tx.map fun y => without y run := by
  unfold applyRun
  rw [State.part_updPart, if_pos rfl, writes_part h hp (by simpa using hr), doomWrite_spared]

end

/-- The state in which partition p's transaction, y, applies its writes. -/
def applyingIn (s : State) (p : Nat) (y : Tx) : State := s.updPart p fun z => { z with tx := some { y with applying := true } }

theorem applyingIn_cmd (s : State) (p : Nat) (y : Tx) (q i : Nat) : (applyingIn s p y).cmd q i = s.cmd q i :=
  cmd_updTx s p q i fun _ => some { y with applying := true }

theorem applyingIn_unmetered (h : Unmetered s n) (p : Nat) (y : Tx) : Unmetered (applyingIn s p y) n :=
  ⟨h.budget, fun x hx c hc => h.holds x hx c ((applyingIn_cmd ..).symm.trans hc)⟩

theorem applyingIn_tx (s : State) (p : Nat) (y : Tx) : ((applyingIn s p y).part p).tx = some { y with applying := true } := by
  rw [applyingIn, State.part_updPart, if_pos rfl]

theorem or_head_mem {l : List TxByte} (h : l ≠ []) (f : TxByte → Bool) : ∃ b ∈ l, (l.find? f).or l.head? = some b := by
  cases hf : l.find? f with
  | some b => exact ⟨b, List.mem_of_find?_eq_some hf, rfl⟩
  | none => exact ⟨l.head h, List.head_mem h, List.head?_eq_some_head h⟩

/-- The step of a TXC whose transaction is not doomed and has bytes to apply: one access, at the place of one of them. -/
theorem commitStep_applies (hx : c.tx s = some x) (hcode : x.code = 0) (hbuf : x.buf ≠ []) :
    ∃ b ∈ x.buf, ∀ run, run = heldRun x.buf b.owner b.addr (128 - b.addr % 128) → ∀ r,
      r = accessAt c b.owner b.addr run.length 1 (some true) (c.uses b.owner b.addr run.length 1 true) .write (run.map TxByte.val) none
        (fun s => ([], applyRun c b.owner b.addr run s)) (applyingIn s c.gpi x) → commitStep c s = .ok (r.1.isSome, r.2) := by
  obtain ⟨b, hb, he⟩ := or_head_mem hbuf fun b => match b.owner with
    | .peer _ => false
    | _ => true
  refine ⟨b, hb, ?_⟩
  rintro _ rfl _ rfl
  unfold commitStep
  rw [hx]
  dsimp only
  rw [if_pos hcode]
  generalize hw : Option.or _ x.buf.head? = w
  obtain rfl : w = some b := hw.symm.trans he
  rfl

/-- A TXC whose transaction is not doomed and has bytes to apply, none of them a peer's, applies a run of them. -/
theorem commits_run (hd : s.cmd d.gpi d.id = some d) (hy : (s.part d.gpi).tx = some y) (hi : d.intx = some y.no)
    (hu : Unmetered s d.core) (hlog : Unlogged s (d.ctx s)) (hsettled : settledFor s d.gpi) (hfresh : freshClock s) (hcode : y.code = 0)
    (hbuf : y.buf ≠ []) (hnear : ∀ b ∈ y.buf, ∀ x, b.owner ≠ .peer x) :
    ∃ b ∈ y.buf, ∀ run, run = heldRun y.buf b.owner b.addr (128 - b.addr % 128) → ∃ t, commitStep d s = .ok (true, t) ∧
      t.cmd d.gpi d.id = some d ∧ (t.part d.gpi).tx = some (without { y with applying := true } run) ∧
      performs s t d.gpi d.id b.owner b.addr (run.map TxByte.val) := by
  obtain ⟨b, hb, hstep⟩ := commitStep_applies (tx_of hy hi) hcode hbuf
  have hp := hnear b hb
  have hpos := heldRun_pos (n := 128 - b.addr % 128) hb (by omega)
  refine ⟨b, hb, fun run hrun => ?_⟩
  have hr : run ≠ [] := List.ne_nil_of_length_pos (hrun ▸ hpos)
  have hfresh' : freshClock (applyingIn s d.gpi y) := hfresh
  obtain ⟨u, hcalm, e⟩ := accessAt_passes (side := 1) (m := run.length) (last := true) (xs := d.uses b.owner b.addr run.length 1 true)
    (kind := .write) (data := run.map TxByte.val) (f := fun s => ([], applyRun d b.owner b.addr run s))
    ((applyingIn_cmd s d.gpi y ..).trans hd) hp (applyingIn_unmetered hu d.gpi y) ((heldTile_updPart ..).trans (hsettled b.owner b.addr _))
    (bankWait_fresh hfresh' ..)
  have hlogu : Unlogged u (d.ctx u) := by
    have hctx : d.ctx u = d.ctx s := hcalm.ctxOf _
    rw [hctx]
    exact hcalm.unlogged ⟨hlog.own, hlog.all⟩
  have hbytes : SameBytes s u := SameBytes.trans ((SameBytes.refl s).updPart ..) hcalm.sameBytes
  refine ⟨_, hstep run hrun _ e.symm, ?_, ?_, ?_⟩
  · rw [applyRun_cmd hlogu hp hr, hcalm.cmd, applyingIn_cmd, hd]
  · rw [applyRun_tx hlogu hp hr, hcalm.part, applyingIn_tx]
    rfl
  · exact performs_congr hbytes.symm (.refl _) (applyRun_performs hlogu hp hr)

/-! ### The status (R261, R351) -/

/-- The status of a transaction: its code, and the address of the tile that doomed it. -/
def statusOf (y : Tx) : Nat := y.code + if y.code = 1 ∨ y.code = 2 then y.va / 256 * 256 else 0

/-- Bytes that end within the slice delivered as a command's last effect, in lockstep mode on the clock of its tag. -/
theorem deliverLocal_delivers {f : Cmd → Cmd} (hd : s.cmd d.gpi d.id = some d) (hlog : Unlogged s (d.ctx s))
    (hsettled : settledFor s d.gpi) (hfresh : freshClock s) (hlock : (s.core d.core).lock = true → d.left = 0)
    (hfit : a + bs.length ≤ 2 ^ 23) (hb : bs ≠ []) :
    ∃ t, deliverLocal d a bs f s = .ok (true, putCmd (f { d with aux := 1 }) t) ∧ t.cmd d.gpi d.id = some d ∧
      performs s t d.gpi d.id (.slice d.core) a bs := by
  have hpos := List.length_pos_iff.2 hb
  have ha : a % 2 ^ 23 = a := Nat.mod_eq_of_lt (by omega)
  have htake : bs.take (2 ^ 23 - a) = bs := List.take_of_length_le (by omega)
  have hdrop : bs.drop (2 ^ 23 - a) = [] := List.drop_eq_nil_of_le (by omega)
  have hmin : min (2 ^ 23 - a) bs.length = bs.length := Nat.min_eq_right (by omega)
  have hblocked : ∀ b k, d.blocked (.slice d.core) b k s = false := fun b k => by
    rw [Cmd.blocked, hsettled, bankWait_fresh hfresh, Bool.or_false]
  have hcalm : Calm s (useRows d (.slice d.core) 0 0 true (useRows d (.slice d.core) a bs.length true s)) :=
    (Calm.used ..).trans (Calm.used ..)
  have hput : putLocal d a bs s = (true, d.writes d.spares (.slice d.core) a bs
      (useRows d (.slice d.core) 0 0 true (useRows d (.slice d.core) a bs.length true s))) := by
    unfold putLocal
    simp only [ha, htake, hdrop, hmin, hblocked, List.length_nil, Bool.or_false, Bool.false_eq_true, if_false]
    rfl
  generalize useRows d (.slice d.core) 0 0 true _ = u at hcalm hput
  have hlogu : Unlogged u (d.ctx u) := by
    have hctx : d.ctx u = d.ctx s := hcalm.ctxOf _
    rw [hctx]
    exact hcalm.unlogged hlog
  have hcmd : (d.writes d.spares (.slice d.core) a bs u).cmd d.gpi d.id = some d := by
    rw [writes_cmd hlogu (slice_ne_peer _) hb, hcalm.cmd, hd]
  have hnow : ((s.core d.core).lock && d.left != 0) = false := by
    cases hl : (s.core d.core).lock with
    | false => rfl
    | true => rw [hlock hl]; rfl
  refine ⟨_, ?_, hcmd, performs_congr hcalm.sameBytes.symm (.refl _) (writes_performs hlogu (slice_ne_peer _) hb)⟩
  unfold deliverLocal
  rw [hnow, hput]
  simp only [Bool.false_eq_true, if_false, if_true, again_of hcmd]

theorem commitStep_ends (hx : c.tx s = some x) (h : x.code ≠ 0 ∨ x.buf = []) :
    commitStep c s = match deliverLocal c (c.word 0) (splitBytes (statusOf x) 8) id s with
      | .ok (true, t) => .ok (true, t.updPart c.gpi fun z => { z with tx := none })
      | r => r := by
  unfold commitStep
  rw [hx]
  dsimp only
  rcases h with h | h
  · rw [if_neg h]
    rfl
  · rw [h]
    simp only [List.find?_nil, List.head?_nil, Option.or_none, ite_self]
    rfl

/-- A command whose access was its last effect goes on no more on this clock. -/
theorem farAccessArrival_ends (hd : s.cmd p i = some d) (hcounts : d.counts = true) (ha : d.aux = 0) (hs : d.step s = .ok (true, t))
    (he : t.cmd p i = some e) (hdone : e.aux = 1) (howed : e.owed = []) : exec (.farAccessArrival p i) s = .next t := by
  change execFarAccessArrival p i s = _
  unfold execFarAccessArrival withCmd
  rw [hd]
  simp [hcounts, ha, hs, he, hdone, howed]

/-- The status written and the transaction ended. -/
theorem commits_status (hd : s.cmd d.gpi d.id = some d) (hk : d.kind = .txc) (hm : moving d) (hy : (s.part d.gpi).tx = some y)
    (hi : d.intx = some y.no) (hlog : Unlogged s (d.ctx s)) (hsettled : settledFor s d.gpi) (hfresh : freshClock s)
    (hend : y.code ≠ 0 ∨ y.buf = []) (hlock : (s.core d.core).lock = true → d.left = 0) (hfit : d.word 0 + 8 ≤ 2 ^ 23) :
    ∃ t e, exec (.farAccessArrival d.gpi d.id) s = .next t ∧ t.cmd d.gpi d.id = some e ∧ e.aux = 1 ∧ (t.part d.gpi).tx = none ∧
      performs s t d.gpi d.id (.slice d.core) (d.word 0) (splitBytes (statusOf y) 8) := by
  obtain ⟨hcounting, hheld, hfault, haux, howed⟩ := hm
  have hlen : (splitBytes (statusOf y) 8).length = 8 := splitBytes_length ..
  obtain ⟨t, hdeliver, hcmd, hperf⟩ := deliverLocal_delivers (f := id) hd hlog hsettled hfresh hlock (by rw [hlen]; exact hfit)
    (List.ne_nil_of_length_pos (by rw [hlen]; decide))
  let e : Cmd := { d with aux := 1 }
  let u := (putCmd e t).updPart d.gpi fun z => { z with tx := none }
  have hstep : d.step s = .ok (true, u) := by
    have hs : d.step s = commitStep d s := by simp [Cmd.step, hk]
    rw [hs, commitStep_ends (tx_of hy hi) hend, hdeliver]
    rfl
  have hu : u.cmd d.gpi d.id = some e := (cmd_updTx _ d.gpi d.gpi d.id fun _ => none).trans (cmd_putCmd hcmd)
  have hcounts : d.counts = true := by simp [Cmd.counts, hcounting, hheld, hfault]
  refine ⟨u, e, farAccessArrival_ends hd hcounts haux hstep hu rfl howed, hu, rfl, ?_, ?_⟩
  · rw [State.part_updPart, if_pos rfl]
  · exact performs_congr (.refl s) (((SameBytes.refl t).putCmd e).updPart ..) hperf

/-! ### The commit as a whole -/

theorem transactionCommits_hold : transactionCommits := by
  intro s p d n y hheld hn hk hcounting hfault hnotheld haux howed hy hi hmeter hlog hsettled hfresh
  obtain ⟨rfl, hd⟩ := hheld
  subst hn
  have hm : moving d := ⟨hcounting, hnotheld, hfault, haux, howed⟩
  have hcounts : d.counts = true := by simp [Cmd.counts, hcounting, hnotheld, hfault]
  have hlog' : Unlogged s (d.ctx s) := Says.unlogged_of hlog
  refine ⟨fun hcode hbuf hnear => ?_, fun hend hlock hfit => ?_⟩
  · obtain ⟨b, hb, hrun⟩ := commits_run hd hy hi ((unmetered_iff ..).1 hmeter) hlog' hsettled hfresh hcode hbuf hnear
    obtain ⟨run, hdef⟩ : ∃ run, run = heldRun y.buf b.owner b.addr (128 - b.addr % 128) := ⟨_, rfl⟩
    obtain ⟨t, ht, hcmd, htx, hperf⟩ := hrun run hdef
    have hstep : d.step s = commitStep d s := by simp [Cmd.step, hk]
    obtain ⟨u, hu, hr⟩ := farAccessArrival_moves hd hcounts haux (hstep.trans ht) hcmd
    have hpos : 0 < run.length := hdef ▸ heldRun_pos (n := 128 - b.addr % 128) hb (by omega)
    have hlen : run.length ≤ 128 - b.addr % 128 := hdef ▸ heldRun_length ..
    have hmarks := without_marks (x := { y with applying := true }) run
    refine ⟨u, without { y with applying := true } run, b.owner, b.addr, run.map TxByte.val, hu, (hr.cmd ..).trans hcmd, by rwa [List.length_map],
      by rw [List.length_map]; omega, fun i v hv => ?_, performs_congr (.refl s) hr.sameBytes hperf, (congrArg Part.tx (hr.part _)).trans htx, rfl,
      hcode, fun x => ?_, rfl, hmarks.1, hmarks.2⟩
    · rw [List.getElem?_map, Option.map_eq_some_iff] at hv
      obtain ⟨w, hw, rfl⟩ := hv
      obtain ⟨hmem, ho, ha⟩ := heldRun_get (hdef ▸ hw)
      rw [← ho, ← ha]
      exact hmem
    · rw [mem_without, hdef, mem_heldRun]
      simp only [not_exists, not_and, ne_eq]
  · exact commits_status hd hk hm hy hi hlog' hsettled hfresh hend hlock hfit

/-! ### The obligation -/

/-- Settles O35: a far access of a transaction goes through accessAt, which leaves the bytes of every owner and the buffer as they are,
and a commit applies one run of the buffer by one write of TXC, which spares its own transaction. -/
theorem tagsAndTransactions : Obligations.TagsAndTransactions :=
  ⟨tagInstructions_hold, transactionInstructions_hold, transactionalAccesses_hold, transactionCommits_hold⟩

end Sys2Proof
end

section
/-!
PROOFS. A tile that leaves the compressor (O34): the writes that a clock takes from it, and a raw tile longer than a slice.
-/

/- Elaborated in turn: the short proofs of this part are not worth the memory of a worker for each. -/
set_option Elab.async false

namespace Sys2Proof

open Sys2Proof.Machine Sys2Proof.Says

variable {s t u : State} {c d : Cmd} {n : Nat}

/-! ### The writes that storing a tile adds to the clock's (R232, R249) -/

/-- The writes of the clock at every slice of t are those of s, or a piece of one of the writes ws of command c: the part before the end
of the slice, or the rest, at its beginning. -/
def AddsPieces (c : Cmd) (ws : List (Nat × List W8)) (s t : State) : Prop :=
  ∀ m, ∀ x ∈ (t.core m).farNow, x ∈ (s.core m).farNow ∨
    ∃ w ∈ ws, x = ⟨c.gpi, c.id, false, w.1, w.2.take (2 ^ 23 - w.1)⟩ ∨ x = ⟨c.gpi, c.id, false, 0, w.2.drop (2 ^ 23 - w.1)⟩

theorem AddsPieces.of_farNow {ws : List (Nat × List W8)} (h : ∀ m, (t.core m).farNow = (s.core m).farNow) : AddsPieces c ws s t :=
  fun m _ hx => .inl (h m ▸ hx)

theorem AddsPieces.trans {ws : List (Nat × List W8)} (h : AddsPieces c ws s t) (g : AddsPieces c ws t u) : AddsPieces c ws s u :=
  fun m x hx => (g m x hx).elim (fun hx => h m x hx) .inr

theorem mem_addFar {x w : FarWrite} {l : List FarWrite} (h : x ∈ addFar w l) : x ∈ l ∨ x = w := by
  obtain ⟨a, b, rfl, e, -⟩ := addFar_place w l
  rw [e] at h
  simp only [List.mem_append, List.mem_cons] at h ⊢
  tauto

theorem writes_farNow {except : Option Nat} {a m : Nat} {bs : List W8} {x : FarWrite}
    (h : x ∈ ((c.writes except (.slice n) a bs s).core m).farNow) :
    x ∈ (s.core m).farNow ∨ x = ⟨c.gpi, c.id, false, a, bs⟩ := by
  unfold Cmd.writes State.perform at h
  split at h
  · exact .inl h
  · have hc : ∀ m, ((s.logWrite (c.ctx s) (.slice n) a bs.length).doomWrite except (.slice n) a bs.length).core m = s.core m := fun m => by
      rw [State.core, State.doomWrite, logWrite_cores]
      rfl
    dsimp only at h
    rw [State.core_updCore] at h
    split at h
    · next hm =>
      rw [hc, ← hm] at h
      exact mem_addFar h
    · rw [hc] at h
      exact .inl h

/-- The pieces of one write laid. -/
theorem lay_addsPieces {ws : List (Nat × List W8)} {w : Nat × List W8} (hw : w ∈ ws) (s : State) :
    AddsPieces c ws s (c.writes none (.slice n) 0 (w.2.drop (2 ^ 23 - w.1)) (c.writes none (.slice n) w.1 (w.2.take (2 ^ 23 - w.1))
      (useRows c (.slice n) w.1 w.2.length true s))) := by
  intro m _ hx
  rcases writes_farNow hx with hx | rfl
  · rcases writes_farNow hx with hx | rfl
    · exact .inl ((Calm.used c (.slice n) w.1 w.2.length true s).farNow m ▸ hx)
    · exact .inr ⟨w, hw, .inl rfl⟩
  · exact .inr ⟨w, hw, .inr rfl⟩

theorem layAll_addsPieces {ws : List (Nat × List W8)} (l : List (Nat × List W8)) (hl : ∀ w ∈ l, w ∈ ws) (s : State) :
    AddsPieces c ws s (l.foldl (fun t w => c.writes none (.slice n) 0 (w.2.drop (2 ^ 23 - w.1))
      (c.writes none (.slice n) w.1 (w.2.take (2 ^ 23 - w.1)) (useRows c (.slice n) w.1 w.2.length true t))) s) := by
  induction l generalizing s with
  | nil => exact .of_farNow fun _ => rfl
  | cons w l ih =>
    exact (lay_addsPieces (hl w (List.mem_cons_self ..)) s).trans (ih (fun v hv => hl v (List.mem_cons_of_mem _ hv)) _)

/-- A tile stored in a slice of the own cluster. -/
theorem tileStep_addsPieces {b : Nat} {bs : List W8} {ws : List (Nat × List W8)} {moved : Bool}
    (hwhere : c.whereIs s c.dst true = .at (.slice n) b) (hhome : outside c.cluster (.slice n) = false)
    (hws : storeTile ((s.core n).seen c.gpi c.id) b (c.tile0 + c.wr / 256) c.kzs bs = .ok ws)
    (h : tileStep c bs s = .ok (moved, t)) : AddsPieces c ws s t := by
  unfold tileStep at h
  rw [hwhere] at h
  dsimp only at h
  rw [hhome] at h
  simp only [Bool.false_eq_true, if_false] at h
  rw [hws] at h
  split at h
  · cases h
    exact .of_farNow fun _ => rfl
  · dsimp only at h
    split at h
    · cases h
      exact .of_farNow fun _ => rfl
    · cases h
      exact layAll_addsPieces ws (fun _ h => h) s

/-- The whole access of a command whose compressed tile leaves its codec. -/
theorem farAccessArrival_addsPieces {p b k : Nat} {bs : List W8} {r : List (Nat × List W8)} {ws : List (Nat × List W8)}
    (hd : s.cmd p d.id = some d) (hk : d.kind = .copy) (hx : d.xf = 4) (hc : d.codec = (k, bs) :: r) (hr : k ≤ d.ran)
    (hwhere : d.whereIs s d.dst true = .at (.slice n) b) (hhome : outside d.cluster (.slice n) = false)
    (hws : storeTile ((s.core n).seen d.gpi d.id) b (d.tile0 + d.wr / 256) d.kzs bs = .ok ws)
    (h : exec (.farAccessArrival p d.id) s = .next t) : AddsPieces d ws s t := by
  have hstep : d.step s = tileStep d bs s := by
    have ho : d.tileOut = some bs := by simp [Cmd.tileOut, hc, hr]
    simp [Cmd.step, hk, streamStep, ho, hx]
  change execFarAccessArrival p d.id s = _ at h
  unfold execFarAccessArrival withCmd at h
  rw [hd] at h
  simp only at h
  injection h with h
  subst h
  rw [hstep]
  split
  · exact .of_farNow fun _ => rfl
  · cases hstore : tileStep d bs s with
    | error f => exact .of_farNow fun _ => rfl
    | ok r =>
      obtain ⟨moved, t⟩ := r
      have ht := tileStep_addsPieces hwhere hhome hws hstore
      dsimp only
      split
      · exact ht
      · next e he =>
        split
        · exact ht
        · have hcalm : Calm t (if e.must t then (1, t) else e.choose 2 2 t).2 := by
            split
            · exact .refl t
            · exact .chosen 2 2 e t
          refine ht.trans (.of_farNow fun m => Eq.trans ?_ (hcalm.farNow m))
          generalize (if e.must t then (1, t) else e.choose 2 2 t) = q
          split <;> rfl

/-! ### Bytes beyond a tile's end -/

theorem fld_low {x y e a k : Nat} (h : a + k ≤ e) : fld (x + 2 ^ e * y) a k = fld x a k := by
  obtain ⟨i, rfl⟩ := Nat.exists_eq_add_of_le h
  unfold fld
  rw [Nat.pow_add, Nat.pow_add, Nat.mul_assoc, Nat.mul_assoc, Nat.add_mul_div_left _ _ (Nat.two_pow_pos a), Nat.add_mul_mod_self_left]

/-- The elements of a tile are those of its first 256 bytes. -/
theorem tileElems_append {efmt : Nat} {head : List W8} (rest : List W8) (hh : head.length = 256) :
    tileElems efmt (head ++ rest) = tileElems efmt head := by
  unfold tileElems
  refine List.map_congr_left fun i hi => ?_
  rw [joinBytes_append, hh]
  refine fld_low ?_
  have h := Nat.div_mul_le_self 2048 (fmtBits efmt)
  calc fmtBits efmt * i + fmtBits efmt = (i + 1) * fmtBits efmt := by ring
    _ ≤ 2048 / fmtBits efmt * fmtBits efmt := Nat.mul_le_mul_right _ (List.mem_range.1 hi)
    _ ≤ 8 * 256 := h

/-- The encoding of a tile that is not raw: its masks, its planes and its zeros' signs (R248). -/
def tileBody (efmt : Nat) (keep : Bool) (xs : List Nat) : List W8 :=
  let ps := planes (elemsBytes efmt (zeroed efmt xs))
  ((List.range 16).map fun g => BitVec.ofNat 8 (packNat 1 ((List.range 8).map fun k => b2n (ps.getD (8 * g + k) 0 != 0))))
    ++ (ps.filter fun p => p != 0).flatMap (fun p => splitBytes p 2) ++ (if keep then bitBytes (zeroSigns efmt xs) else [])

theorem encodeTile_eq (efmt : Nat) (kzs : Bool) (bs : List W8) : encodeTile efmt kzs bs =
    let keep := kzs && signedZero efmt
    let body := tileBody efmt keep (tileElems efmt bs)
    if 160 < body.length then (if keep then bs else elemsBytes efmt (zeroed efmt (tileElems efmt bs)), true, false)
    else (body, false, keep) := rfl

/-- 256 bytes of all ones. -/
def ones : List W8 := List.replicate 256 255

theorem ones_length : ones.length = 256 := List.length_replicate ..

theorem ones_body : 160 < (tileBody 0 true (tileElems 0 ones)).length := by decide +kernel

/-- Bytes that begin with 256 of all ones are kept raw, with all that follows them. -/
theorem encodeTile_ones (rest : List W8) : encodeTile 0 true (ones ++ rest) = (ones ++ rest, true, false) := by
  have hb : 160 < (tileBody 0 (true && signedZero 0) (tileElems 0 (ones ++ rest))).length := by
    rw [tileElems_append rest ones_length]
    exact ones_body
  rw [encodeTile_eq]
  dsimp only
  rw [if_pos hb]
  rfl

/-- A raw tile stored afresh, where the region has room (R249). -/
theorem storeTile_raw {m : Mem} {b i : Nat} {kzs : Bool} {bs : List W8} {r : Region} {e : TileEntry} (hr : readRegion m b = some r)
    (he : readTileEntry m b r i = some e) (hc : encodeTile r.efmt (kzs || r.kzs) bs = (bs, true, false)) (hf : (e.len + 15) / 16 < 16)
    (hroom : r.fill16 + 16 ≤ r.end16) : storeTile m b i kzs bs = .ok [((b + 16 * r.fill16) % 2 ^ 23, bs),
      ((b + 128 + 4 * i) % 2 ^ 23, splitBytes (tileEntryWord ⟨r.fill16, bs.length, true, false⟩) 4),
      ((b + 8) % 2 ^ 23, splitBytes (r.fill16 + 16) 3)] := by
  unfold storeTile
  rw [hr]
  dsimp only
  rw [he]
  dsimp only
  rw [hc]
  simp [Nat.not_le.2 hf, Nat.not_lt.2 hroom]

/-! ### A raw tile longer than a slice -/

/-- A region of one tile at the beginning of a slice: its data ends at 768, and what is free begins at 256. -/
def oneTile : Mem := ⟨0, [(0, 1), (4, 0x30), (8, 0x10)]⟩

/-- A COPY to that region with KZS set, its last tile, of bytes bs, having left the compressor. -/
def compressing (bs : List W8) : Cmd := { newCmd State.reset .copy 0 0 0 0 [0] with
  id := 7, counting := true, looked := true, desc := [windowBase + 4096, windowBase, 1207959808], rd := 256, codec := [(0, bs)] }

/-- The COPY is the only command, of partition 0, and core 0 holds the region in its slice, for a context that has cluster 0. -/
def compressingState (bs : List W8) : State := { State.reset with
  parts := [(0, { Part.initial 0 with cmds := [compressing bs] })]
  cores := [(0, { Core.initial with kernel := some 0, slice := oneTile })]
  kernels := [(0, Kernel.fresh 0 0 3 [] [] 0 0)]
  ctxs := [(3, { Context.initial with record := [1] })] }

section

variable (bs : List W8)

theorem compressing_held : held (compressingState bs) 0 (compressing bs) := ⟨rfl, rfl⟩

theorem compressing_moving : moving (compressing bs) := ⟨rfl, rfl, rfl, rfl, rfl⟩

theorem compressing_unmetered : unmetered (compressingState bs) 0 := by
  refine ⟨fun k hk cls => ?_, fun h hh => nomatch hh⟩
  cases hk
  have hw : (({ Context.initial with record := [1] } : Context).word (4 + cls / 2)) = 0 := by
    unfold Context.word
    rw [List.getD_eq_default]
    exact Nat.le_add_right_of_le (by decide)
  change fld (({ Context.initial with record := [1] } : Context).word (4 + cls / 2)) (32 * (cls % 2)) 32 = 0
  rw [hw, fld, Nat.zero_div, Nat.zero_mod]

theorem compressing_unlogged : unlogged (compressingState bs) 0 := ⟨fun k hk => by cases hk; rfl, fun _ => rfl⟩

theorem compressing_settledFor : settledFor (compressingState bs) 0 := fun _ _ n => Bool.and_false (n != 0)

theorem compressing_freshClock : freshClock (compressingState bs) := fun n => by cases n <;> exact ⟨rfl, rfl⟩

theorem compressing_side (m : Nat) : ((compressingState bs).core m).side.wf := by cases m <;> exact Mem.zero_wf

theorem compressing_farNow (m : Nat) : ((compressingState bs).core m).farNow = [] := by cases m <;> rfl

theorem compressing_core : (compressing bs).core = 0 := Nat.zero_div 4

theorem compressing_home : outside (compressing bs).cluster (.slice 0) = false := by
  unfold Cmd.cluster
  rw [compressing_core]
  rfl

theorem compressing_whereIs : (compressing bs).whereIs (compressingState bs) (compressing bs).dst true = .at (.slice 0) 0 := by
  have hdst : (compressing bs).dst = windowBase := rfl
  have hctx : (compressingState bs).ctxOf (compressing bs).core = some 3 := by
    rw [compressing_core]
    rfl
  have hmask : bit ((compressingState bs).ctx 3).clmask (clusterOf (0 / 2 ^ 23)) = true := by
    change bit (fld 1 0 20) (clusterOf (0 / 2 ^ 23)) = true
    decide
  have hw : (compressingState bs).windowVa (some 3) windowBase = some (.page (.slice 0) 0 23 true) := by
    unfold State.windowVa
    rw [if_neg (Nat.lt_irrefl _)]
    dsimp only
    rw [Nat.sub_self, hmask]
    decide
  unfold Cmd.whereIs
  rw [hdst, hctx, hw]
  change (Xlate.page (.slice 0) 0 23 true).place windowBase true = .at (.slice 0) 0
  decide

theorem compressing_xf : (compressing bs).xf = 4 := by
  change fld (1207959808) 25 4 = 4
  decide

theorem compressing_kzs : (compressing bs).kzs = true := by
  change bit (1207959808) 30 = true
  decide

theorem compressing_index : (compressing bs).tile0 + (compressing bs).wr / 256 = 0 := by
  change fld 0 32 15 + 0 / 256 = 0
  decide

theorem compressing_found (i : Nat) : found (compressingState bs) 0 i (.slice 0) = oneTile := rfl

/-- What storing a tile that begins with 256 bytes of all ones writes: all its bytes from 256 on, its entry, and the header's FILL. -/
def onesWrites (rest : List W8) : List (Nat × List W8) :=
  [(256, ones ++ rest), (128, splitBytes (tileEntryWord ⟨16, (ones ++ rest).length, true, false⟩) 4), (8, splitBytes 32 3)]

theorem storeTile_oneTile (rest : List W8) : storeTile oneTile 0 0 true (ones ++ rest) = .ok (onesWrites rest) := by
  have hr : readRegion oneTile 0 = some ⟨1, 0, false, 0x30, 0x10⟩ := by decide +kernel
  have he : readTileEntry oneTile 0 ⟨1, 0, false, 0x30, 0x10⟩ 0 = some ⟨0, 0, false, false⟩ := by decide +kernel
  exact storeTile_raw hr he (encodeTile_ones rest) (by decide) (by decide)

end

/-- The byte at offset i of a slice that the pieces of those writes give, an offset before the header's FILL. -/
theorem onesWrites_piece {rest : List W8} {i : Nat} (hi : i < 8) {x : FarWrite} {v : W8} (ha : x.addr ≤ i)
    (hv : x.data[i - x.addr]? = some v)
    (hx : ∃ w ∈ onesWrites rest, x = ⟨0, 7, false, w.1, w.2.take (2 ^ 23 - w.1)⟩ ∨ x = ⟨0, 7, false, 0, w.2.drop (2 ^ 23 - w.1)⟩) :
    (ones ++ rest)[2 ^ 23 - 256 + i]? = some v := by
  obtain ⟨w, hw, rfl | rfl⟩ := hx
  · simp only [onesWrites, List.mem_cons, List.not_mem_nil, or_false] at hw
    rcases hw with rfl | rfl | rfl <;> dsimp only at ha <;> omega
  · rw [List.getElem?_drop, Nat.sub_zero] at hv
    simp only [onesWrites, List.mem_cons, List.not_mem_nil, or_false] at hw
    rcases hw with rfl | rfl | rfl
    · exact hv
    · rw [List.getElem?_eq_none (by rw [splitBytes_length]; omega)] at hv
      cases hv
    · rw [List.getElem?_eq_none (by rw [splitBytes_length]; omega)] at hv
      cases hv

/-- Refutes O34: its clause of XF 4 lets the tile in the compressor be of any length. One that begins with 256 bytes of all ones is stored
raw, as it is; of one longer than a slice the bytes beyond the second end of the slice have no place of their own among the writes of the
clock, which the clause asks for: byte 2^23 + (2^23 - 256) + 5, a zero, wraps to offset 5, where the clock writes an earlier byte of the
tile, of all ones. -/
theorem not_farAccessesPerform : ¬ Obligations.FarAccessesPerform := by
  rintro ⟨-, -, -, -, htransforms, -⟩
  obtain ⟨k, hk⟩ : ∃ k, k = 2 ^ 24 - 256 + 5 - 256 := ⟨_, rfl⟩
  let rest : List W8 := List.replicate k 255 ++ [0]
  have hzero : (ones ++ rest)[256 + k]? = some 0 := by
    rw [List.getElem?_append_right (by rw [ones_length]; omega), ones_length, List.getElem?_append_right (by simp)]
    simp
  have hones : (ones ++ rest)[2 ^ 23 - 256 + 5]? = some 255 := by
    rw [List.getElem?_append_right (by rw [ones_length]; omega), ones_length,
      List.getElem?_append_left (by rw [List.length_replicate]; omega), List.getElem?_replicate, if_pos (by omega)]
  generalize rest = rest at hzero hones
  let s := compressingState (ones ++ rest)
  let d := compressing (ones ++ rest)
  have hstore : storeTile (found s 0 d.id (.slice 0)) 0 (d.tile0 + d.wr / 256) d.kzs (ones ++ rest) = .ok (onesWrites rest) := by
    rw [compressing_found, compressing_index, compressing_kzs]
    exact storeTile_oneTile rest
  obtain ⟨-, hcodec, -⟩ := htransforms s 0 d 0 (compressing_held _) (compressing_moving _) rfl rfl rfl (compressing_unmetered _)
    (compressing_unlogged _) (compressing_settledFor _) (compressing_freshClock _) (compressing_side _) rfl
  obtain ⟨hlaid, -⟩ := (hcodec 0 (ones ++ rest) [] rfl (Nat.zero_le _)).2 (compressing_xf _) 0 0 (compressing_whereIs _)
  obtain ⟨t, e, ht, -, -, -, -, h⟩ := hlaid (onesWrites rest) hstore
  obtain ⟨x, hx, -, -, -, ha, hv⟩ := h (256, ones ++ rest) (List.mem_cons_self ..) (256 + k) 0 hzero
  have hoff : (256 + (256 + k)) % 2 ^ 23 = 5 := by omega
  rw [hoff] at ha hv
  have hadds := farAccessArrival_addsPieces (ws := onesWrites rest) (d := d) (compressing_held _).2 rfl (compressing_xf _) rfl (Nat.zero_le _)
    (compressing_whereIs _) (compressing_home _) hstore ht
  rcases hadds 0 x hx with hold | hnew
  · rw [compressing_farNow] at hold
    cases hold
  · exact absurd ((onesWrites_piece (by decide) ha hv hnew).symm.trans hones) (by decide)

end Sys2Proof
end

section
/-!
PROOFS. The order of engine commands (O37): a release that stands in one partition's list and carries another's number notes its gate in
the other's list.
-/

/- Elaborated in turn: the short proofs of this part are not worth the memory of a worker for each. -/
set_option Elab.async false

namespace Sys2Proof

open Sys2Proof.Machine Sys2Proof.Says

/-- A drain of partition 0, its command 1. -/
def drainOfZero : Cmd := { newCmd State.reset .drn 0 0 0 0 [] with id := 1 }

/-- A JOIN under the same partition and number. -/
def joinOfZero : Cmd := { newCmd State.reset .join 0 0 0 0 [0] with id := 1 }

/-- The clock is in the phase of R274's gates; partition 0 holds its drain, and partition 1 a JOIN that carries partition 0's number. -/
def misfiledJoin : State := { State.reset with
  phase := 10
  parts := [(0, { Part.initial 0 with cmds := [drainOfZero] }), (1, { Part.initial 1 with cmds := [joinOfZero] })] }

theorem misfiledJoin_held : held misfiledJoin 0 drainOfZero := ⟨rfl, rfl⟩

/-- The phase replaces the drain by the JOIN with its gate noted. -/
theorem misfiledJoin_gates : (planGates misfiledJoin).2.cmd 0 1 = some { joinOfZero with gate := some [] } := rfl

theorem misfiledJoin_step : ∃ t, step misfiledJoin = .next t ∧ t.cmd 0 1 = some { joinOfZero with gate := some [] } :=
  ⟨_, rfl, misfiledJoin_gates⟩

/-- Refutes O37: commandOrder asks of every listed command that the phase of the gates keeps a command that is no release, and no
hypothesis asks that the commands in a partition's list carry that partition's number; a JOIN listed under partition 1 with the partition
and the number of a drain of partition 0 takes the drain's place as its gate is noted. -/
theorem not_commandsAndPageWalks : ¬ Obligations.CommandsAndPageWalks := by
  rintro ⟨-, horder, -⟩
  obtain ⟨t, ht, h⟩ := horder misfiledJoin rfl (by decide)
  obtain ⟨u, hu, hcmd⟩ := misfiledJoin_step
  cases ht.symm.trans hu
  have hone : ∀ y ∈ (misfiledJoin.part 0).cmds, y.id = drainOfZero.id → y = drainOfZero := fun y hy _ => List.mem_singleton.1 hy
  obtain ⟨-, -, hgates, -⟩ := h 0 drainOfZero misfiledJoin_held hone
  obtain ⟨e, he, -, hkept⟩ := hgates rfl
  have hdrain : ¬ isRelease drainOfZero := by
    rintro (h | ⟨h | h, -⟩) <;> exact absurd h (by decide)
  have hjoin : e = { joinOfZero with gate := some [] } := Option.some.inj (he.symm.trans hcmd)
  have hkind := congrArg Cmd.kind ((hkept fun hr => hdrain hr.1).symm.trans hjoin)
  exact absurd hkind (by decide)

end Sys2Proof
end
